-- ==== Sys2Proof/Word.lean ====
section
/-! DEFINITION. The word types of the QMN7: bytes, the 24-bit instruction word and physical address, and phase time. -/

namespace Sys2Proof

/-- One byte of memory or of a byte register. -/
abbrev Byte := BitVec 8
/-- A pointer register, or a 16-bit unit of the host port. -/
abbrev Half := BitVec 16
/-- An instruction word (R95) or a physical address (R25). -/
abbrev Word24 := BitVec 24
/-- A 32-bit value. -/
abbrev Word := BitVec 32
/-- A phase-time value MCN:fraction, MCN in bits [47:16] (R10, R11). -/
abbrev PhaseTime := BitVec 48
/-- A 64-bit value. -/
abbrev DWord := BitVec 64
/-- A 128-bit block of the cipher engine. -/
abbrev Block := BitVec 128

end Sys2Proof
end

