-- ==== Sys2Proof/Syntax.lean ====
section
/-! DEFINITION. The commands the block takes: one constructor per row of spec/opcode_table.json, with the row's operands.
An accessor is 0 to 15 for burner n, 16 for the host port and 17 for the debug port (SYS_ACCERR.ACCESSOR). A row that is
an instruction of the Sweune names the burner that issues it and the fields of its word, bit for bit (R95, R103). A row
that is an event of the outside world carries what the device measures or receives at that event. -/

namespace Sys2Proof

/-- The width of one access (R39): a byte, a 16-bit or a 32-bit unit. -/
inductive Width where
  | w8 | w16 | w32
  deriving DecidableEq, Repr

/-- The blocks that hold staged fields (R34). -/
inductive CommitBlock where
  | sys | tb | lio | fe | mod | cpa | cpb | mac | fwd
  deriving DecidableEq, Repr

/-- Class ALU2: body [11:8] reserved, [7:4] d, [3:0] s (R103). -/
structure Alu2 where
  rsv : BitVec 4
  d : BitVec 4
  s : BitVec 4
  deriving DecidableEq, Repr

/-- Class ALUI: [14:11] d, [10:8] reserved, [7:0] imm8. -/
structure AluI where
  d : BitVec 4
  rsv : BitVec 3
  imm : BitVec 8
  deriving DecidableEq, Repr

/-- Class LDP: the class's low bit and [17:16] give the pointer, [15:0] imm16. -/
structure LdpF where
  p : BitVec 3
  imm : BitVec 16
  deriving DecidableEq, Repr

/-- Class ADDPI: [17:15] pointer, [12] reserved, [11:0] simm12. -/
structure AddpF where
  p : BitVec 3
  rsv : BitVec 1
  imm : BitVec 12
  deriving DecidableEq, Repr

/-- Classes LDB and STB: [17:14] register, [13:11] pointer, [10:9] mode, [8:0] simm9. -/
structure MemF where
  r : BitVec 4
  p : BitVec 3
  mode : BitVec 2
  imm : BitVec 9
  deriving DecidableEq, Repr

/-- Class ATOM: [14:11] d, [10:7] s, [6:4] pointer, [3] reserved, [2:0] bit. -/
structure AtomF where
  d : BitVec 4
  s : BitVec 4
  p : BitVec 3
  rsv : BitVec 1
  bit : BitVec 3
  deriving DecidableEq, Repr

/-- Class BR: [17:14] condition, [13:0] simm14. -/
structure BrF where
  cond : BitVec 4
  off : BitVec 14
  deriving DecidableEq, Repr

/-- Classes JMP and CALL: [17:16] reserved, [15:0] target. -/
structure JmpF where
  rsv : BitVec 2
  tgt : BitVec 16
  deriving DecidableEq, Repr

/-- One half of a clause: [10:8] opcode, [7:4] d, [3:0] s (R95). -/
structure ClauseHalf where
  op : BitVec 3
  d : BitVec 4
  s : BitVec 4
  deriving DecidableEq, Repr

/-- A clause word: the yield hint [22], the first half [21:11], the second half [10:0] (R95). -/
structure ClauseF where
  hint : BitVec 1
  h1 : ClauseHalf
  h2 : ClauseHalf
  deriving DecidableEq, Repr

/-- An adverb of kind CX to C3: body [11:8] d, [7:4] a, [3:0] b (R120). -/
structure C3F where
  d : BitVec 4
  a : BitVec 4
  b : BitVec 4
  deriving DecidableEq, Repr

/-- Adverbs CRD and CWR: [17:15] coprocessor, [14:11] register, [10:0] coprocessor register (R112). -/
structure CrF where
  cp : BitVec 3
  r : BitVec 4
  cr : BitVec 11
  deriving DecidableEq, Repr

/-- Adverb CSYNC: [17:15] coprocessor, [14:0] reserved (R112). -/
structure CsyncF where
  cp : BitVec 3
  rsv : BitVec 15
  deriving DecidableEq, Repr


/-- Why the core switches back to RC48: SRC written 0, or PLLEN or XOEN cleared while SRC = 1 (R30). -/
inductive Rc48Cause where
  | srcWrite | pllenClear | xoenClear
  deriving DecidableEq, Repr

/-- A block as the line carries it (R204): the two header bits, the first sent the higher, and the 64 scrambled payload bits, bit 0
the first sent. -/
structure LineBlock where
  hdr : BitVec 2
  bits : BitVec 64
  deriving DecidableEq, Repr

/-- What ends a received column frame (R210): the blocks the line brings next, or the loss of signal or block lock. -/
inductive CpEnding where
  | blocks (l : List LineBlock)
  | loss
  deriving DecidableEq, Repr

/-- What triggers a capture of a timer, A (false) or B (true): its task, or an edge of the pin that the capture's CAPxPIN names (R394). -/
inductive CapTrig where
  | task (b : Bool)
  | edge (b rising : Bool)
  deriving DecidableEq, Repr

/-- How a transmitted column frame ends (R210): with TERMn; with ABORT after a number of blocks because the cut-through source ended
bad; the same because the next bytes were not ready. A number of IDLE blocks follows beyond the one that must (R209). -/
inductive CpTxEnding where
  | term (idle : BitVec 8)
  | badSource (blocks idle : BitVec 8)
  | underrun (blocks idle : BitVec 8)
  deriving DecidableEq, Repr

/-- A native host frame as it comes over the wires (R412, R413, R417). -/
structure HostFrame where
  /-- The header was completed; a frame that ends before its 16th bit is ignored whole. -/
  whole : Bool
  sub : BitVec 3
  addr : BitVec 11
  /-- The whole data words on HSDI after the header, of a write. -/
  words : List (BitVec 16)
  /-- The whole data-word slots on HSDO after the turnaround word, of a read: was the slot's word ready (R416)? -/
  slots : List Bool
  /-- Was the word of the slot that the frame's end cuts ready (R416)? In compatibility mode: had the previous frame's read completed
  when this frame began (R428)? -/
  cutReady : Bool
  /-- The turnaround word was completed, of a read (R413). -/
  turn : Bool
  /-- The bits of a last, partial word. -/
  part : BitVec 4
  deriving DecidableEq, Repr

/-- A compatibility frame as it comes over the wires, but for the CMD of its row (R426, R427). -/
structure CompatFrame where
  alive : BitVec 4
  /-- The frame carries the invalid CMD 5h + n in place of its row's (R427). -/
  invalid : Option (Fin 11)
  addr : BitVec 16
  data : BitVec 32
  crc : BitVec 8
  /-- The rising edges of HSCK. -/
  edges : BitVec 8
  /-- The previous frame's read had not completed when this frame began (R428). -/
  late : Bool
  deriving DecidableEq, Repr

/-- How the flash work of an install ends (R452, R453): every erase and program passes; the erase verify of a block of the
slot fails; the program verify of a page of the slot fails. -/
inductive InstallEnding where
  | whole
  | erase (blk : BitVec 4)
  | page (p : BitVec 12)
  deriving DecidableEq, Repr

/-- What the device finds at the release of a reset (R349, R351, R353, R411, R462): the straps, the supplies as the monitors
compare them, the first die sample in 0.5 °C, the outcome of the boot-time tests, and the calibration tables that read valid. -/
structure Release where
  lamp : Bool
  hid : BitVec 3
  hmode : Bool
  onBat : Bool
  mainOk : Bool
  nviLow : Bool
  vbatLow : Bool
  vddioLow : Bool
  temp : BitVec 16
  /-- The pipeline test passes. -/
  pipeOk : Bool
  /-- The banks of MEMBOOT that fail their test. -/
  memFail : BitVec 16
  /-- The record of the RTC curve, of the power table and of the gain table is valid. -/
  rtcCal : Bool
  pwrCal : Bool
  gainCal : Bool
  deriving DecidableEq, Repr




/-- The commands of the block, one per row of spec/opcode_table.json; each docstring gives the row and its rule. -/
inductive Instr where
  /-- REG_WRITE (R27): A write to a register field that has no row of its own takes effect under the access order and access codes. -/
  | regWrite (acc : Fin 18) (addr : BitVec 24) (w : Width) (v : BitVec 32)
  /-- LL_READ_LOW (R40): A read of the lowest unit of an LL register latches the whole register for that accessor. -/
  | llReadLow (acc : Fin 18) (addr : BitVec 24) (w : Width)
  /-- LL_READ_HIGH (R40): A read of a higher unit returns the latched part, or latches anew and sets LLORDER if the latch serves another register. -/
  | llReadHigh (acc : Fin 18) (addr : BitVec 24) (w : Width)
  /-- LL_WRITE_LOW (R40): A write of a lower unit collects in the accessor's holding copy, retagging it and setting LLORDER if it served another register. -/
  | llWriteLow (acc : Fin 18) (addr : BitVec 24) (w : Width) (v : BitVec 32)
  /-- LL_WRITE_HIGH (R40): A write of the highest unit commits the whole LL register from the holding copy. -/
  | llWriteHigh (acc : Fin 18) (addr : BitVec 24) (w : Width) (v : BitVec 32)
  /-- COMMIT_ARM (R34): A write of ARM to BLOCK_COMMIT requests a commit at the block's next boundary and sets PEND. -/
  | commitArm (blk : CommitBlock)
  /-- COMMIT_CANCEL (R34): A write of CANCEL to BLOCK_COMMIT withdraws a pending commit and clears PEND. -/
  | commitCancel (blk : CommitBlock)
  /-- COMMIT (R35): At a boundary reached with PEND set, the block snapshots, checks and applies all staged fields in one cycle, or rejects them. -/
  | commit (blk : CommitBlock)
  /-- CLK_SWITCH_PLL (R30): A write of SYS_CLK.SRC = 1 switches the core to the PLL without a glitch, or refuses and sets SWREF. -/
  | clkSwitchPll (held : Bool)
  /-- CLK_SWITCH_RC48 (R30): A write of SYS_CLK.SRC = 0, or a clear of PLLEN or XOEN while SRC = 1, switches the core back to RC48. -/
  | clkSwitchRc48 (cause : Rc48Cause)
  /-- PLL_LOCK (R30): PLLLOCK sets 40 us after PLLEN with XORDY and event 3 fires. -/
  | pllLock
  /-- XO_READY (R28): XO32 becomes stable 250 us after XOEN, XORDY sets and event 4 fires. -/
  | xoReady
  /-- CLK_FAIL (R31): XO32 stop or PLL lock loss while on the PLL returns the core to RC48, sets CLKFAIL and fires event 0. -/
  | clkFail (xoStopped : Bool)
  /-- XO32_LOSS (R187): Loss of XORDY takes the front end and column ports to OFF with reference faults and puts the timebase in HOLD. -/
  | xo32Loss
  /-- CYCLE_BOUNDARY (R48): MCN increments, the cycle strobe fires and the timebase applies switch, command and commit in order. -/
  | cycleBoundary
  /-- ZC_CANDIDATE (R50): A filtered ZC_IN edge is time-stamped and accepted or rejected as a crossing. -/
  | zcCandidate (edge : BitVec 48) (heldUs : BitVec 16) (elapsedNs : BitVec 32)
  /-- ZC_ABSENT (R51): No crossing within 1.05 nominal periods clears ZCOK. -/
  | zcAbsent
  /-- ZC_MISS (R52): A predicted crossing passes its window without acceptance, TB_ZCMISS counts and after MISS misses GRID enters HOLD. -/
  | zcMiss
  /-- TB_CMD_SEEK (R52): TB_CMD.SEEK requests the SEEK state at the next cycle boundary. -/
  | tbCmdSeek
  /-- TB_CMD_VIRT (R52): TB_CMD.VIRT requests the VIRTUAL state at the next cycle boundary. -/
  | tbCmdVirt
  /-- TB_SET (R56): A write of TB_SET's highest unit steps network time to the value and sets VALID. -/
  | tbSet (t : BitVec 48)
  /-- ANNOUNCE_REANCHOR (R57): A write of TB_SWCTL.MODE = 01b arms a re-anchor announcement. -/
  | announceReanchor
  /-- ANNOUNCE_VIRTUAL (R57): A write of TB_SWCTL.MODE = 10b arms a virtual announcement. -/
  | announceVirtual
  /-- ANNOUNCE_CANCEL (R57): A write of TB_SWCTL.MODE = 00b cancels an armed announcement. -/
  | announceCancel
  /-- TB_OFS_WRITE (R63): A write of TB_OFS restores or invalidates the phase offset, an invalid offset taking GRID to SEEK. -/
  | tbOfsWrite (val : Bool) (ofs : BitVec 16)
  /-- TB_CMP_FIRE (R65): Network time reaches a timebase comparator, which fires its event and repeats or disables. -/
  | tbCmpFire (k : Fin 2)
  /-- XK_FAIL (R47): No XK32 tick for 64 us sets XKFAIL, clears VALID and fires event 39. -/
  | xkFail
  /-- BRN_START (R71): BRN_CTL.START takes an OFF burner to RUN at BRN_PC. -/
  | brnStart (acc : Fin 18) (b : Fin 16)
  /-- BRN_STOP (R71): BRN_CTL.STOP takes the burner to OFF at its next word boundary. -/
  | brnStop (acc : Fin 18) (b : Fin 16)
  /-- BRN_PARK (R81): BRN_CTL.PARK requests parking at the next word boundary and sets PARKREQ. -/
  | brnPark (acc : Fin 18) (b : Fin 16)
  /-- BRN_RESUME (R71): BRN_CTL.RESUME returns a PARKED or FAULTED burner to RUN. -/
  | brnResume (acc : Fin 18) (b : Fin 16)
  /-- BRN_GSTART (R83): A write of BRN_GSTART starts or resumes every named burner in one cycle. -/
  | brnGstart (acc : Fin 18) (set : BitVec 16)
  /-- BRN_GPARK (R83): A write of BRN_GPARK requests parking of every named burner in one cycle. -/
  | brnGpark (acc : Fin 18) (set : BitVec 16)
  /-- PARKED (R81): A parking burner reaches its word boundary, enters PARKED, sets PARKF and fires its event. -/
  | parked (b : Fin 16)
  /-- WAKE (R79): A burner in WAIT or SLEEP whose awaited BRN_WPEND bit set becomes eligible two cycles later and the bit clears. -/
  | wake (b : Fin 16)
  /-- CLAUSE (R99): A clause word executes its two short operations together from the old register values. -/
  | clause (b : Fin 16) (f : ClauseF)
  /-- ADC (R105): Adds with carry. -/
  | adc (b : Fin 16) (f : Alu2)
  /-- SBC (R105): Subtracts with borrow. -/
  | sbc (b : Fin 16) (f : Alu2)
  /-- CMPC (R105): Compares with borrow, chaining Z. -/
  | cmpc (b : Fin 16) (f : Alu2)
  /-- NOT (R105): Inverts a byte register. -/
  | not (b : Fin 16) (f : Alu2)
  /-- NEG (R105): Negates a byte register. -/
  | neg (b : Fin 16) (f : Alu2)
  /-- INC (R105): Increments a byte register leaving C. -/
  | inc (b : Fin 16) (f : Alu2)
  /-- DEC (R105): Decrements a byte register leaving C. -/
  | dec (b : Fin 16) (f : Alu2)
  /-- SHL (R105): Shifts left into C. -/
  | shl (b : Fin 16) (f : Alu2)
  /-- SHR (R105): Shifts right logically into C. -/
  | shr (b : Fin 16) (f : Alu2)
  /-- ASR (R105): Shifts right arithmetically into C. -/
  | asr (b : Fin 16) (f : Alu2)
  /-- ROL (R105): Rotates left through C. -/
  | rol (b : Fin 16) (f : Alu2)
  /-- ROR (R105): Rotates right through C. -/
  | ror (b : Fin 16) (f : Alu2)
  /-- SWAPN (R105): Exchanges the nibbles of a byte register. -/
  | swapn (b : Fin 16) (f : Alu2)
  /-- BTST (R105): Copies a bit into T. -/
  | btst (b : Fin 16) (f : Alu2)
  /-- BSET (R105): Sets a bit of a byte register. -/
  | bset (b : Fin 16) (f : Alu2)
  /-- BCLR (R105): Clears a bit of a byte register. -/
  | bclr (b : Fin 16) (f : Alu2)
  /-- MULU (R105): Multiplies the low byte of Pd by a byte register into Pd. -/
  | mulu (b : Fin 16) (f : Alu2)
  /-- MOVP (R105): Copies a pointer register. -/
  | movp (b : Fin 16) (f : Alu2)
  /-- ADDP (R105): Adds two pointer registers. -/
  | addp (b : Fin 16) (f : Alu2)
  /-- SUBP (R105): Subtracts two pointer registers. -/
  | subp (b : Fin 16) (f : Alu2)
  /-- CMPP (R105): Compares two pointer registers. -/
  | cmpp (b : Fin 16) (f : Alu2)
  /-- TST (R105): Sets Z and N from a byte register. -/
  | tst (b : Fin 16) (f : Alu2)
  /-- LDP (R106): Loads a 16-bit immediate into a pointer register. -/
  | ldp (b : Fin 16) (f : LdpF)
  /-- ADDPI (R106): Adds a signed 12-bit immediate to a pointer without flags. -/
  | addpi (b : Fin 16) (f : AddpF)
  /-- ADDPIF (R106): Adds a signed 12-bit immediate to a pointer with flags. -/
  | addpif (b : Fin 16) (f : AddpF)
  /-- CMPPI (R106): Compares a pointer with a signed 12-bit immediate. -/
  | cmppi (b : Fin 16) (f : AddpF)
  /-- MOVI (R104): Loads an 8-bit immediate. -/
  | movi (b : Fin 16) (f : AluI)
  /-- ADDI (R104): Adds an 8-bit immediate. -/
  | addi (b : Fin 16) (f : AluI)
  /-- SUBI (R104): Subtracts an 8-bit immediate. -/
  | subi (b : Fin 16) (f : AluI)
  /-- ANDI (R104): Ands an 8-bit immediate. -/
  | andi (b : Fin 16) (f : AluI)
  /-- ORI (R104): Ors an 8-bit immediate. -/
  | ori (b : Fin 16) (f : AluI)
  /-- XORI (R104): Exclusive-ors an 8-bit immediate. -/
  | xori (b : Fin 16) (f : AluI)
  /-- CMPI (R104): Compares with an 8-bit immediate. -/
  | cmpi (b : Fin 16) (f : AluI)
  /-- ADCI (R104): Adds an 8-bit immediate with carry. -/
  | adci (b : Fin 16) (f : AluI)
  /-- LDB (R107): Loads a byte through a window at a pointer address, with optional pointer update. -/
  | ldb (b : Fin 16) (f : MemF)
  /-- STB (R107): Stores a byte through a window at a pointer address, with optional pointer update. -/
  | stb (b : Fin 16) (f : MemF)
  /-- XCHG (R108): Atomically exchanges a register with a memory byte. -/
  | xchg (b : Fin 16) (f : AtomF)
  /-- CAS (R108): Atomically compares and swaps a memory byte, setting T. -/
  | cas (b : Fin 16) (f : AtomF)
  /-- LDADD (R108): Atomically adds to a memory byte and returns the old value. -/
  | ldadd (b : Fin 16) (f : AtomF)
  /-- TSET (R108): Atomically tests and sets a memory bit. -/
  | tset (b : Fin 16) (f : AtomF)
  /-- TCLR (R108): Atomically tests and clears a memory bit. -/
  | tclr (b : Fin 16) (f : AtomF)
  /-- BR (R109): Branches relatively when its condition holds. -/
  | br (b : Fin 16) (f : BrF)
  /-- JMP (R110): Jumps to an absolute target. -/
  | jmp (b : Fin 16) (f : JmpF)
  /-- CALL (R110): Saves the return address in P6 and jumps. -/
  | call (b : Fin 16) (f : JmpF)
  /-- NOP (R111): Does nothing. -/
  | nop (b : Fin 16) (opd : BitVec 12)
  /-- YIELD (R111): Sets the burner's yield mark. -/
  | yield (b : Fin 16) (opd : BitVec 12)
  /-- WAIT (R79): Completes if its channel bit is set, otherwise puts the burner in WAIT. -/
  | wait (b : Fin 16) (opd : BitVec 12)
  /-- WAITA (R79): Waits in WAIT for any wake-pending bit. -/
  | waita (b : Fin 16) (opd : BitVec 12)
  /-- SLEEP (R80): Completes if its channel bit is set, otherwise puts the burner in SLEEP, counting toward Rest. -/
  | sleep (b : Fin 16) (opd : BitVec 12)
  /-- SLEEPA (R80): Sleeps for any wake-pending bit. -/
  | sleepa (b : Fin 16) (opd : BitVec 12)
  /-- SIG (R111): Sets SIGF and fires the burner's event. -/
  | sig (b : Fin 16) (opd : BitVec 12)
  /-- BRK (R111): Raises the BREAK exception with its code. -/
  | brk (b : Fin 16) (opd : BitVec 12)
  /-- ERET (R88): Returns from an exception, restoring PC and flags and clearing EXC. -/
  | eret (b : Fin 16) (opd : BitVec 12)
  /-- JR (R110): Jumps to the address in a pointer register. -/
  | jr (b : Fin 16) (opd : BitVec 12)
  /-- CALLR (R110): Calls the address in a pointer register. -/
  | callr (b : Fin 16) (opd : BitVec 12)
  /-- RDS (R113): Reads ISAVER, CPRESENT, the burner number or the world into a register. -/
  | rds (b : Fin 16) (opd : BitVec 12)
  /-- MOVF (R111): Copies the flags into a register. -/
  | movf (b : Fin 16) (opd : BitVec 12)
  /-- SETF (R111): Sets the flags from a register. -/
  | setf (b : Fin 16) (opd : BitVec 12)
  /-- SETT (R111): Sets T from a branch condition. -/
  | sett (b : Fin 16) (opd : BitVec 12)
  /-- CRD (R112): Reads a coprocessor register byte into a register. -/
  | crd (b : Fin 16) (f : CrF)
  /-- CWR (R112): Writes a register to a coprocessor register byte. -/
  | cwr (b : Fin 16) (f : CrF)
  /-- CSYNC (R116): Holds the burner until its operations on the coprocessor end and sets T from their outcome. -/
  | csync (b : Fin 16) (f : CsyncF)
  /-- C0_CLR (R117): Clears the accumulator. -/
  | c0Clr (b : Fin 16) (opd : BitVec 10)
  /-- C0_MUL (R117): Signed multiply into the accumulator. -/
  | c0Mul (b : Fin 16) (opd : BitVec 10)
  /-- C0_MAC (R117): Signed multiply-accumulate. -/
  | c0Mac (b : Fin 16) (opd : BitVec 10)
  /-- C0_MSU (R117): Signed multiply-subtract. -/
  | c0Msu (b : Fin 16) (opd : BitVec 10)
  /-- C0_MULU (R117): Unsigned multiply into the accumulator. -/
  | c0Mulu (b : Fin 16) (opd : BitVec 10)
  /-- C0_MACU (R117): Unsigned multiply-accumulate. -/
  | c0Macu (b : Fin 16) (opd : BitVec 10)
  /-- C0_SHRA (R117): Shifts the accumulator right arithmetically. -/
  | c0Shra (b : Fin 16) (opd : BitVec 10)
  /-- C0_SATA (R117): Saturates the accumulator to 16 bits and sets SAT. -/
  | c0Sata (b : Fin 16) (opd : BitVec 10)
  /-- C1_CRCINIT (R118): Sets the CRC state to all ones. -/
  | c1Crcinit (b : Fin 16) (opd : BitVec 10)
  /-- C1_CRCFIN (R118): Inverts the CRC state. -/
  | c1Crcfin (b : Fin 16) (opd : BitVec 10)
  /-- C1_FEED (R118): A CWR to FEED passes a byte through the CRC. -/
  | c1Feed (b : Fin 16) (r : BitVec 4)
  /-- C1_BFX (R118): Extracts a bit field. -/
  | c1Bfx (b : Fin 16) (opd : BitVec 10)
  /-- C1_BFI (R118): Inserts a bit field. -/
  | c1Bfi (b : Fin 16) (opd : BitVec 10)
  /-- C1_BREV (R118): Reverses 32 bits. -/
  | c1Brev (b : Fin 16) (opd : BitVec 10)
  /-- C1_POPC (R118): Counts the 1 bits. -/
  | c1Popc (b : Fin 16) (opd : BitVec 10)
  /-- C3_MADD (R120): Starts a modular addition. -/
  | c3Madd (b : Fin 16) (f : C3F)
  /-- C3_MSUB (R120): Starts a modular subtraction. -/
  | c3Msub (b : Fin 16) (f : C3F)
  /-- C3_MMUL (R120): Starts a modular multiplication. -/
  | c3Mmul (b : Fin 16) (f : C3F)
  /-- C3_MINV (R120): Starts a modular inversion. -/
  | c3Minv (b : Fin 16) (f : C3F)
  /-- C3_PMUL (R120): Starts a P-256 point multiplication. -/
  | c3Pmul (b : Fin 16) (f : C3F)
  /-- C3_PMUL2 (R120): Starts a P-256 double point multiplication. -/
  | c3Pmul2 (b : Fin 16) (f : C3F)
  /-- C3_MRED (R120): Starts a modular reduction. -/
  | c3Mred (b : Fin 16) (f : C3F)
  /-- C3_DONE (R120): A C3 operation ends after its fixed cycle count, writing results or ERR, clearing BUSY and firing event 175. -/
  | c3Done
  /-- WHISK_FIRE (R126): A write of WHISK_FIRE fires each named channel once. -/
  | whiskFire (acc : Fin 18) (set : BitVec 64)
  /-- WHISK_CLRALL (R135): A secure write of WHISK_CTL.CLRALL returns every channel, task entry, flag and counter to reset values. -/
  | whiskClrall (acc : Fin 18)
  /-- PREAMBLE_DETECT (R155): Four consecutive up-chirps on a live lane take a free slot into SYNC or are refused. Those found in one symbol
  period come together: of each its lane, its order, and its signed SNR in 0.25 dB. -/
  | preambleDetect (lanes : List (Fin 8)) (ks : List (BitVec 4)) (snrs : List (BitVec 16))
  /-- FRAME_MARK (R156): Two down-chirps resolve timing and frequency, the slot enters MARK and the LO may be pulled. -/
  | frameMark (lane : Fin 8) (slot : Fin 2) (fofs : BitVec 24)
  /-- NOMARK_TIMEOUT (R156): No frame mark within PREMAX symbols frees the slot and counts LANE_NOMARK. -/
  | nomarkTimeout (lane : Fin 8) (slot : Fin 2)
  /-- NETWORK_MARK (R156): The network mark is matched against MOD_NID, entering HDR with DET or freeing the slot. It comes as the
  slot does so, `ago` fractions of a cycle after the mark's end, which is up to 20 µs. -/
  | networkMark (lane : Fin 8) (slot : Fin 2) (m1 m2 : BitVec 12) (rssi : BitVec 16) (ago : BitVec 7)
  /-- HEADER_DECODE (R156): The 18th header symbol completes the header, entering PAY with HDR or ending with HDRBAD or HDRINV. -/
  | headerDecode (lane : Fin 8) (slot : Fin 2) (shifts : List (BitVec 12))
  /-- PAYLOAD_END (R159): The last payload symbol is decoded and the reception ends GOOD, TAGGED or CRCBAD, delivering or withdrawing the frame. -/
  | payloadEnd (lane : Fin 8) (slot : Fin 2) (shifts : List (BitVec 12))
  /-- LOST_ENTRY (R157): Four consecutive weak payload symbols put the slot in LOST. -/
  | lostEntry (lane : Fin 8) (slot : Fin 2)
  /-- LOST_RECOVER (R156): Two consecutive strong symbols return a LOST slot to PAY. -/
  | lostRecover (lane : Fin 8) (slot : Fin 2)
  /-- LOST_EXPIRE (R157): A LOST slot reaching expected end plus 4 symbols ends with LOST. -/
  | lostExpire (lane : Fin 8) (slot : Fin 2)
  /-- LANE_ABORT (R156): LANE_CTL.ABORT ends the lane's receptions with ABORTSW. -/
  | laneAbort (lane : Fin 8)
  /-- LANE_SRCHON (R154): Task 72 + 2n or a write sets SRCH of lane n. -/
  | laneSrchon (lane : Fin 8)
  /-- LANE_SRCHOFF (R154): Task 73 + 2n or a write clears SRCH of lane n. -/
  | laneSrchoff (lane : Fin 8)
  /-- LANE_PARITY_ERROR (R172): An internal parity error ends the struck reception with INTERR and counts LANE_INTERR. -/
  | laneParityError (lane : Fin 8) (slot : Fin 2)
  /-- INTERR_WINDOW (R172): A 60 s window ends and a lane with parity errors in 4 consecutive windows is retired. -/
  | interrWindow
  /-- LANE_RETIRE (R172): A write of 1 to a MOD_RET bit retires the lane, ending its receptions. -/
  | laneRetire (lanes : BitVec 8)
  /-- MODEM_TX_END (R165): The last payload symbol of a transmission ends and the modem signals the front end to ramp down. -/
  | modemTxEnd
  /-- FE_STBY_READY (R186): 10 us after EN, XORDY and no retirement hold, the front end enters STBY. -/
  | feStbyReady
  /-- FE_RXREQ (R185): FE_CMD.RXREQ or task 64 sets the standing RX request. -/
  | feRxreq
  /-- FE_RXREL (R185): FE_CMD.RXREL or task 65 clears the RX request. -/
  | feRxrel
  /-- FE_RETUNE (R197): FE_CMD.RETUNE takes RX to SYNTH, applying a waiting commit. -/
  | feRetune
  /-- FE_CAL (R188): FE_CMD.CAL or task 66 starts the selected calibrations from STBY. -/
  | feCal
  /-- FE_ABORTTX (R186): FE_CMD.ABORTTX or task 67 ramps a transmission down at once. -/
  | feAborttx
  /-- SYNTH_LOCK (R186): The synthesiser locks, event 89 fires and the front end goes to DC calibration or RAMPUP. -/
  | synthLock
  /-- SYNTH_LOCK_TIMEOUT (R177): No lock after 200 us triggers VCO recalibration and retry, or after a second failure returns to STBY with LOCKFAIL. -/
  | synthLockTimeout
  /-- DC_CAL_END (R181): The 8 us DC calibration ends, DCOK sets and the front end enters RX. -/
  | dcCalEnd (daci dacq : BitVec 8)
  /-- LOCK_LOSS (R178): Loss of lock in RX, RAMPUP or TX relocks or ramps down and aborts the frame. -/
  | lockLoss
  /-- AGC_PERIOD (R180): At the end of each 16 us period the AGC moves one gain entry as the peak requires. -/
  | agcPeriod (peak : BitVec 8)
  /-- TX_ADMIT (R190): A MAC TX request is checked for admission, reserving its charge and leaving RX, or refused with a reason. -/
  | txAdmit
  /-- RAMPUP_END (R186): The up-ramp completes, the front end enters TX and the preamble starts. -/
  | rampupEnd (rl : BitVec 8)
  /-- REFL_MEASURE (R184): The return loss is measured at end of RAMPUP and every 1 ms, a trip firing event 93 and optionally aborting. -/
  | reflMeasure (rl : BitVec 8)
  /-- RAMPDN_END (R186): The down-ramp ends, the actual charge replaces the reservation, event 91 fires and the front end goes to RX or STBY. -/
  | rampdnEnd (air : BitVec 32)
  /-- CAL_END (R188): The selected calibrations complete, event 92 fires and the front end returns to STBY. -/
  | calEnd
  /-- BUCKET_BOUNDARY (R192): A sub-band airtime bucket ends, the window moves on and exhausted bits clear when room returns. -/
  | bucketBoundary (sb : Fin 8)
  /-- CHAN_WINDOW (R196): A channel window closes, shifting HIST and retiring entries with 12 of 16 bad windows. -/
  | chanWindow
  /-- CHRET_REINSTATE (R196): A write of 1 to an FE_CHRET bit reinstates the channel and clears its statistics. -/
  | chretReinstate (set : BitVec 16)
  /-- CP_ENABLE (R218): CP_CTL.EN or task 88 takes an OFF port to QUIET or LISTEN by role. -/
  | cpEnable (p : Fin 2)
  /-- TRAIN_START (R218): A leader in QUIET with no far-end energy for 2 ms and the retry wait over starts training. -/
  | trainStart (p : Fin 2)
  /-- INFO_BLOCK_RX (R213): A received INFO block with a good CRC drives the training exchange. -/
  | infoBlockRx (p : Fin 2) (blk : LineBlock)
  /-- TRAIN_STAGE_END (R212): A training stage completes and the port enters the next stage or DATA. -/
  | trainStageEnd (p : Fin 2) (snr : BitVec 8) (lock : Bool) (us : BitVec 32)
  /-- TRAIN_TIMEOUT (R219): No valid INFO block or follower signal within 1 ms fails the training with TIMEOUT. -/
  | trainTimeout (p : Fin 2)
  /-- WARM_TIMEOUT (R216): A warm-starting leader with no follower INFO block within 5 ms falls silent and starts a cold S1. -/
  | warmTimeout (p : Fin 2)
  /-- SILENCE_END (R218): A port that fell silent for 4 ms takes the action of its next state. -/
  | silenceEnd (p : Fin 2)
  /-- BLOCK_LOCK (R208): 64 consecutive valid headers at one alignment give block lock. -/
  | blockLock (p : Fin 2)
  /-- BLOCK_LOCK_LOSS (R208): 16 invalid blocks in 64 lose block lock, counting as loss of signal. -/
  | blockLockLoss (p : Fin 2)
  /-- CP_LOS (R218): Received energy below threshold for 64 symbols takes the link down, fires LOS and counts CP_LOSCNT. -/
  | cpLos (p : Fin 2)
  /-- CP_FRAME_START (R209): A START block begins a received column frame, whose bytes pass to forwarding for possible cut-through. -/
  | cpFrameStart (p : Fin 2) (blks : List LineBlock)
  /-- CP_FRAME_END (R210): A received column frame ends by TERMn, ABORT, invalid block, overlength or link loss and is taken or discarded. -/
  | cpFrameEnd (p : Fin 2) (e : CpEnding)
  /-- CP_TX_END (R210): A transmitted column frame ends with TERMn or with ABORT on underrun or bad source. -/
  | cpTxEnd (p : Fin 2) (e : CpTxEnding)
  /-- CP_ERR_WINDOW (R221): The per-second error count restarts, ERR having fired at threshold with optional retrain. -/
  | cpErrWindow (p : Fin 2)
  /-- CP_REINST (R220): CP_CMD.REINST reinstates a port retired by failures and empties the record. -/
  | cpReinst (p : Fin 2)
  /-- CP_DOWN (R218): CP_CMD.DOWN takes the link down. -/
  | cpDown (p : Fin 2)
  /-- CP_RETRAIN (R218): CP_CMD.RETRAIN or task 90 takes the link down and trains again, applying a waiting commit. -/
  | cpRetrain (p : Fin 2)
  /-- CP_REFL (R223): CP_CMD.REFL or task 91 captures the reflection profile in DATA or starts PROBE. -/
  | cpRefl (p : Fin 2) (taps : List (BitVec 16))
  /-- CP_SNAP (R217): CP_CMD.SNAP in DATA writes a snapshot. -/
  | cpSnap (p : Fin 2)
  /-- PROBE_END (R223): After 20 ms of PROBE the echo taps are captured, the fault located and the port returns to QUIET or LISTEN. -/
  | probeEnd (p : Fin 2) (taps : List (BitVec 16))
  /-- MAC_RX_FRAME (R236): A received frame passes format, filter, context, MIC, replay and buffer steps and is delivered, re-acked or dropped. -/
  | macRxFrame
  /-- MAC_ACK_RX (R249): An ack ending GOOD on the matching lane with the frame's counter acknowledges the waiting frame. -/
  | macAckRx
  /-- ACK_TX_START (R242): At T + 200 us after an owed frame the auto-ack starts, or is abandoned. -/
  | ackTxStart
  /-- MAC_CCA (R247): The channel is assessed over 2T before the planned preamble, busy counting and backing off. -/
  | macCca (pwr : BitVec 16) (left : Bool)
  /-- MAC_TX_ATTEMPT (R248): A frame attempt starts after a clear assessment. -/
  | macTxAttempt
  /-- MAC_ACK_TIMEOUT (R249): The ack wait of 15T + 200 us ends without an ack, counting MAC_NOACK and backing off or failing. -/
  | macAckTimeout
  /-- MAC_BACKOFF_END (R248): A backoff delay ends and the frame's next assessment begins. -/
  | macBackoffEnd (num : BitVec 8)
  /-- PEND_HOLD_END (R250): The PWIN hold of the RX request after a PEND ack ends. -/
  | pendHoldEnd
  /-- WAKE_LEAD (R254): LEAD us before a wake window, event 144 fires and the MAC sets the RX request. -/
  | wakeLead (k : Fin 32)
  /-- WINDOW_OPEN (R253): A wake window opens at its instant minus the guard, or is skipped in Rest. -/
  | windowOpen (k : Fin 32)
  /-- WINDOW_CLOSE (R253): A wake window closes, firing event 145 if no DET came. -/
  | windowClose (k : Fin 32)
  /-- PEER_SLOT (R285): A scheduled peer's listen instant releases its oldest held frame and fires event 146. -/
  | peerSlot (c : Fin 512)
  /-- SLOT_MISS (R285): A released frame not started by the instant plus LEN returns to the hold list. -/
  | slotMiss (c : Fin 512)
  /-- BEACON_SLOT (R257): A concentrator's beacon instant sends a beacon at rank 2 or skips it. -/
  | beaconSlot
  /-- BEACON_SKIP_TASK (R257): Task 100 skips the next beacon instant. -/
  | beaconSkipTask
  /-- FWD_REFILL (R288): Every REFILL period the engine applies a commit, refills buckets and credits and checks ages. -/
  | fwdRefill
  /-- GATE_ENTRY_END (R282): A gate-list entry's duration ends, the next entry begins and at cycle end event 157 fires. -/
  | gateEntryEnd (p : Fin 5)
  /-- FWD_EGRESS_SELECT (R284): When a port can start a frame the engine picks the highest eligible class head whose lid and budget fit. -/
  | fwdEgressSelect (p : Fin 5)
  /-- FWD_CTX_READ (R270): FWD_CTXCMD READ copies a context into FWD_CTXBUF. -/
  | fwdCtxRead (c : BitVec 9)
  /-- FWD_CTX_WRITE (R270): FWD_CTXCMD WRITE copies masked groups of FWD_CTXBUF into a context, or is refused. -/
  | fwdCtxWrite (c : BitVec 9)
  /-- FWD_CTX_CLEAR (R270): FWD_CTXCMD CLEAR zeroes a context. -/
  | fwdCtxClear (c : BitVec 9)
  /-- FWD_TDATA_READ (R291): A read of FWD_TDATA's lowest unit latches the addressed table entry. -/
  | fwdTdataRead (acc : Fin 18) (w : Width)
  /-- FWD_TDATA_WRITE (R291): A write of FWD_TDATA's highest unit writes the table entry and increments INDEX, or is refused. -/
  | fwdTdataWrite (v : BitVec 64)
  /-- FWD_LRXPOP (R292): FWD_LRXPOP releases the presented local frame and presents the next. -/
  | fwdLrxpop
  /-- FWD_ALLOC (R293): A write of FWD_ALLOC requests cells and a frame number, the grant appearing in FWD_ALLOCRES. -/
  | fwdAlloc (len : BitVec 11)
  /-- FWD_SUBMIT (R293): A write of FWD_SUBMIT's highest unit enters the allocated frame into the forwarding decision. -/
  | fwdSubmit (v : BitVec 48)
  /-- FWD_FREE (R293): A write of FWD_FREE returns an allocated frame unsent. -/
  | fwdFree (n : BitVec 8)
  /-- CIPH_CTR (R305): C2 command CTR processes data in counter mode. -/
  | ciphCtr (b : Fin 16) (opd : BitVec 10)
  /-- CIPH_CCMENC (R305): C2 command CCMENC encrypts and authenticates, producing a tag. -/
  | ciphCcmenc (b : Fin 16) (opd : BitVec 10)
  /-- CIPH_CCMDEC (R308): C2 command CCMDEC decrypts and checks the tag, hiding output until checked. -/
  | ciphCcmdec (b : Fin 16) (opd : BitVec 10)
  /-- CIPH_CMACGEN (R305): C2 command CMACGEN computes a CMAC tag. -/
  | ciphCmacgen (b : Fin 16) (opd : BitVec 10)
  /-- CIPH_CMACVER (R305): C2 command CMACVER verifies a CMAC tag. -/
  | ciphCmacver (b : Fin 16) (opd : BitVec 10)
  /-- CIPH_CBCMAC (R305): C2 command CBCMAC computes a CBC-MAC with zero IV. -/
  | ciphCbcmac (b : Fin 16) (opd : BitVec 10)
  /-- CIPH_IMPORT (R312): C2 command IMPORT unwraps a key and attributes into an empty slot. -/
  | ciphImport (b : Fin 16) (opd : BitVec 10)
  /-- CIPH_GEN (R313): C2 command GEN fills an empty slot with a random key. -/
  | ciphGen (b : Fin 16) (opd : BitVec 10)
  /-- CIPH_PERSIST (R314): C2 command PERSIST appends the slot's wrapped record to the Larder area. -/
  | ciphPersist (b : Fin 16) (opd : BitVec 10)
  /-- CIPH_ERASE (R305): C2 command ERASE zeroes a slot and writes a tombstone if persisted. -/
  | ciphErase (b : Fin 16) (opd : BitVec 10)
  /-- CIPH_NARROW (R311): C2 command NARROW replaces a slot's attributes with narrower ones. -/
  | ciphNarrow (b : Fin 16) (opd : BitVec 10)
  /-- CIPH_SETK0 (R318): C2 command SETK0 sets a context's TXK to 0, optionally restarting counters. -/
  | ciphSetk0 (b : Fin 16) (opd : BitVec 10)
  /-- CIPH_SETK1 (R318): C2 command SETK1 sets a context's TXK to 1, optionally restarting counters. -/
  | ciphSetk1 (b : Fin 16) (opd : BitVec 10)
  /-- CIPH_RETIRE (R318): C2 command RETIRE clears the context's unused key reference and optionally empties the slot. -/
  | ciphRetire (b : Fin 16) (opd : BitVec 10)
  /-- CIPH_DONE (R306): A C2 command ends, clearing BUSY and firing event 168, and 169 on error or abort. -/
  | ciphDone
  /-- LARDER_ALARM (R316): An enabled alarm cause zeroes ALMERASE slots, destroys the latch, aborts operations and starts record erasure. -/
  | larderAlarm (cause : Fin 7)
  /-- LAR_ERASED (R316): The erasure of the Larder records ends, ERASING clears and event 172 fires. -/
  | larErased
  /-- FL_PROG (R332): Flash command PROG programs the next page of a main block from SRAM. -/
  | flProg (acc : Fin 18)
  /-- FL_ERASE (R337): Flash command ERASE erases a main block under the journal. -/
  | flErase (acc : Fin 18)
  /-- FL_WPROG (R333): Flash command WPROG programs an erased fine word. -/
  | flWprog (acc : Fin 18)
  /-- FL_SERASE (R337): Flash command SERASE erases a fine sector under the journal. -/
  | flSerase (acc : Fin 18)
  /-- FL_RDMETA (R331): Flash command RDMETA copies a page's corrected metadata to FL_RMETA. -/
  | flRdmeta (acc : Fin 18)
  /-- FL_FINDNEXT (R332): Flash command FINDNEXT writes a block's next programmable page to FL_NEXT. -/
  | flFindnext (acc : Fin 18)
  /-- FL_RETIRE_UNIT (R338): Flash command RETIRE retires a block or sector and writes a Retire word. -/
  | flRetireUnit (acc : Fin 18)
  /-- FL_PROG_END (R340): A page or word program ends, passing its verify or retiring the unit. -/
  | flProgEnd (ok : Bool)
  /-- FL_COMPACT_END (R337): Journal compaction completes with the new header and the erase goes on to its Start stamp. -/
  | flCompactEnd
  /-- FL_STAMP_END (R340): A Start, Complete or Retire word is programmed and the controller moves to ERASE or IDLE. -/
  | flStampEnd
  /-- FL_ERASE_PULSE (R337): An erase pulse and its verify end, completing, continuing or retiring the unit. -/
  | flErasePulse (pass : Bool)
  /-- FL_SUSPEND (R329): An erase suspends at the end of its slice while a read of its array waits. -/
  | flSuspend
  /-- FL_RESUME (R329): A suspended erase resumes when no read of its array waits. -/
  | flResume
  /-- PATH_TO_VBAT (R345): VMAIN falls below 2.80 V and the power path moves to VBAT, firing event 5. -/
  | pathToVbat
  /-- PATH_TO_VMAIN (R345): VMAIN rises to 2.95 V and the power path returns to VMAIN, firing event 6. -/
  | pathToVmain
  /-- BROWNOUT (R346): The active supply below 1.9 V for 2 us resets the always-on domain. -/
  | brownout
  /-- NVI_LOW (R347): The active supply falls below VNVI, inhibiting NV writes and firing event 7. -/
  | nviLow
  /-- NVI_OK (R347): The active supply rises above VNVI + 50 mV and event 8 fires. -/
  | nviOk
  /-- VBAT_LOW (R349): VBAT crosses below its warning level and event 9 fires. -/
  | vbatLow
  /-- VDDIO_LOW (R349): VDDIO crosses below 1.65 V and event 15 fires. -/
  | vddioLow
  /-- TEMP_SAMPLE (R349): The die sensor takes its periodic sample, firing event 14 at a threshold crossing. -/
  | tempSample (v : BitVec 16)
  /-- NRST_ASSERT (R350): NRST low for at least 1 us resets the core domain. -/
  | nrstAssert
  /-- NRST_LONG (R350): NRST held low for 100 ms resets the always-on domain. -/
  | nrstLong
  /-- SW_RESET_AON (R350): PWR_RST.AON with KEY Ah resets the always-on domain. -/
  | swResetAon (acc : Fin 18)
  /-- SW_RESET_CORE (R350): PWR_RST.CORE with KEY Ah resets the core domain. -/
  | swResetCore (acc : Fin 18)
  /-- VCORE_FAULT (R350): VCORE below 0.95 V for 1 us outside Rest resets the core domain. -/
  | vcoreFault
  /-- VBK_LOSS (R350): VBK below 1.45 V for 2 us resets the backup domain. -/
  | vbkLoss
  /-- VBK_PRESENT (R350): VBK rises above its threshold and the backup domain leaves reset. -/
  | vbkPresent
  /-- RESET_RELEASE (R353): A reset is released and the device starts up, boot ROM running its stages. -/
  | resetRelease (r : Release)
  /-- RECOVERY_PART (R358): In HOLD a recovery record part is collected, and with all parts a signed record is checked and written. -/
  | recoveryPart (frame : List Byte)
  /-- WDT_KICK (R352): A write of C3h to PWR_WDTKICK restarts the watchdog count. -/
  | wdtKick
  /-- WDT_BADKICK (R352): A write of any other value to PWR_WDTKICK expires the watchdog at once. -/
  | wdtBadkick
  /-- WDT_EXPIRE (R352): The watchdog count expires, resetting the core domain and counting PWR_WDTEXP. -/
  | wdtExpire
  /-- REST_ATTEMPT (R361): When Rest conditions hold the controller refuses on a refuser or begins closing. -/
  | restAttempt
  /-- REST_ISOLATION (R362): After 128 closing cycles the core clock stops and the core domain is isolated, blocks taking their Rest-entry actions. -/
  | restIsolation
  /-- REST_POWERDOWN (R362): 4 us after isolation the buck stops and unretained memories lose power. -/
  | restPowerdown
  /-- REST_WAKE (R364): A wake cause starts Rest exit and the buck restarts. -/
  | restWake
  /-- REST_EXIT_DONE (R365): Burner state is restored and the woken burner issues its first word, firing event 10. -/
  | restExitDone (temp : BitVec 16)
  /-- SECOND_BOUNDARY (R368): SUB wraps, the calendar and RTC_SECCNT advance, event 40 fires and alarms are checked. -/
  | secondBoundary
  /-- XK_READY (R369): XK32 reaches stable oscillation, XKRDY sets and counting resumes. -/
  | xkReady
  /-- XK_STOP (R369): The crystal stops for over 1 ms, setting OSCFAIL and clearing XKRDY and TIMEVALID. -/
  | xkStop
  /-- RTC_WRITE_APPLY (R372): At the next XK32 cycle a pending RTC write or task is applied. -/
  | rtcWriteApply
  /-- RTC_WAKE (R379): The periodic-wake divider reaches N steps and event 43 fires. -/
  | rtcWake
  /-- COMP_WINDOW (R381): A compensation window ends, event 47 fires and a new correction C is fixed. -/
  | compWindow
  /-- PWRON_RELEASE (R383): At the HOLD-th second boundary after setting, PWRON's latch clears. -/
  | pwronRelease
  /-- TAMPER_TRIP (R384): A tamper input held at its level for the filter time trips, time-stamping, killing the latch or wiping bytes as set. -/
  | tamperTrip (n : Fin 2)
  /-- TMR_START (R392): TMR_CTL.START or task 24 + 3n runs the timer. -/
  | tmrStart (n : Fin 8)
  /-- TMR_STOP (R392): TMR_CTL.STOP stops the timer. -/
  | tmrStop (n : Fin 8)
  /-- TMR_CLEAR (R392): TMR_CTL.CLEAR zeroes the count and applies preloads. -/
  | tmrClear (n : Fin 8)
  /-- TMR_GSTART (R392): TMR_GSTART starts every named timer in one cycle. -/
  | tmrGstart (set : BitVec 8)
  /-- TMR_GSTOP (R392): TMR_GSTOP stops every named timer in one cycle. -/
  | tmrGstop (set : BitVec 8)
  /-- TIMER_MATCH (R390): A timer increment reaches or passes CMP, setting CMPF, firing its event and auto-adding. -/
  | timerMatch (n : Fin 8)
  /-- TIMER_WRAP (R391): A timer passes TOP and wraps, copying preloads and clocking a cascaded high timer. -/
  | timerWrap (n : Fin 8)
  /-- ONESHOT_END (R390): A one-shot reaches TOP, stops, sets ENDF and fires its event. -/
  | oneshotEnd (n : Fin 8)
  /-- TIMER_CAPTURE (R394): A pin edge or task copies the count into a capture register and fires its event. -/
  | timerCapture (n : Fin 8) (t : CapTrig)
  /-- CAPTURE_READ (R395): A read of a capture register's lowest unit clears CAPNEW. -/
  | captureRead (acc : Fin 18) (n : Fin 8) (b : Bool) (w : Width)
  /-- LIO_ENABLE (R351): The first write of LIO_CTL.EN = 1 after a reset ends the LAMPSAFE drive of DIM outputs. -/
  | lioEnable
  /-- DIM_PERIOD (R397): A dimming period starts, channels go active for h_k and the lantern I/O commit boundary occurs. -/
  | dimPeriod
  /-- DIM_CLOCK_LOSS (R396): The dimming clock is lost, CLKLOSS sets and DIM outputs go to LAMPSAFE. -/
  | dimClockLoss
  /-- RLY_REQUEST (R399): LIO_RLYCMD or tasks 50 to 53 request a relay level, replacing a pending request. -/
  | rlyRequest (val lvl : BitVec 2)
  /-- RLY_DRIVE (R400): At the drive instant the relay output changes and PEND sets. -/
  | rlyDrive (n : Fin 2)
  /-- RLY_CONTACT (R400): At the contact instant PEND clears, LEVEL updates and event 81 fires. -/
  | rlyContact (n : Fin 2)
  /-- RLY_NOANGLE_DONE (R400): DELAY us after a switch without an angle, event 81 fires. -/
  | rlyNoangleDone (n : Fin 2)
  /-- ADC_SET_START (R401): A trigger starts a set of conversions, or is ignored and counts ADC_OVR. -/
  | adcSetStart
  /-- ADC_CONVERSION_END (R401): A 1 ms conversion ends, updating LIO_ADCc and thresholds, and at the set's end event 83 fires. -/
  | adcConversionEnd (v : BitVec 16)
  /-- TRF_ARRIVAL (R403): A filtered occupied level on CNTn is accepted as an arrival, binning the gap and firing event 72 + n. -/
  | trfArrival (n : Fin 4)
  /-- TRF_DEPARTURE (R403): A filtered free level on CNTn is accepted as a departure, binning the occupancy and firing event 76 + n. -/
  | trfDeparture (n : Fin 4)
  /-- TRF_STUCK (R403): An occupancy reaching 65,535 u sets STUCKn and counts TRF_STUCKS. -/
  | trfStuck (n : Fin 4)
  /-- TRF_SNAP (R404): TRF_CMD.SNAP or task 49 copies and clears all bins at the next XK32 cycle and stamps TRF_SNAPTS. -/
  | trfSnap
  /-- HOST_WRITE (R413): A native write frame writes its data words to consecutive window words. -/
  | hostWrite (f : HostFrame)
  /-- HOST_READ (R413): A native read frame returns the status word then prefetched window words. -/
  | hostRead (f : HostFrame)
  /-- HOST_STATUS_READ (R413): A native status-read frame returns the status word in every slot. -/
  | hostStatusRead (f : HostFrame)
  /-- HOST_BCAST_WRITE (R412): A broadcast write frame is taken by every selected device regardless of SUB. -/
  | hostBcastWrite (f : HostFrame)
  /-- HOST_FRAME_TIMEOUT (R417): HSEL low with no HSCK edge for 1 ms ends the frame and counts HP_TIMEOUTS. -/
  | hostFrameTimeout (op : BitVec 2) (f : HostFrame)
  /-- HP_MBSET (R424): A burner write of HP_MBSET marks outbound mailboxes full. -/
  | hpMbset (v : BitVec 8)
  /-- COMPAT_NOP (R426): A compatibility frame with CMD 0h does nothing but carry the reply. -/
  | compatNop (f : CompatFrame)
  /-- COMPAT_WRITE (R426): A compatibility frame with CMD 1h writes two window words. -/
  | compatWrite (f : CompatFrame)
  /-- COMPAT_READ (R426): A compatibility frame with CMD 2h reads two window words for the next reply. -/
  | compatRead (f : CompatFrame)
  /-- COMPAT_WRITE1 (R426): A compatibility frame with CMD 3h writes one window word. -/
  | compatWrite1 (f : CompatFrame)
  /-- COMPAT_BCAST (R426): A compatibility frame with CMD 4h broadcasts a two-word write. -/
  | compatBcast (f : CompatFrame)
  /-- HP_MASTER_GO (R429): HP_MCTL.GO or task 120 starts a master transfer. -/
  | hpMasterGo
  /-- HP_MASTER_ABORT (R430): HP_MCTL.ABORT ends a master transfer without a fault. -/
  | hpMasterAbort (rx : List Byte)
  /-- MASTER_DONE (R429): A master transfer ends, MDONE sets and event 184 fires. -/
  | masterDone (rx : List Byte)
  /-- SELECT_FAULT (R430): HSEL falls while mastering, releasing the lines and firing event 187. -/
  | selectFault (rx : List Byte)
  /-- UPD_OPEN (R447): UPD_CMD.OPEN starts a campaign or is refused. -/
  | updOpen (acc : Fin 18)
  /-- UPD_MORSEL (R448): UPD_CMD.MORSEL submits a morsel, accepted into a page buffer or refused with MCODE. -/
  | updMorsel (acc : Fin 18)
  /-- UPD_FLUSH (R449): UPD_CMD.FLUSH or task 124 programs a page buffer into the log. -/
  | updFlush (acc : Fin 18)
  /-- MORSEL_RECORDED (R450): After a log page is programmed the bitmap word is programmed, UPD_RXCNT increments and event 188 fires. -/
  | morselRecorded (ok : Bool)
  /-- UPD_INSTALL (R451): UPD_CMD.INSTALL starts an install into the inactive slot or is refused. -/
  | updInstall (acc : Fin 18) (vbat : BitVec 16)
  /-- INSTALL_END (R452): An install finishes programming, writes TRY and fires event 189. -/
  | installEnd (e : InstallEnding)
  /-- UPD_CONFIRM (R445): UPD_CMD.CONFIRM blows anti-rollback fuses and writes CONFIRM. -/
  | updConfirm (acc : Fin 18)
  /-- UPD_REVERT (R445): UPD_CMD.REVERT writes REVERT for a pending trial. -/
  | updRevert (acc : Fin 18)
  /-- UPD_CLEAR (R447): UPD_CMD.CLEAR starts erasing the log and bitmap. -/
  | updClear (acc : Fin 18)
  /-- UPD_CLEAR_END (R447): The log and bitmap erasure ends and the campaign closes. -/
  | updClearEnd
  /-- UPD_LOCKCMD (R454): UPD_CMD.LOCKCMD verifies a signed lock command and writes LOCK or UNLOCK. -/
  | updLockcmd (acc : Fin 18)
  /-- TRIAL_PERIOD (R444): A trial period ends, LEFT decrements and at 0 the core domain is reset for revert. -/
  | trialPeriod
  /-- BIST_GO (R458): BIST_CTL.GO or task 125 starts a self-test pass at once. -/
  | bistGo (busy : BitVec 19)
  /-- BIST_PASS (R458): PER ms after the last pass a self-test pass starts, offering slices and one memory segment. -/
  | bistPass (busy : BitVec 19)
  /-- BIST_SLICE_END (R459): A slice ends, comparing its MISR, repeating or retiring the partition and firing event 190. -/
  | bistSliceEnd (ok : Bool) (busy : BitVec 19)
  /-- MEM_SEGMENT_END (R461): A transparent March test of one SRAM segment ends, retiring the bank on failure. -/
  | memSegmentEnd (ok : Bool)
  /-- DBG_READ (R463): A debug read transaction is checked and performed, answering DONE, BUSY, REFUSED or CRCERR. -/
  | dbgRead (hdr : BitVec 8) (addr : BitVec 24) (rcrc : BitVec 8) (done : Bool)
  /-- DBG_WRITE (R463): A debug write transaction is checked and performed, answering with its status. -/
  | dbgWrite (hdr : BitVec 8) (addr : BitVec 24) (wdata : BitVec 32) (rcrc : BitVec 8) (done : Bool)
  /-- DBG_RESYNC (R463): A 20 us pause with DBGC low abandons a partial transaction. -/
  | dbgResync
  /-- DBG_AUTH (R465): DBG_CTL.AUTH checks the response CMAC and raises the level or counts a failure with lockout. -/
  | dbgAuth (reqlvl : BitVec 2)
  /-- DBG_NEWCHAL (R465): DBG_CTL.NEWCHAL draws a new challenge. -/
  | dbgNewchal
  /-- DBG_DROP (R465): DBG_CTL.DROP returns the debug level to 0. -/
  | dbgDrop (acc : Fin 18)
  /-- DBG_CORERST (R466): DBG_CTL.CORERST at level 1 or above resets the core domain. -/
  | dbgCorerst
  /-- DBG_LOCKOUT_END (R465): The authentication lockout time runs out. -/
  | dbgLockoutEnd
  /-- GATE_FIRST_CYCLE_START (R290): Network time first reaches a port's GBASE, cycle 0 of the gate list starts, GAP clears and classes open as entry 0's MASK gives. -/
  | gateFirstCycleStart (p : Fin 5)
  /-- LISTEN_ALTERNATE_BAUD (R214): A follower in LISTEN with FALLBACK = 1 switches the baud it listens at after each 8 ms. -/
  | listenAlternateBaud (p : Fin 2)
  /-- FAR_END_ENERGY (R218): Far-end energy detected on a leader port in QUIET restarts its 2 ms wait. -/
  | farEndEnergy (p : Fin 2)
  /-- VBAT_WARNING_REARM (R349): VBAT rises above its warning level plus hysteresis, VBATLOW clears and the monitor re-arms. -/
  | vbatRearm
  /-- VDDIO_MONITOR_REARM (R349): VDDIO rises above 1.65 V plus hysteresis, VDDIOLOW clears and the monitor re-arms. -/
  | vddioRearm
  /-- PLL_UNLOCK (R31): The PLL loses lock while the core runs on RC48, and PLLLOCK clears. -/
  | pllUnlock
  deriving DecidableEq, Repr

end Sys2Proof
end

