-- ==== Sys2Proof/Decode.lean ====
section
/-! DEFINITION. Which command a word spells. The bits of spec/opcode_table.json spell none: no row of the table carries bits, since a
command comes from outside. A 24-bit word of the Sweune spells the word command that spec/04_sweune_isa.md gives it (R95, R103, R111,
R112, R117, R118, R120, R305): this is how the words that the core fetches of itself come to be performed. -/

namespace Sys2Proof

/-- No row of the table gives bits, so that no word spells a command. -/
def decodeTableWord (_nbits _w : Nat) : Option Instr := none

/-- n bits of a word from bit lo on. -/
def wordBits (w lo n : Nat) : BitVec n := BitVec.ofNat n (w / 2 ^ lo)

/-- The fields of ALU2. -/
def alu2At (w : Nat) : Alu2 := ⟨wordBits w 8 4, wordBits w 4 4, wordBits w 0 4⟩
/-- The fields of ALUI. -/
def aluIAt (w : Nat) : AluI := ⟨wordBits w 11 4, wordBits w 8 3, wordBits w 0 8⟩
/-- The fields of ADDPI. -/
def addpAt (w : Nat) : AddpF := ⟨wordBits w 15 3, wordBits w 12 1, wordBits w 0 12⟩
/-- The fields of LDP: bit 18, the class's low bit, is the pointer's high one (R106). -/
def ldpAt (w : Nat) : LdpF := ⟨wordBits w 16 3, wordBits w 0 16⟩
/-- The fields of LDB and STB. -/
def memAt (w : Nat) : MemF := ⟨wordBits w 14 4, wordBits w 11 3, wordBits w 9 2, wordBits w 0 9⟩
/-- The fields of ATOM. -/
def atomAt (w : Nat) : AtomF := ⟨wordBits w 11 4, wordBits w 7 4, wordBits w 4 3, wordBits w 3 1, wordBits w 0 3⟩
/-- The fields of BR. -/
def brAt (w : Nat) : BrF := ⟨wordBits w 14 4, wordBits w 0 14⟩
/-- The fields of JMP and CALL. -/
def jmpAt (w : Nat) : JmpF := ⟨wordBits w 16 2, wordBits w 0 16⟩
/-- One half of a clause. -/
def halfAt (w lo : Nat) : ClauseHalf := ⟨wordBits w (lo + 8) 3, wordBits w (lo + 4) 4, wordBits w lo 4⟩
/-- The fields of a clause. -/
def clauseAt (w : Nat) : ClauseF := ⟨wordBits w 22 1, halfAt w 11, halfAt w 0⟩
/-- The fields of a CX to C3. -/
def c3At (w : Nat) : C3F := ⟨wordBits w 8 4, wordBits w 4 4, wordBits w 0 4⟩
/-- The fields of a CRD or CWR. -/
def crAt (w : Nat) : CrF := ⟨wordBits w 15 3, wordBits w 11 4, wordBits w 0 11⟩

/-- The function at a place of a list, on fields. -/
def nth {α : Type} (fs : List (Fin 16 → α → Instr)) (k : Nat) (b : Fin 16) (f : α) : Option Instr := (fs[k]?).map fun g => g b f

/-- The SYS functions 00h to 0Eh (R111). -/
def sysOps : List (Fin 16 → BitVec 12 → Instr) :=
  [.nop, .yield, .wait, .waita, .sleep, .sleepa, .sig, .brk, .eret, .jr, .callr, .rds, .movf, .setf, .sett]

/-- The ALU2 functions 00h to 15h (R105). -/
def alu2Ops : List (Fin 16 → Alu2 → Instr) :=
  [.adc, .sbc, .cmpc, .not, .neg, .inc, .dec, .shl, .shr, .asr, .rol, .ror, .swapn, .btst, .bset, .bclr, .mulu, .movp, .addp,
    .subp, .cmpp, .tst]

/-- The ALUI functions (R104). -/
def aluIOps : List (Fin 16 → AluI → Instr) := [.movi, .addi, .subi, .andi, .ori, .xori, .cmpi, .adci]

/-- The ADDPI functions 00b to 10b (R106). -/
def addpOps : List (Fin 16 → AddpF → Instr) := [.addpi, .addpif, .cmppi]

/-- The ATOM functions 000b to 100b (R108). -/
def atomOps : List (Fin 16 → AtomF → Instr) := [.xchg, .cas, .ldadd, .tset, .tclr]

/-- The functions of C0 (R117). -/
def c0Ops : List (Fin 16 → BitVec 10 → Instr) := [.c0Clr, .c0Mul, .c0Mac, .c0Msu, .c0Mulu, .c0Macu, .c0Shra, .c0Sata]

/-- The functions of C1 (R118). -/
def c1Ops : List (Fin 16 → BitVec 10 → Instr) := [.c1Crcinit, .c1Crcfin, .c1Bfx, .c1Bfi, .c1Brev, .c1Popc]

/-- The functions of C2 (R305). -/
def c2Ops : List (Fin 16 → BitVec 10 → Instr) :=
  [.ciphCtr, .ciphCcmenc, .ciphCcmdec, .ciphCmacgen, .ciphCmacver, .ciphCbcmac, .ciphImport, .ciphGen, .ciphPersist, .ciphErase,
    .ciphNarrow, .ciphSetk0, .ciphSetk1, .ciphRetire]

/-- The functions of C3 (R120). -/
def c3Ops : List (Fin 16 → C3F → Instr) := [.c3Madd, .c3Msub, .c3Mmul, .c3Minv, .c3Pmul, .c3Pmul2, .c3Mred]

/-- A CX by its coprocessor and function (R112). -/
def decodeCx (b : Fin 16) (w : Nat) : Option Instr :=
  let fn := w / 2 ^ 10 % 32
  let opd := wordBits w 0 10
  match w / 2 ^ 15 % 8 with
  | 0 => nth c0Ops fn b opd
  | 1 => nth c1Ops fn b opd
  | 2 => nth c2Ops fn b opd
  | 3 => nth c3Ops (w / 2 ^ 12 % 8) b (c3At w)
  | _ => none

/-- A CWR; that of FEED is the command C1_FEED (R118). -/
def decodeCwr (b : Fin 16) (w : Nat) : Instr :=
  let f := crAt w
  if f.cp = 1 ∧ f.cr = 5 then .c1Feed b f.r else .cwr b f

/-- A long operation by its class (R103, R112). -/
def decodeLong (b : Fin 16) (w : Nat) : Option Instr :=
  match w / 2 ^ 18 % 32 with
  | 0 => nth sysOps (w / 2 ^ 12 % 64) b (wordBits w 0 12)
  | 1 => nth alu2Ops (w / 2 ^ 12 % 64) b (alu2At w)
  | 2 | 3 => some (.ldp b (ldpAt w))
  | 4 => nth aluIOps (w / 2 ^ 15 % 8) b (aluIAt w)
  | 5 => nth addpOps (w / 2 ^ 13 % 4) b (addpAt w)
  | 6 => some (.ldb b (memAt w))
  | 7 => some (.stb b (memAt w))
  | 8 => nth atomOps (w / 2 ^ 15 % 8) b (atomAt w)
  | 9 => some (.br b (brAt w))
  | 10 => some (.jmp b (jmpAt w))
  | 11 => some (.call b (jmpAt w))
  | 28 => decodeCx b w
  | 29 => some (.crd b (crAt w))
  | 30 => some (decodeCwr b w)
  | 31 => some (.csync b ⟨wordBits w 15 3, wordBits w 0 15⟩)
  | _ => none

/-- The command of a 24-bit word that burner b issues; none for a reserved class and for a function that no operation has (R95, R97).
What else makes a word illegal the command's meaning says. -/
def decodeWord (b : Fin 16) (w : Nat) : Option Instr :=
  if w / 2 ^ 23 % 2 = 1 then some (.clause b (clauseAt w)) else decodeLong b w

end Sys2Proof
end

