-- ==== Sys2Proof/Config.lean ====
section
/-! DEFINITION. The free values: what the spec leaves open, as constants without a body. Nothing can evaluate them, so
a statement about them holds for every value. -/

namespace Sys2Proof.Config

/-- A fresh open value: the argument is State.freeSeq, which each use advances. Random draws of the device (challenges,
generated keys, backoff draws) and results that the spec does not state are drawn from here (notes/assumptions/5.md). -/
opaque free : Nat → Nat

/-- A byte of RAM that lost its supply and has not been written since: the first argument counts the losses of its
bank, the second is its address (notes/assumptions/4.md). -/
opaque ramByte : Nat → Nat → BitVec 8

/-- A byte of the boot ROM, whose contents the spec does not give (notes/assumptions/6.md). -/
opaque romByte : Nat → BitVec 8

/-- The device root key, a 256-bit fuse key unique to each device (R311; notes/assumptions/5.md). -/
opaque rootKey : Nat

/-- The Larder wrap key of MODE = 0, derived by CMAC from the device root key in a way the spec does not give (R315;
notes/assumptions/5.md). -/
opaque lwkFused : Nat

/-- The fused EUI-64, the fused LARDER_POLICY.MODE and the DBG_KILL fuse (R16, R315, R353, R467; notes/assumptions/5.md). -/
opaque fuseEui : Nat
opaque fuseLatched : Bool
opaque fuseKilled : Bool

/-- The zero bits in the BCH parity that a page program writes beside its 512 data and 16 metadata bytes, and the SEC-DED check byte
of a fine word: the spec names the codes and prints neither (R324; notes/assumptions/84.md). -/
opaque parityZeros : List (BitVec 8) → Nat → Nat
opaque checkByte : Nat → BitVec 8

/-- The level of the LAMPSAFE ball while a reset of the core domain is asserted, between one draw of a free value and the next: no
command carries it before the release (R351; notes/assumptions/60.md). -/
opaque lampBall : Nat → Bool

/-- The board's matching network serves 410–510 MHz: the factory calibration tables hold the recovery channel of its band (R174, R358;
notes/assumptions/55.md). -/
opaque lowBand : Bool

/-- What drives pin Gn from outside, between one draw of a free value and the next: a level, or nothing (R477; notes/assumptions/5.md). -/
opaque gDrive : Nat → Nat → Option Bool

/-- The fused KEYHASH: the SHA-256 of the image-signing key (R436; notes/assumptions/5.md). -/
opaque keyHash : Nat

end Sys2Proof.Config
end

