-- ==== Sys2Proof/Machine/Bits.lean ====
section
/-! DEFINITION. Plain helpers over numbers and lists: bit fields, two's complement readings, saturation, rounding,
and the sorted association lists that hold the register file and memory. -/

namespace Sys2Proof.Machine

/-- Bits lo to lo + w - 1 of v. -/
def bitsOf (v lo w : Nat) : Nat := v / 2 ^ lo % 2 ^ w

/-- Bit i of v. -/
def bitOf (v i : Nat) : Bool := v.testBit i

/-- v with bits lo to lo + w - 1 replaced by x. -/
def setBits (v lo w x : Nat) : Nat :=
  v % 2 ^ lo + (x % 2 ^ w) * 2 ^ lo + v / 2 ^ (lo + w) * 2 ^ (lo + w)

/-- v with bit i set. -/
def orBit (v i : Nat) : Nat := v ||| (1 <<< i)

/-- v with the bits of m cleared. -/
def clearMask (v m : Nat) : Nat := v - (v &&& m)

/-- A Bool as a bit. -/
def b2n (b : Bool) : Nat := if b then 1 else 0

/-- The two's complement reading of the low w bits of v. -/
def signed (v w : Nat) : Int :=
  if bitOf (v % 2 ^ w) (w - 1) then (v % 2 ^ w : Int) - 2 ^ w else (v % 2 ^ w : Int)

/-- The w low bits of an integer's two's complement form. -/
def ofInt (i : Int) (w : Nat) : Nat := (i % (2 ^ w : Int)).toNat

/-- i held between lo and hi. -/
def clampInt (lo hi i : Int) : Int := if i < lo then lo else if hi < i then hi else i

/-- The nearest whole number to a / b, halves rounded upward. -/
def roundDiv (a b : Nat) : Nat := (2 * a + b) / (2 * b)

/-- a / b rounded upward. -/
def ceilDiv (a b : Nat) : Nat := (a + b - 1) / b

/-- The value listed for a key. -/
def lookup {α : Type} : List (Nat × α) → Nat → Option α
  | [], _ => none
  | (k, v) :: t, a => if k = a then some v else lookup t a

/-- The list with key a holding v, keys kept rising. -/
def insert {α : Type} : List (Nat × α) → Nat → α → List (Nat × α)
  | [], a, v => [(a, v)]
  | (k, x) :: t, a, v =>
    if a < k then (a, v) :: (k, x) :: t
    else if a = k then (a, v) :: t
    else (k, x) :: insert t a v

/-- The list without key a. -/
def erase {α : Type} (l : List (Nat × α)) (a : Nat) : List (Nat × α) := l.filter (fun e => e.1 ≠ a)

/-- The keys rise strictly. -/
def sortedKeys {α : Type} : List (Nat × α) → Bool
  | [] => true
  | [_] => true
  | a :: b :: t => a.1 < b.1 && sortedKeys (b :: t)

/-- The list without the keys from lo to hi - 1. -/
def eraseRange {α : Type} (l : List (Nat × α)) (lo hi : Nat) : List (Nat × α) :=
  l.filter (fun e => e.1 < lo || hi ≤ e.1)

/-- A list read with a default has, at place i, the value v. -/
def setAt {α : Type} (d : α) (l : List α) (i : Nat) (v : α) : List α :=
  if i < l.length then l.set i v else l ++ List.replicate (i - l.length) d ++ [v]

/-- The value at place i of a list read with a default is changed by f. -/
def modAt {α : Type} (d : α) (l : List α) (i : Nat) (f : α → α) : List α := setAt d l i (f (l.getD i d))

/-- A list of bytes as a number, the first byte the least significant (R8). -/
def leNat : List (BitVec 8) → Nat
  | [] => 0
  | b :: t => b.toNat + 256 * leNat t

/-- The n low bytes of v, least significant first (R8). -/
def leBytes : Nat → Nat → List (BitVec 8)
  | 0, _ => []
  | n + 1, v => BitVec.ofNat 8 v :: leBytes n (v / 256)

/-- A list of bytes as numbers. -/
def natBytes (l : List (BitVec 8)) : List Nat := l.map (·.toNat)

/-- A list of numbers as bytes. -/
def toBytes (l : List Nat) : List (BitVec 8) := l.map (BitVec.ofNat 8)

/-- A list of bytes as a number, the first byte the most significant. -/
def beNat (l : List (BitVec 8)) : Nat := l.foldl (fun a b => a * 256 + b.toNat) 0

/-- The n low bytes of v, most significant first. -/
def beBytes (n v : Nat) : List (BitVec 8) := (leBytes n v).reverse

/-- The indices i < n whose bit is set in v. -/
def bitsSet (n v : Nat) : List Nat := (List.range n).filter (fun i => bitOf v i)

/-- How many of the n low bits of v are set. -/
def popCount (n v : Nat) : Nat := (bitsSet n v).length

/-- Phase time a is later than b: (a − b) modulo 2^48 lies from 1 to 2^47 − 1 (R11). -/
def later48 (a b : Nat) : Bool :=
  let d := (a + 2 ^ 48 - b % 2 ^ 48) % 2 ^ 48
  1 ≤ d && d ≤ 2 ^ 47 - 1

/-- An instant lies after one network time and not after another. -/
def between48 (t old new : Nat) : Bool := later48 t old && !later48 t new

/-- An instant has fired already, the last that fired being known: network time passes it a second time (R42, R55). -/
def passed48 (last : Option Nat) (t : Nat) : Bool := last.any fun a => !later48 t a

/-- The network time after which the next instant that fires is looked for: now, or where a step went back the last that fired. -/
def fireFrom (last : Option Nat) (now : Nat) : Nat := (last.filter fun a => later48 a now).getD now

end Sys2Proof.Machine
end

