-- ==== Sys2Proof/Machine/State.lean ====
section
/-! DEFINITION. The state of the block as plain data: the register file, memory, the hidden state of each block, and the
model's own bookkeeping (the queue of waiting commands, the queued tasks, the log of fired events, the free-value
counter); the reasons a step can stop; and the state right after reset. -/

namespace Sys2Proof.Machine

/-- Why a step stops with a fault. No command of this block faults: the spec gives every access outside the address map,
every ill-timed command and every error an outcome of its own (R26, R87 and the fault tables of the chapters), so this
type has no constructor; that no step faults is therefore safe. -/
inductive Fault where
  deriving DecidableEq, Repr

/-- Why a command is refused. -/
inductive Refusal where
  /-- Raised by Dispatch alone, for a command that has no meaning yet; safe, since nothing then follows from the step. -/
  | notModelled (mnemonic : String)
  deriving DecidableEq, Repr

/-- A field of a register: 8 × byte address + lowest bit, width, reset value. -/
structure Fld where
  bit : Nat
  w : Nat
  rst : Nat
  deriving DecidableEq, Repr

/-- The field at bit lo, w bits wide, of the register at a byte address. -/
def Fld.at (addr lo w rst : Nat) : Fld := ⟨8 * addr + lo, w, rst⟩

/-- The staging copy of a staged field, whose active copy stands 800h bytes higher (R17). -/
def Fld.stg (f : Fld) : Fld := ⟨f.bit - 8 * 0x800, f.w, f.rst⟩

/-! ### Accessors -/

/-- A read latch of a block for one accessor: which register it serves and the whole latched value (R40). -/
structure Latch where
  page : Nat
  acc : Nat
  reg : Nat
  val : Nat
  deriving DecidableEq, Repr

/-- A write holding copy of a block for one accessor: the register it serves, the bits collected and which (R40). -/
structure Holding where
  page : Nat
  acc : Nat
  reg : Nat
  val : Nat
  mask : Nat
  deriving DecidableEq, Repr

/-! ### Sweune (spec/03_burners.md, spec/04_sweune_isa.md) -/

/-- A burner's line buffer (R78): PC[15:3] of its words, which of the eight the flash controller could not read, one bit each, and how
many programs and erases had begun or ended when it filled. -/
structure LineBuf where
  tag : Nat
  bad : Nat
  works : Nat
  deriving DecidableEq, Repr

/-- What burner control and the coprocessors hold for one burner beside its registers. -/
structure BurnerX where
  /-- The channel a burner in WAIT or SLEEP awaits; 64 stands for the any form (R79). -/
  await : Nat := 64
  /-- The yield mark (R74). -/
  yield : Bool := false
  /-- The coprocessor a CSYNC holds the burner for (R116). -/
  csync : Option Nat := none
  /-- A STOP that waits for the adverb in flight to end (R81, R114). -/
  stopping : Bool := false
  /-- The line buffer, when it holds words (R78). -/
  line : Option LineBuf := none
  c0x : Nat := 0
  c0y : Nat := 0
  c0a : Nat := 0
  c0stat : Nat := 0
  c1s : Nat := 0
  c1cfg : Nat := 0
  c1src : Nat := 0
  c1res : Nat := 0
  /-- The latest C2 operation of this burner ended with an error or abort (R116). -/
  c2bad : Bool := false
  /-- The latest C3 operation of this burner ended with an error or abort (R116). -/
  c3bad : Bool := false
  deriving DecidableEq, Repr

/-- An adverb as a burner issues it (R112): a CX to C0, C1 or C2 with its function and operand, a CX to C3, a CRD, a CWR, a CSYNC. -/
inductive Adverb where
  | cx (cp fn opd : Nat)
  | big (fn : Nat) (f : C3F)
  | crd (f : CrF)
  | cwr (f : CrF)
  | csync (f : CsyncF)
  deriving DecidableEq, Repr

/-- A C3 operation: function 0 to 6 and its three operands (R120). -/
structure C3Op where
  fn : Nat
  d : Nat
  a : Nat
  b : Nat
  deriving DecidableEq, Repr

/-- The big-number accelerator C3 (R120). -/
structure C3State where
  v : List Nat := List.replicate 16 0
  busy : Bool := false
  err : Bool := false
  abort : Bool := false
  issuer : Nat := 0
  mod : Nat := 0
  op : Option C3Op := none
  /-- An operation that Rest ended, to be reported after Rest exit (R121). -/
  ended : Bool := false
  deriving DecidableEq, Repr

/-! ### Timebase (spec/02_phase_timebase.md) -/

/-- How network time counts, in 2^-24 fractions: its value at the last XK32 tick, the increment, and a slew with the ticks over which it
is spread (R46, R61). -/
structure TbLine where
  base : Int
  inc : Nat
  slew : Int
  slewTicks : Nat
  deriving DecidableEq, Repr

/-- An advance of network time by counting: steps of one fraction from a value to another, or XK32 ticks from a value on (R47, R389). -/
inductive TbAdv where
  | fine (c : TbLine) (start stop : Int)
  | ticks (c : TbLine) (start : Int) (k : Nat)
  deriving DecidableEq, Repr

/-- A step of network time: the time before and after, and the uncertainty before (R55, R60). -/
structure TbStep where
  old : Nat
  new : Nat
  unc : Nat
  deriving DecidableEq, Repr

/-- A beacon delivered during a slice of the timebase's partition (R457). -/
structure HeldBeacon where
  /-- The network time it carries, the time of its stamp, and its announcement. -/
  nt : Nat
  ts : Nat
  mcn : Nat
  mode : Nat
  deriving DecidableEq, Repr

/-- What the timebase holds beside its registers. -/
structure TbState where
  /-- The 24-bit sub-fraction below network time. -/
  sub : Nat := 0
  /-- How far network time has been interpolated past its value at the last XK32 tick, in 2^-24 fractions (R47). -/
  ahead : Nat := 0
  /-- A TB_CMD request awaiting the boundary: 0 none, 1 SEEK, 2 VIRT (R53). -/
  cmd : Nat := 0
  /-- The armed announcement was late when it was armed (R58). -/
  annLate : Bool := false
  /-- Accepted crossings in a row (R51). -/
  run : Nat := 0
  /-- Missed predictions in a row (R52). -/
  misses : Nat := 0
  /-- Candidates in a row that pass the period test but fall outside the window (R52). -/
  outWin : Nat := 0
  /-- The next candidate passes the period test (R50). -/
  fresh : Bool := true
  /-- A failed cycle test waits for the next step (R59). -/
  ambigWait : Bool := false
  /-- The slew still to apply, in 2^-24 fractions, and the ticks it has left (R61). -/
  slew : Int := 0
  slewTicks : Nat := 0
  /-- The fraction of the last accepted crossing and the XK32 ticks since (R63). -/
  lastFrac : Option Nat := none
  sinceX : Nat := 0
  /-- The stored learning samples and the rejections in a row (R63). -/
  samples : List Nat := []
  rej : Nat := 0
  /-- Steps that the other blocks have yet to meet (R55). -/
  steps : List TbStep := []
  /-- The advances of network time, steps apart, that the timers have yet to count (R389). -/
  adv : List TbAdv := []
  /-- Beacons delivered during a slice of the timebase's partition, held to its end, and the ticks of XK32 for which the last delivery or
  comparator instant keeps the partition busy (R457). -/
  beacons : List HeldBeacon := []
  busyAge : Nat := 0
  deriving DecidableEq, Repr

/-! ### Chirp modem (spec/06_chirp_modem.md) -/

/-- The states of a lane's slot, coded as LANE_STAT shows them: IDLE 0, SYNC 1, MARK 2, HDR 3, PAY 4, LOST 5 (R156). -/
inductive SlotSt where
  | idle | sync | mark | hdr | pay | lost
  deriving DecidableEq, Repr

/-- A slot of a lane: its state and what its reception has measured and decoded so far (R155 to R160). -/
structure Slot where
  st : SlotSt := .idle
  k : Nat := 0
  snr : Nat := 0
  fofs : Nat := 0
  nid : Nat := 0
  rssi : Nat := 0
  ts : Nat := 0
  /-- The decoded header H[23:0] (R144). -/
  hdr : Nat := 0
  /-- An alarm has discarded the secured frame that comes in (R316). -/
  gone : Bool := false
  deriving DecidableEq, Repr

/-- A symbol on the air: an up-chirp with its shift, or a down-chirp (R141). -/
inductive Chirp where
  | up (m : Nat)
  | down
  deriving DecidableEq, Repr

/-- A frame the modem delivers to the MAC (R159). -/
structure RxFrame where
  lane : Nat
  slot : Nat
  k : Nat
  bw : Nat
  rate : Nat
  chk : Nat
  nid : Nat
  rssi : Nat
  snr : Nat
  fofs : Nat
  ts : Nat
  /-- The payload bytes after de-whitening, CRC-32 or tag included. -/
  payload : List Byte
  deriving DecidableEq, Repr

/-- What the modem holds beside its registers. -/
structure ModState where
  /-- Slots A and B of the eight lanes: slot A of lane n at 2n, slot B at 2n + 1. -/
  slots : List Slot := List.replicate 16 {}
  /-- The slot whose reception holds the LO pull (R161). -/
  pullSlot : Option Nat := none
  /-- A parity error was recorded in the current 60 s window, per lane, and the windows in a row that had one (R172). -/
  errNow : Nat := 0
  errRuns : List Nat := List.replicate 8 0
  /-- The symbols of the current or last transmission (R142). -/
  txSyms : List Chirp := []
  /-- Frames delivered to the MAC and not yet taken by it. -/
  rxq : List RxFrame := []
  deriving DecidableEq, Repr

/-! ### Radio front end (spec/07_radio_frontend.md) -/

/-- What a transmission is for: the MAC's attempt, an auto-ack or a beacon (R43). -/
inductive TxKind where
  | data | ack | beacon
  deriving DecidableEq, Repr

/-- A beacon whose carried time is still to be latched (R258): its frame up to LOC, the slot it is secured under, its level and
counter, and its body behind NT. -/
structure Beacon where
  hdr : List Byte
  slot : Option Nat
  slv : Nat
  fcnt : Nat
  rest : List Byte
  deriving DecidableEq, Repr

/-- A TX request of the MAC: the parameters of R165 and R182 and the payload with its check field. -/
structure TxReq where
  kind : TxKind
  k : Nat
  bw : Nat
  rate : Nat
  chk : Nat
  npre : Nat
  nid : Nat
  /-- The signed TX offset in 50 Hz units, 16 bits. -/
  ofs : Nat
  /-- The requested power index. -/
  idx : Nat
  payload : List Byte
  /-- The beacon the payload is to carry; until its time is latched NT stands at 0. -/
  bcn : Option Beacon := none
  deriving DecidableEq, Repr

/-- An accepted transmission (R190, R191). -/
structure TxRun where
  req : TxReq
  charge : Nat
  /-- The sub-bands it belongs to and the bucket boundaries each has passed since the reservation. -/
  sbs : List (Nat × Nat)
  tripped : Bool := false
  aborted : Bool := false
  /-- The abort counts against the channel under FE_CHMASK bit 0 (R195). -/
  faulty : Bool := false
  /-- The time from now to the end of a beacon's network mark, in 1/65,536 of an XK32 tick, while NT is not latched (R258). -/
  mark : Option Nat := none
  deriving DecidableEq, Repr

/-- What the front end reports to the MAC of a request. -/
inductive TxReport where
  | ended (kind : TxKind)
  | aborted (kind : TxKind)
  | refused (kind : TxKind) (reason : Nat)
  deriving DecidableEq, Repr

/-- What can wait for the end of a slice of the front end's partition: a CAL, and the decision on the MAC's TX request (R200). -/
inductive FeWait where
  | cal | tx
  deriving DecidableEq, Repr

/-- What the front end holds beside its registers. -/
structure FeState where
  /-- A TX request awaiting admission. -/
  req : Option TxReq := none
  tx : Option TxRun := none
  report : Option TxReport := none
  /-- The 33 airtime buckets of each sub-band, the current one first (R192). -/
  buckets : List (List Nat) := List.replicate 8 (List.replicate 33 0)
  /-- The refused charge each sub-band waits for (R193). -/
  exhWait : List Nat := List.replicate 8 0
  /-- Transmissions in a row that tripped (R184). -/
  trips : Nat := 0
  /-- The first lock attempt failed and the VCO is recalibrated (R177). -/
  retry : Bool := false
  /-- The synthesiser has locked and the DC calibration runs (R181). -/
  dcRun : Bool := false
  /-- The down-ramp ended and the switch and DC calibration before RX run (R186). -/
  dcAfterTx : Bool := false
  /-- The requests that wait for the end of a self-test slice, oldest first (R42, R200). -/
  held : List FeWait := []
  deriving DecidableEq, Repr

/-! ### Column link (spec/08_column_link.md) -/

/-- What a port does when the 4 ms of its silence are over (R218): nothing awaited, wait in its base state, or start a cold
S1. -/
inductive Silence where
  | no | base | coldS1
  deriving DecidableEq, Repr

/-- What a column port holds beside its registers. -/
structure CpState where
  /-- The port has stopped its transmitter for 4 ms, and what follows (R218). -/
  silence : Silence := .no
  /-- The far end's last INFO block in this training (R213), once one is decoded. -/
  far : Option Nat := none
  /-- The blocks the port is still to send in the stage in progress; where it counts them, the next one's COUNT plus 1 (R212). -/
  left : Nat := 0
  /-- The training in progress is a warm one, and whether the port uses the fallback baud. -/
  warm : Bool := false
  fellBack : Bool := false
  /-- The CHOSEN and RSON the port has computed: PAM code, and RS. -/
  chosen : Nat := 0
  rson : Bool := false
  /-- RTC time of UP in 1/32,768 s, for FLAP (R219). -/
  upAt : Nat := 0
  /-- The RTC seconds of the last failures, newest first, at most eight (R219). -/
  fails : List Nat := []
  /-- The wait before training: far-end energy restarts 2 ms, a failure the retry wait (R218, R219), in ms. -/
  waitMs : Nat := 0
  /-- Errors of the current second, and whether ERR fired in it (R221). -/
  errs : Nat := 0
  errFired : Bool := false
  /-- The blocks the port has sent since the last command began (R204), and the PAM order of the last of them. -/
  line : List LineBlock := []
  linePam : Nat := 1
  /-- The transmit and the receive register of the scrambler, and whether 23 scrambled bits have come since silence (R205). -/
  txScr : Nat := 0
  rxScr : Nat := 0
  rxSync : Bool := false
  /-- The payload bytes of the codeword being sent, and the blocks of the one being received, descrambled (R211). -/
  txWord : List Nat := []
  rxWord : List LineBlock := []
  /-- No block but ABORT has come since the link came up (R215). -/
  young : Bool := false
  /-- The bytes of the frame being received; none outside a frame or while blocks are ignored (R210). -/
  rx : Option (List Byte) := none
  /-- The header of that frame has been looked at for cut-through (R287). -/
  headed : Bool := false
  /-- The link went down, so that forwarding is to free what it sends on the port. -/
  txCut : Bool := false
  /-- The write of EN, or its task, that waits for the end of a slice of the port's partition: the latest (R226). -/
  enHeld : Option Bool := none
  deriving DecidableEq, Repr

/-! ### Forwarding (spec/10_forwarding.md) -/

/-- A frame in the forwarding engine: allocated and not yet submitted (no use), or stored with one or two uses (R266,
R267). -/
structure FwdFrame where
  num : Nat
  /-- Its cells in list order. -/
  cells : List Nat
  /-- The stored length; the allocated length before submission. -/
  len : Nat
  hlen : Nat := 0
  /-- The ingress port. -/
  port : Nat := 4
  /-- The source context. -/
  src : Option Nat := none
  /-- 0 data, 3 command (R230). -/
  typ : Nat := 0
  /-- The location code and depth. -/
  loc : Option (Nat × Nat) := none
  /-- The frame came under KIDX ≠ TXK. -/
  knext : Bool := false
  /-- The network time of its arrival or submission. -/
  born : Nat := 0
  uses : Nat := 0
  /-- A secured frame of a column port whose tag has not been checked: its cells read 00h (R302). -/
  coming : Bool := false
  deriving DecidableEq, Repr

/-- A radio frame as built, which every attempt repeats (R246), with the attempts, failures and busy assessments so far (R247, R248). -/
structure Built where
  bytes : List Byte
  fcnt : Nat
  slv : Nat
  ar : Bool
  attempts : Nat := 0
  fails : Nat := 0
  busies : Nat := 0
  deriving DecidableEq, Repr

/-- A place in a queue: a frame that waits for a port in a class. Its order in its class is its order in the list. -/
structure QEnt where
  num : Nat
  port : Nat
  cls : Nat
  /-- The egress context of out(f, c, q); none for a delivery by local(f) (R274). -/
  ctx : Option Nat
  /-- L (R266). -/
  len : Nat
  copy : Bool := false
  /-- FWD_LIDHOLD and GATE_HOLD have counted it. -/
  lidHeld : Bool := false
  budgetHeld : Bool := false
  /-- The bytes of the frame as built, while it is in transmission. -/
  data : List Byte := []
  /-- A frame that came back unsent, as it was built (R246, R286). -/
  built : Option Built := none
  deriving DecidableEq, Repr

/-- The gate list a port runs (R282, R290). -/
structure GateRun where
  en : Bool := false
  bank : Nat := 0
  nent : Nat := 0
  base : Nat := 0
  /-- The phase time at which the current entry ends. -/
  endAt : Nat := 0
  /-- The last cycle end that fired (R42). -/
  done : Option Nat := none
  deriving DecidableEq, Repr

/-- A frame that cuts through from one column port to the other (R287). -/
structure CutThru where
  ingress : Nat
  egress : Nat
  ctx : Nat
  cls : Nat
  /-- FCNT and PEND of the header built for the egress port. -/
  fcnt : Nat
  pend : Bool
  /-- The source frame has ended bad, so that the egress is to send ABORT (R210), and the bytes that had come until then. -/
  bad : Bool := false
  got : List Byte := []
  /-- The egress link went down under it (R210): the source frame is only received to its end. -/
  lost : Bool := false
  deriving DecidableEq, Repr

/-- What waits for the end of a self-test slice of the MAC, the forwarding engine or the cipher engine (R42, R263, R296, R320, R459): a
frame's steps in the MAC, an allocation, a submission with the location it was written under, the start of a chosen frame, and a beacon,
that are to be secured. -/
inductive FwdWait where
  | frame (port : Nat) (bytes : List Byte) (rx : Option RxFrame)
  | alloc (len : Nat)
  | submit (v code : Nat)
  | start (e : QEnt)
  | beacon
  deriving DecidableEq, Repr

/-- What the forwarding engine holds beside its registers. -/
structure FwdState where
  /-- The column ports whose frame coming in waits for its cut-through decision, during a self-test slice (R296, R459). -/
  cutWait : List Nat := []
  frames : List FwdFrame := []
  queue : List QEnt := []
  /-- The hold lists of the scheduled contexts (R285). -/
  held : List QEnt := []
  /-- The frames in transmission: at most one on a column port; on RADIO those the MAC holds. -/
  txs : List QEnt := []
  /-- Scheduled frames released into their class queue and not yet started, each with the network time at which its slot ends. -/
  released : List (Nat × Nat) := []
  /-- Table entries that do not hold their reset value: key 256 × table + index, 1000h more for an active copy. -/
  tabs : List (Nat × Nat) := []
  /-- Shaper credit and marker buckets C and P of class 8 × port + class. -/
  credit : List Int := List.replicate 40 0
  ctok : List Nat := List.replicate 40 0
  ptok : List Nat := List.replicate 40 0
  gates : List GateRun := List.replicate 5 {}
  /-- The frames that cut through, one for each ingress port at most. -/
  cuts : List CutThru := []
  waits : List FwdWait := []
  deriving DecidableEq, Repr

/-! ### Link MAC (spec/09_link_mac.md) -/

/-- Where a frame being sent stands: an assessment awaited, found clear, at the front end, waiting for its ack, or in
backoff (R247 to R249). -/
inductive TxPhase where
  | assess | clear | sending | await | backoff
  deriving DecidableEq, Repr

/-- A data or command frame the MAC is sending (R245 to R249). -/
structure MacTx where
  q : QEnt
  /-- The MAC frame as built, MIC included. -/
  frame : List Byte
  slv : Nat
  fcnt : Nat
  ar : Bool
  sched : Bool
  k : Nat
  bw : Nat
  rate : Nat
  npre : Nat
  ofs : Nat
  idx : Nat
  lane : Option Nat
  attempts : Nat := 0
  busies : Nat := 0
  fails : Nat := 0
  /-- The backoff drawn, in units of 2T. -/
  backoff : Nat := 0
  /-- The instant of the peer's slot from whose aligned start that backoff counts (R248). -/
  slot : Option Nat := none
  /-- Another use of the radio has deferred it after its backoff or its assessment; it is offered again (R42, R43). -/
  due : Bool := false
  phase : TxPhase := .assess
  /-- Its profile (R245). -/
  prof : Nat := 0
  /-- The ack wait is over, but these slots hold receptions that began within it (R249). -/
  late : Option (List Nat) := none
  deriving DecidableEq, Repr

/-- An ack that is owed (R241, R242). -/
structure AckOwed where
  ofs : Nat
  k : Nat
  bw : Nat
  rate : Nat
  fcnt : Nat
  ctx : Option Nat
  deriving DecidableEq, Repr

/-- What the MAC holds beside its registers. -/
structure MacState where
  /-- The frame of the attempt in progress, and the frames in backoff. -/
  tx : Option MacTx := none
  waits : List MacTx := []
  owed : List AckOwed := []
  /-- An ack is at the front end. -/
  ackTx : Bool := false
  /-- Wake entries whose lead instant has come and whose window is not open yet; those whose window is open, each with the network
  time at which it closes (R253, R254). -/
  leads : List Nat := []
  wins : List (Nat × Nat) := []
  /-- Slots that left IDLE while a window was open (R253). -/
  holders : List Nat := []
  /-- DET came during the window. -/
  det : Bool := false
  /-- The hold of R250. -/
  pwin : Bool := false
  /-- Task 100 skips the next beacon. -/
  skip : Bool := false
  /-- The MAC itself set the RX request that stands (R185). -/
  rxOwn : Bool := false
  /-- Up to which network time the instants of a schedule entry have had an act: by the act's key, the entry's number for a lead
  instant, 32 more for an opening, 64 for the beacon, 128 and the context for a peer, so that none has it twice (R42). -/
  acted : List (Nat × Nat) := []
  deriving DecidableEq, Repr

/-! ### Cipher engine and Larder (spec/11_cipher_larder.md) -/

/-- A burner's C2 parameter set: bytes 000h to 02Fh, and what STAT shows (R304). -/
structure C2Set where
  par : List Nat := List.replicate 48 0
  busy : Bool := false
  err : Bool := false
  abort : Bool := false
  tagok : Bool := false
  code : Nat := 0
  deriving DecidableEq, Repr

/-- The C2 command that runs: its burner, function and operand (R305). -/
structure C2Op where
  burner : Nat
  fn : Nat
  opd : Nat
  /-- It runs, its checks made: one that waits for an inline frame has them to come (R306, R307). -/
  checked : Bool := false
  deriving DecidableEq, Repr

/-- What the cipher engine and the Larder hold beside their registers. -/
structure CiphState where
  sets : List C2Set := List.replicate 16 {}
  op : Option C2Op := none
  /-- The key bits of the 128 slots. -/
  keys : List Nat := List.replicate 128 0
  /-- The Larder wrap key in the latch of the backup domain (R315). -/
  latch : Option Nat := none
  /-- The records of the two halves of the persistent area, in writing order, 64 bytes each (R314). -/
  recA : List (List Byte) := []
  recB : List (List Byte) := []
  /-- The current half: 0 A, 1 B. -/
  half : Nat := 0
  deriving DecidableEq, Repr

/-! ### Host port (spec/16_host_port.md) -/

/-- A frame in the receive FIFO (R421). -/
structure HostRx where
  cls : Nat
  data : List Byte
  deriving DecidableEq, Repr

/-- What the host port holds beside its registers. -/
structure HpState where
  rx : List HostRx := []
  /-- The read position of the head frame, in words. -/
  pos : Nat := 0
  /-- The head frame's last word was completed in the current host frame. -/
  taken : Bool := false
  /-- The open transmit frame: its length and the bytes that have come. -/
  tx : Option (Nat × List Byte) := none
  /-- The last good compatibility frame, the reply to it, and whether a bad one has come since (R427, R428). -/
  cprev : Option Nat := none
  creply : Nat := 0
  cbad : Bool := false
  /-- The stored reply's words for ADDR and ADDR + 1 are words of the receive FIFO not yet shifted out (R422). -/
  owedLo : Bool := false
  owedHi : Bool := false
  /-- The select pin is released to high impedance until the next transfer (R477). -/
  selOff : Option Nat := none
  /-- A host frame was ignored during a self-test slice, and a start of a master transfer waits for the slice's or the frame's end
  (R42, R429, R433). -/
  missed : Bool := false
  goWait : Bool := false
  /-- A host frame is in progress (R429). -/
  frame : Bool := false
  /-- The ticks of XK32 for which the last frame's HSEL still keeps the port busy for a slice (R433). -/
  selAge : Nat := 0
  /-- The words that HSDO carried after the header of the last native frame, or the reply of the last compatibility frame. -/
  sent : List Nat := []
  /-- The bytes that HSDO carried in the last master transfer (R429). -/
  msent : List Nat := []
  deriving DecidableEq, Repr

/-! ### Flash (spec/12_flash.md) -/

/-- How a main page or fine word reads: bits corrected and read-retry shifts tried, or uncorrectable (R324 to R326). An
entry of the list says so of one unit; a unit without an entry reads without correction. -/
structure FlQual where
  corr : Nat := 0
  shifts : Nat := 0
  unc : Bool := false
  deriving DecidableEq, Repr

/-- The journal word a stamp in progress writes (R336). -/
inductive FlStamp where
  | start
  | complete
  | retire (cause : Nat)
  deriving DecidableEq, Repr

/-- The operation the controller runs: a page program, a word program, or an erase or retirement of a unit. -/
inductive FlOp where
  | page (addr : Nat) (data : List Byte) (m0 m1 : Nat)
  | word (addr : Nat) (data : Nat)
  | erase (unit : Nat)
  | retire (unit : Nat) (cause : Nat) (code : Nat)
  deriving DecidableEq, Repr

/-- What the controller knows of an erase unit (R322, R337 to R339). -/
structure FlUnit where
  count : Nat := 0
  ret : Bool := false
  half : Bool := false
  slow : Bool := false
  deriving DecidableEq, Repr

/-- A flash command as its registers stood at the write (R332): who issued it, none for a task; OP, FL_ADDR, FL_SRC, FL_META and
FL_WDATA. -/
structure FlCmd where
  who : Option Nat
  op : Nat
  addr : Nat
  src : Nat
  m0 : Nat
  m1 : Nat
  data : Nat
  deriving DecidableEq, Repr

/-- What the flash controller and its arrays hold beside the readable bytes and the registers. -/
structure FlState where
  op : Option FlOp := none
  stamp : FlStamp := .start
  pulses : Nat := 0
  /-- The units that are not in their first state, by number. -/
  units : List (Nat × FlUnit) := []
  /-- The current journal sector, 0 or 1, once one is found, and the words in use in it. -/
  jcur : Option Nat := none
  jused : Nat := 0
  /-- Cells that do not read clean: by the address of a page or fine word. -/
  qual : List (Nat × FlQual) := []
  /-- The 16 metadata bytes of the pages whose metadata is programmed, by page address. -/
  metas : List (Nat × Nat) := []
  /-- How many programs and erases have begun or ended: a line buffer that filled earlier is empty (R78). -/
  works : Nat := 0
  /-- The arrays in which the update block's own programs or erases work (R328). -/
  others : List Nat := []
  /-- A read waits for the array that is being erased (R329). -/
  rdWait : Bool := false
  /-- The commands that wait for the end of a slice of the ECC partition, the oldest first (R459). -/
  cmds : List FlCmd := []
  /-- The ticks of XK32 for which the ECC logic still counts as busy after the last read (R342). -/
  readAge : Nat := 0
  deriving DecidableEq, Repr

/-- The fuses that no register shows whole. -/
structure FuseState where
  /-- The factory calibration tables are protected (R323). -/
  callock : Bool := false
  /-- The anti-rollback fuses that are blown, of 64 (R437). -/
  arb : Nat := 0
  deriving DecidableEq, Repr

/-! ### Real-time clock (spec/14_rtc_calendar.md) -/

/-- What waits for the next XK32 cycle (R372): a write of some bits of the register at an address, or a task. -/
inductive RtcPend where
  | write (addr val mask : Nat)
  | task (n : Nat)
  deriving DecidableEq, Repr

/-- What the backup domain holds beside its registers. -/
structure RtcState where
  /-- VBK is present (R350). -/
  vbk : Bool := true
  /-- Writes and tasks in the order in which they arrived. -/
  pend : List RtcPend := []
  /-- The crystal cycle within the compensation window (R381). -/
  win : Nat := 0
  /-- Compensated ticks to the next firing of the periodic wake (R379). -/
  wakeLeft : Nat := 128
  /-- Second boundaries to the release of PWRON, where HOLD asks for one (R383). -/
  holdLeft : Option Nat := none
  /-- LATCH has been set in this XK32 cycle (R383). -/
  latchNow : Bool := false
  /-- A set has been refused in this XK32 cycle (R373). -/
  refused : Bool := false
  /-- The instant of alarm 0 or 1 was carried past the calendar's wrap (R375). -/
  past : List Bool := [false, false]
  deriving DecidableEq, Repr

/-! ### Lantern I/O (spec/15_timers_lantern_io.md) -/

/-- Where a relay request stands: it waits for a drive instant, with an angle honoured or not when the block last looked; driven, before
its contact instant; switched without an angle, before its event (R400). -/
inductive RlyPhase where
  | waits (honoured : Bool)
  | driven (contact : Nat)
  | noAngle
  deriving DecidableEq, Repr

/-- A relay: the level of its output and the request that is pending. -/
structure RlyX where
  pin : Bool := false
  req : Option (Bool × RlyPhase) := none
  deriving DecidableEq, Repr

/-- An input of the traffic classifier: the XK32 cycles since the first cycle of the level of the last accepted arrival or departure, and
the live bins (R403, R404). -/
structure TrfX where
  occ : Option Nat := none
  gap : Option Nat := none
  occBins : List Nat := List.replicate 8 0
  gapBins : List Nat := List.replicate 8 0
  deriving DecidableEq, Repr

/-- What the timers and the lantern I/O block hold beside their registers. -/
structure LioState where
  /-- The eight prescalers' counts (R389). -/
  pre : List Nat := List.replicate 8 0
  /-- Dimming periods since the commit that set the duties (R397). -/
  k : Nat := 0
  /-- The active span of each channel in the current period, in clock cycles or fractions. -/
  span : List Nat := List.replicate 4 0
  rly : List RlyX := [{}, {}]
  /-- The channels the running set of conversions has still to convert (R401). -/
  adcq : List Nat := []
  /-- The last instant of the phase trigger that fired (R42, R401). -/
  adcDone : Option Nat := none
  /-- The last instant at which event 82 has fired (R55, R398). -/
  dimDone : Option Nat := none
  /-- Conversions in a row out of range and in range, per channel (R402). -/
  adcOut : List Nat := List.replicate 4 0
  adcIn : List Nat := List.replicate 4 0
  trf : List TrfX := List.replicate 4 {}
  /-- A snapshot is requested for the next XK32 cycle (R404). -/
  snap : Bool := false
  deriving DecidableEq, Repr


/-! ### Boot and power (spec/13_power_sleep.md, spec/17_update_selftest.md) -/

/-- What the boot ROM waits for while NVILOW = 1: a journal write of its stage 8, or the writing of a recovery record. -/
inductive BootWait where
  | journal
  | recovery (rec : List Byte)
  deriving DecidableEq, Repr

/-- What the boot process and the reset controller hold. -/
structure BootState where
  /-- Burner 0 has been handed over to the chosen image (R442). -/
  handedOver : Bool := false
  /-- The always-on domain is held in reset without power: a power-on or brownout reset is asserted (R29, R346). -/
  aonDown : Bool := false
  /-- A reset of the core domain is asserted (R350). -/
  held : Bool := false
  /-- The reset that is asserted, or was released last, cleared the always-on domain. -/
  aon : Bool := true
  /-- The start-up after the last reset has run (R353). -/
  started : Bool := false
  wait : Option BootWait := none
  /-- The parts of a recovery blob that are held, by index, and the blob length and part count they name (R358). -/
  parts : List (Nat × List Byte) := []
  blobLen : Nat := 0
  blobParts : Nat := 0
  deriving DecidableEq, Repr

/-- What the power block holds beside its registers. -/
structure PwrState where
  /-- XK32 ticks to the watchdog's expiry while it runs (R352). -/
  wdt : Nat := 0
  /-- PWR_REFUSERS at the last counted refusal, when no Rest entry has completed since (R361). -/
  counted : Option Nat := none
  /-- A wake cause has come since an entry began, and the device has not left Rest for it yet (R364). -/
  wake : Bool := false
  /-- The first word after a Rest exit has not issued yet (R365). -/
  first : Bool := false
  deriving DecidableEq, Repr

/-! ### Update, self-test and debug (spec/17_update_selftest.md) -/

/-- What the update block holds beside its registers. -/
structure UpdState where
  /-- The morsels of the page buffer that fills, and of the one whose page is being programmed (R449). -/
  buf : List (List Byte) := []
  prog : Option (List (List Byte)) := none
  /-- The half-full buffer is to be programmed once the other is done. -/
  flush : Bool := false
  /-- The page being programmed failed in one block, and its program in the next waits for the supply (R347, R449). -/
  again : Bool := false
  /-- The records whose page is programmed and whose bitmap words wait for the supply: morsel and address (R347, R450). -/
  marks : List (List Byte × Nat) := []
  /-- The boot-state records that wait for the flash controller or the supply, oldest first (R438). -/
  jw : List Nat := []
  /-- A lock command whose signature C3 verifies, and the ticks of XK32 it may still take (R454). -/
  lock : Option (List Byte) := none
  lockAge : Nat := 0
  /-- A CLEAR runs (R447). -/
  clearing : Bool := false
  /-- A reset of the core domain has abandoned an install, which the next boot records (R453). -/
  cut : Bool := false
  /-- XK32 ticks of a trial period, and those left in the current one (R444). -/
  period : Nat := 0
  trial : Nat := 0
  deriving DecidableEq, Repr

/-- What the self-test holds beside its registers. -/
structure BistState where
  /-- A pass runs, and its memory segment runs. -/
  run : Bool := false
  seg : Bool := false
  /-- The next slice of each partition (R458). -/
  next : List Nat := List.replicate 19 0
  /-- The ticks of XK32 for which the last adverb to C0, C1 or C3 keeps their partition busy (R457). -/
  advAge : Nat := 0
  /-- The adverbs in flight that wait for the slice to end, each with its burner, in the order of their arrival (R42, R114, R459). -/
  adverbs : List (Nat × Adverb) := []
  /-- The bank tested last, and the next segment of each bank (R461). -/
  bank : Nat := 15
  segs : List Nat := List.replicate 16 0
  deriving DecidableEq, Repr

/-- The answers of a debug transaction (R463): none while the port answers nothing. -/
inductive DbgStatus where
  | done | busy | refused | crcerr
  deriving DecidableEq, Repr

/-- An access that the debug port holds: its transaction, and its outcome once it has ended (R463). -/
structure DbgPend where
  hdr : Nat
  addr : Nat
  wdata : Nat
  /-- How the access ended, and the data of a read. -/
  refused : Bool
  data : Nat
  deriving DecidableEq, Repr

/-- What the debug port holds beside its registers. -/
structure DbgState where
  pend : Option DbgPend := none
  /-- The answer to the last transaction: STATUS, RDATA and DCRC. -/
  status : Option DbgStatus := none
  rdata : Option Nat := none
  dcrc : Option Nat := none
  /-- XK32 ticks to the end of the current second of a lockout (R465). -/
  lock : Nat := 0
  deriving DecidableEq, Repr

/-! ### The Whisk (spec/05_event_router.md) -/

/-- A firing of a channel with the destinations that the gate of R131 left it: burners to wake and task inputs; whether the channel's
wake mask named any burner (R134). -/
structure Firing where
  chan : Nat
  masked : Bool
  wakes : List Nat
  tasks : List Nat
  deriving DecidableEq, Repr

/-! ### The whole state -/

/-- Whether the core domain runs: running, closing toward Rest, isolated, asleep, or on its way out (R362 to R365). -/
inductive RestPhase where
  | running | closing | isolated | asleep | exiting
  deriving DecidableEq, Repr

/-- The state of the block. Registers and memory are sparse lists in rising key order; a field that is not listed holds its
reset value. -/
structure State where
  /-- The commands that wait, the first in front. -/
  pending : List Instr := []
  /-- The register file: key 8 × byte address + lowest bit of a field. -/
  regs : List (Nat × Nat) := []
  /-- Flash, fine area, SRAM, context RAM and frame buffer. -/
  mem : List Host.Cell := []
  /-- How often each SRAM bank (0 to 15) and the frame buffer (16) lost its supply. -/
  ramLoss : List Nat := List.replicate 17 0
  latches : List Latch := []
  holds : List Holding := []
  /-- The data of the last read access (R39). -/
  busData : Nat := 0
  /-- Tasks that channels have driven and that their blocks have not yet performed. -/
  taskq : List Nat := []
  /-- The event sources fired by the last command, in order. -/
  fired : List Nat := []
  /-- How many free values have been drawn. -/
  freeSeq : Nat := 0
  rest : RestPhase := .running
  /-- The Whisk group under self-test, the firings it holds, and the XK32 ticks for which each group still counts as busy (R136). -/
  whiskTest : Option Nat := none
  whiskHeld : List Firing := []
  whiskAge : List Nat := List.replicate 8 0
  /-- Core cycles in which the core has issued a word of itself since the last tick of XK32 (R73). -/
  cyc : Nat := 0
  /-- Round-robin pointers of the four issue levels (R73). -/
  rr : List Nat := List.replicate 4 0
  brn : List BurnerX := List.replicate 16 {}
  c3 : C3State := {}
  tb : TbState := {}
  mod : ModState := {}
  fe : FeState := {}
  boot : BootState := {}
  /-- The self-test partition whose slice runs (R459). -/
  bistPart : Option Nat := none
  cp : List CpState := [{}, {}]
  fwd : FwdState := {}
  mac : MacState := {}
  ciph : CiphState := {}
  hp : HpState := {}
  fl : FlState := {}
  fuse : FuseState := {}
  rtc : RtcState := {}
  lio : LioState := {}
  pwr : PwrState := {}
  upd : UpdState := {}
  bist : BistState := {}
  dbg : DbgState := {}
  deriving DecidableEq, Repr

/-- The machine right after power-on reset: every register at its reset value, memory blank, nothing waiting. -/
def State.reset : State := {}

end Sys2Proof.Machine
end

