-- ==== Sys2Proof/Machine/Fields.lean ====
section
/-! DEFINITION. The named fields of the register maps: one handle per field of every block's register table.
A handle gives the field's place (8 × byte address + lowest bit), its width and its reset value, as the table of
its chapter states them. For a staged (ST) field the handle names the ACTIVE copy, the one in force, which stands
at the field's address plus 800h (R17, R13); `.stg` names its staging copy. A register array takes its index.
Reset values the spec marks keep, fuse or cal are those of notes/assumptions/3.md. -/

namespace Sys2Proof.Machine.F
open Sys2Proof.Machine


/-! ### System control, base 500000h (spec/01_architecture.md) -/

def SYS_ID_TYPE : Fld := .at 0x500000 16 16 0x3E07
def SYS_ID_REV : Fld := .at 0x500000 8 8 0xB0
def SYS_ROLE_ROLE : Fld := .at 0x500810 0 2 0
def SYS_CLK_SWREF : Fld := .at 0x500020 7 1 0
def SYS_CLK_CLKFAIL : Fld := .at 0x500020 6 1 0
def SYS_CLK_PLLLOCK : Fld := .at 0x500020 5 1 0
def SYS_CLK_XORDY : Fld := .at 0x500020 4 1 0
def SYS_CLK_XOWARM : Fld := .at 0x500020 3 1 0
def SYS_CLK_XOEN : Fld := .at 0x500020 2 1 0
def SYS_CLK_PLLEN : Fld := .at 0x500020 1 1 0
def SYS_CLK_SRC : Fld := .at 0x500020 0 1 0
def SYS_ACCERR_ACCESSOR : Fld := .at 0x500030 3 5 0
def SYS_ACCERR_UNMAPPED : Fld := .at 0x500030 1 1 0
def SYS_ACCERR_LLORDER : Fld := .at 0x500030 0 1 0
def SYS_PINCFG_PULL (n : Nat) : Fld := .at (0x500100 + 2 * n) 5 2 0
def SYS_PINCFG_DRV (n : Nat) : Fld := .at (0x500100 + 2 * n) 4 1 0
def SYS_PINCFG_OUT (n : Nat) : Fld := .at (0x500100 + 2 * n) 3 1 0
def SYS_PINCFG_FUNC (n : Nat) : Fld := .at (0x500100 + 2 * n) 0 2 0
def SYS_PININ_IN : Fld := .at 0x500140 0 16 0
def SYS_COMMIT_REASON : Fld := .at 0x5007F0 8 4 0
def SYS_COMMIT_REJ : Fld := .at 0x5007F0 6 1 0
def SYS_COMMIT_DONE : Fld := .at 0x5007F0 5 1 0
def SYS_COMMIT_PEND : Fld := .at 0x5007F0 4 1 0
def SYS_COMMIT_CANCEL : Fld := .at 0x5007F0 1 1 0
def SYS_COMMIT_ARM : Fld := .at 0x5007F0 0 1 0
def SYS_CMTCNT : Fld := .at 0x5007F2 0 16 0

/-! ### Power/Rest, base 501000h (spec/13_power_sleep.md) -/

def PWR_STAT_TEMPLO : Fld := .at 0x501000 9 1 0
def PWR_STAT_TEMPHI : Fld := .at 0x501000 8 1 0
def PWR_STAT_VDDIOLOW : Fld := .at 0x501000 7 1 0
def PWR_STAT_VBATLOW : Fld := .at 0x501000 6 1 0
def PWR_STAT_NVILOW : Fld := .at 0x501000 5 1 0
def PWR_STAT_HOLD : Fld := .at 0x501000 4 1 0
def PWR_STAT_BATOK : Fld := .at 0x501000 3 1 0
def PWR_STAT_MAINOK : Fld := .at 0x501000 2 1 0
def PWR_STAT_ONBAT : Fld := .at 0x501000 0 1 0
def PWR_NVI_LEVEL : Fld := .at 0x501002 0 4 4
def PWR_VBATWARN_LEVEL : Fld := .at 0x501003 0 5 0xA
def PWR_RET_CTX : Fld := .at 0x501004 16 1 0
def PWR_RET_BANK : Fld := .at 0x501004 0 16 3
def PWR_RESTCTL_HSELWAKE : Fld := .at 0x501008 1 1 1
def PWR_RESTCTL_EN : Fld := .at 0x501008 0 1 0
def PWR_REFUSERS_PRESENT : Fld := .at 0x50100A 1 8 0
def PWR_RESTREF_ABORT : Fld := .at 0x50100C 7 1 0
def PWR_RESTREF_CODE : Fld := .at 0x50100C 0 4 0
def PWR_RESTS : Fld := .at 0x501010 0 32 0
def PWR_RSTCAUSE_VBK : Fld := .at 0x501014 8 1 0
def PWR_RSTCAUSE_VCORE : Fld := .at 0x501014 7 1 0
def PWR_RSTCAUSE_DEBUG : Fld := .at 0x501014 6 1 0
def PWR_RSTCAUSE_SWCORE : Fld := .at 0x501014 5 1 0
def PWR_RSTCAUSE_WDT : Fld := .at 0x501014 4 1 0
def PWR_RSTCAUSE_NRST : Fld := .at 0x501014 3 1 0
def PWR_RSTCAUSE_SWAON : Fld := .at 0x501014 2 1 0
def PWR_RSTCAUSE_NRSTLONG : Fld := .at 0x501014 1 1 0
def PWR_RSTCAUSE_POR : Fld := .at 0x501014 0 1 1
def PWR_RST_KEY : Fld := .at 0x501016 4 4 0
def PWR_RST_AON : Fld := .at 0x501016 1 1 0
def PWR_RST_CORE : Fld := .at 0x501016 0 1 0
def PWR_WDTCFG_EN : Fld := .at 0x501018 31 1 0
def PWR_WDTCFG_REST : Fld := .at 0x501018 30 1 0
def PWR_WDTCFG_PER : Fld := .at 0x501018 0 16 0x100
def PWR_WDTKICK_KEY : Fld := .at 0x50101C 0 8 0
def PWR_WDTLEFT_TICKS : Fld := .at 0x501020 0 32 0
def PWR_TEMP_DEG : Fld := .at 0x501024 0 16 0
def PWR_TEMPTHR_HI : Fld := .at 0x501026 8 8 0x69
def PWR_TEMPTHR_LO : Fld := .at 0x501026 0 8 0xD8
def PWR_CFGSTAT_SEQ : Fld := .at 0x501028 32 32 0
def PWR_CFGSTAT_C1CODE : Fld := .at 0x501028 8 4 0
def PWR_CFGSTAT_C0CODE : Fld := .at 0x501028 4 4 0
def PWR_CFGSTAT_SEL : Fld := .at 0x501028 0 2 2
def PWR_STRAP_LAMPSAFE : Fld := .at 0x501030 0 1 0
def REST_REFUSED : Fld := .at 0x501300 0 16 0
def HOLD_BLOCKED : Fld := .at 0x501302 0 16 0
def PWR_WDTEXP : Fld := .at 0x501304 0 16 0

/-! ### Whisk, base 502000h (spec/05_event_router.md) -/

def WHISK_CFG_EN (n : Nat) : Fld := .at (0x502000 + 8 * n) 31 1 0
def WHISK_CFG_SEC (n : Nat) : Fld := .at (0x502000 + 8 * n) 21 1 1
def WHISK_CFG_OWNER (n : Nat) : Fld := .at (0x502000 + 8 * n) 16 5 0x11
def WHISK_CFG_SRC (n : Nat) : Fld := .at (0x502000 + 8 * n) 0 8 0xFF
def WHISK_WAKE_MASK (n : Nat) : Fld := .at (0x502004 + 8 * n) 0 16 0
def WHISK_OVR (n : Nat) : Fld := .at (0x502200 + 2 * n) 0 16 0
def WHISK_FLAG_FLAG : Fld := .at 0x502400 0 64 0
def WHISK_OVRF_OVR : Fld := .at 0x502408 0 64 0
def WHISK_FIRE_FIRE : Fld := .at 0x502410 0 64 0
def WHISK_CMTBLK_BLK : Fld := .at 0x502418 0 20 0
def WHISK_CTL_CLRALL : Fld := .at 0x502420 0 1 0
def WHISK_ERR_ACCESSOR : Fld := .at 0x502424 3 5 0
def WHISK_ERR_TLOST : Fld := .at 0x502424 2 1 0
def WHISK_ERR_SECMASK : Fld := .at 0x502424 1 1 0
def WHISK_ERR_DENY : Fld := .at 0x502424 0 1 0
def WHISK_GRPRET_RET : Fld := .at 0x502426 0 8 0
def WHISK_TLOST : Fld := .at 0x502430 0 16 0
def WHISK_SECMASK : Fld := .at 0x502432 0 16 0
def WHISK_TASK_EN (n : Nat) : Fld := .at (0x502600 + 1 * n) 7 1 0
def WHISK_TASK_CH (n : Nat) : Fld := .at (0x502600 + 1 * n) 0 6 0

/-! ### Burner control, base 503000h (spec/03_burners.md) -/

def BRN_CTL_STOP (n : Nat) : Fld := .at (0x503000 + 0x40 * n) 3 1 0
def BRN_CTL_RESUME (n : Nat) : Fld := .at (0x503000 + 0x40 * n) 2 1 0
def BRN_CTL_PARK (n : Nat) : Fld := .at (0x503000 + 0x40 * n) 1 1 0
def BRN_CTL_START (n : Nat) : Fld := .at (0x503000 + 0x40 * n) 0 1 0
def BRN_STAT_FAULTF (n : Nat) : Fld := .at (0x503001 + 0x40 * n) 7 1 0
def BRN_STAT_PARKF (n : Nat) : Fld := .at (0x503001 + 0x40 * n) 6 1 0
def BRN_STAT_SIGF (n : Nat) : Fld := .at (0x503001 + 0x40 * n) 5 1 0
def BRN_STAT_PARKREQ (n : Nat) : Fld := .at (0x503001 + 0x40 * n) 4 1 0
def BRN_STAT_EXC (n : Nat) : Fld := .at (0x503001 + 0x40 * n) 3 1 0
def BRN_STAT_STATE (n : Nat) : Fld := .at (0x503001 + 0x40 * n) 0 3 (if n = 0 then 0x1 else 0)
def BRN_CFG_WORLD (n : Nat) : Fld := .at (0x503002 + 0x40 * n) 2 1 (if n = 0 then 0x1 else 0)
def BRN_CFG_PRIO (n : Nat) : Fld := .at (0x503002 + 0x40 * n) 0 2 2
def BRN_PC_PC (n : Nat) : Fld := .at (0x503004 + 0x40 * n) 0 16 0
def BRN_FLAGS_TVCNZ (n : Nat) : Fld := .at (0x503006 + 0x40 * n) 0 5 0
def BRN_CBASE_BASE (n : Nat) : Fld := .at (0x503010 + 0x40 * n) 0 24 (if n = 0 then 0x600000 else 0)
def BRN_CLIM_LAST (n : Nat) : Fld := .at (0x503014 + 0x40 * n) 0 16 (if n = 0 then 0x2AA9 else 0)
def BRN_EVEC_VEC (n : Nat) : Fld := .at (0x503016 + 0x40 * n) 0 16 0
def BRN_EPC_EPC (n : Nat) : Fld := .at (0x503018 + 0x40 * n) 0 16 0
def BRN_EFLAGS_TVCNZ (n : Nat) : Fld := .at (0x50301A + 0x40 * n) 0 5 0
def BRN_ECAUSE_DBL (n : Nat) : Fld := .at (0x50301B + 0x40 * n) 7 1 0
def BRN_ECAUSE_CP (n : Nat) : Fld := .at (0x50301B + 0x40 * n) 4 3 0
def BRN_ECAUSE_CAUSE (n : Nat) : Fld := .at (0x50301B + 0x40 * n) 0 4 0
def BRN_EINFO_WORD (n : Nat) : Fld := .at (0x50301C + 0x40 * n) 0 24 0
def BRN_EADDR_ADDR (n : Nat) : Fld := .at (0x503020 + 0x40 * n) 0 24 0
def BRN_ISSUE (n : Nat) : Fld := .at (0x503024 + 0x40 * n) 0 32 0
def BRN_WPEND_PEND (n : Nat) : Fld := .at (0x503028 + 0x40 * n) 0 64 0
def BRN_RUNSET_RUN : Fld := .at 0x503400 0 16 1
def BRN_RESTSET_IDLE : Fld := .at 0x503402 0 16 0xFFFE
def BRN_GSTART_SET : Fld := .at 0x503404 0 16 0
def BRN_GPARK_SET : Fld := .at 0x503406 0 16 0
def BRN_ERR_ACCESSOR : Fld := .at 0x503408 3 5 0
def BRN_ERR_WERR : Fld := .at 0x503408 0 1 0
def BRN_SECBLK_BLK : Fld := .at 0x503500 0 20 0xFFFFF
def BRN_SECSRAM_BANK : Fld := .at 0x503504 0 16 0xFFFF
def BRN_SECMEM_FINE : Fld := .at 0x503506 6 1 1
def BRN_SECMEM_FLASH : Fld := .at 0x503506 2 4 0xF
def BRN_SECMEM_FBUF : Fld := .at 0x503506 1 1 1
def BRN_SECMEM_CTX : Fld := .at 0x503506 0 1 1
def BRN_SECLOCK_LOCK : Fld := .at 0x503508 0 1 0
def BRN_SECVIOL : Fld := .at 0x503600 0 16 0
def BRN_DBLFLT : Fld := .at 0x503602 0 16 0

/-! ### Timebase, base 504000h (spec/02_phase_timebase.md) -/

def TB_NOW_MCN : Fld := .at 0x504000 16 32 0
def TB_NOW_FRAC : Fld := .at 0x504000 0 16 0
def TB_SET_MCN : Fld := .at 0x504008 16 32 0
def TB_SET_FRAC : Fld := .at 0x504008 0 16 0
def TB_STAT_FINE : Fld := .at 0x504010 8 1 0
def TB_STAT_ANNPEND : Fld := .at 0x504010 7 1 0
def TB_STAT_ZCOK : Fld := .at 0x504010 6 1 0
def TB_STAT_OFSVAL : Fld := .at 0x504010 5 1 0
def TB_STAT_AMBIG : Fld := .at 0x504010 4 1 0
def TB_STAT_HOLD : Fld := .at 0x504010 3 1 0
def TB_STAT_VALID : Fld := .at 0x504010 2 1 0
def TB_STAT_STATE : Fld := .at 0x504010 0 2 0
def TB_CMD_VIRT : Fld := .at 0x504014 1 1 0
def TB_CMD_SEEK : Fld := .at 0x504014 0 1 0
def TB_CFG_AUTOLEARN : Fld := .at 0x504818 4 1 1
def TB_CFG_AUTOANN : Fld := .at 0x504818 3 1 1
def TB_CFG_EDGE : Fld := .at 0x504818 2 1 0
def TB_CFG_HZ : Fld := .at 0x504818 1 1 0
def TB_CFG_ZCEN : Fld := .at 0x504818 0 1 0
def TB_ZCFG_WIN : Fld := .at 0x50481A 8 8 0x20
def TB_ZCFG_MISS : Fld := .at 0x50481A 4 4 3
def TB_ZCFG_GLITCH : Fld := .at 0x50481A 0 4 4
def TB_LOOP_KI : Fld := .at 0x50481C 4 4 6
def TB_LOOP_KP : Fld := .at 0x50481C 0 4 2
def TB_ZCDLY_DLY : Fld := .at 0x50481E 0 16 0
def TB_INC_INC : Fld := .at 0x504020 0 32 0x64000000
def TB_OFS_VAL : Fld := .at 0x504024 16 1 0
def TB_OFS_OFS : Fld := .at 0x504024 0 16 0
def TB_PHASE_VALID : Fld := .at 0x504028 20 1 0
def TB_PHASE_CODE : Fld := .at 0x504028 16 4 0
def TB_PHASE_RESID : Fld := .at 0x504028 0 16 0
def TB_LEARN_REJMAX : Fld := .at 0x50402C 12 4 4
def TB_LEARN_SPREAD : Fld := .at 0x50402C 4 8 0x20
def TB_LEARN_N : Fld := .at 0x50402C 0 4 8
def TB_DRIFT_PPM : Fld := .at 0x50402E 0 8 0x28
def TB_SYNCAGE_AGE : Fld := .at 0x504030 0 32 0
def TB_UNC_UNC : Fld := .at 0x504034 0 16 0
def TB_SWMCN_MCN : Fld := .at 0x504038 0 32 0
def TB_SWCTL_BYMAC : Fld := .at 0x50403C 2 1 0
def TB_SWCTL_MODE : Fld := .at 0x50403C 0 2 0
def TB_CMP_MCN (n : Nat) : Fld := .at (0x504040 + 8 * n) 16 32 0
def TB_CMP_FRAC (n : Nat) : Fld := .at (0x504040 + 8 * n) 0 16 0
def TB_CMPPER_PER (n : Nat) : Fld := .at (0x504050 + 2 * n) 0 16 0
def TB_CMPCTL_LATE1 : Fld := .at 0x504054 3 1 0
def TB_CMPCTL_LATE0 : Fld := .at 0x504054 2 1 0
def TB_CMPCTL_EN1 : Fld := .at 0x504054 1 1 0
def TB_CMPCTL_EN0 : Fld := .at 0x504054 0 1 0
def TB_CYCDIV_DIV : Fld := .at 0x504058 0 4 0
def TB_FLAGS_OFSLOST : Fld := .at 0x50405C 3 1 0
def TB_FLAGS_FREQERR : Fld := .at 0x50405C 2 1 0
def TB_FLAGS_XKFAIL : Fld := .at 0x50405C 1 1 0
def TB_FLAGS_ANNLATE : Fld := .at 0x50405C 0 1 0
def TB_LATE_FIRE : Fld := .at 0x504060 0 16 0
def TB_ZCMISS : Fld := .at 0x504062 0 16 0
def TB_ZCSPUR : Fld := .at 0x504064 0 16 0
def TB_STEPS : Fld := .at 0x504066 0 16 0
def TB_LEARNREJ : Fld := .at 0x504068 0 16 0
def TB_AMBIG : Fld := .at 0x50406A 0 16 0
def TB_COMMIT_REASON : Fld := .at 0x5047F0 8 4 0
def TB_COMMIT_REJ : Fld := .at 0x5047F0 6 1 0
def TB_COMMIT_DONE : Fld := .at 0x5047F0 5 1 0
def TB_COMMIT_PEND : Fld := .at 0x5047F0 4 1 0
def TB_COMMIT_CANCEL : Fld := .at 0x5047F0 1 1 0
def TB_COMMIT_ARM : Fld := .at 0x5047F0 0 1 0
def TB_CMTCNT : Fld := .at 0x5047F2 0 16 0

/-! ### RTC, base 505000h (spec/14_rtc_calendar.md) -/

def RTC_CAL_YEAR : Fld := .at 0x505000 54 10 0
def RTC_CAL_MONTH : Fld := .at 0x505000 48 4 1
def RTC_CAL_DAY : Fld := .at 0x505000 40 5 1
def RTC_CAL_WDAY : Fld := .at 0x505000 37 3 6
def RTC_CAL_HOUR : Fld := .at 0x505000 32 5 0
def RTC_CAL_MIN : Fld := .at 0x505000 24 6 0
def RTC_CAL_SEC : Fld := .at 0x505000 16 6 0
def RTC_CAL_SUB : Fld := .at 0x505000 0 15 0
def RTC_CALSET_YEAR : Fld := .at 0x505008 54 10 0
def RTC_CALSET_MONTH : Fld := .at 0x505008 48 4 0
def RTC_CALSET_DAY : Fld := .at 0x505008 40 5 0
def RTC_CALSET_WDAY : Fld := .at 0x505008 37 3 0
def RTC_CALSET_HOUR : Fld := .at 0x505008 32 5 0
def RTC_CALSET_MIN : Fld := .at 0x505008 24 6 0
def RTC_CALSET_SEC : Fld := .at 0x505008 16 6 0
def RTC_CALSET_SUB : Fld := .at 0x505008 0 15 0
def RTC_SECCNT : Fld := .at 0x505010 0 32 0
def RTC_STAT_WRAP : Fld := .at 0x505018 5 1 0
def RTC_STAT_OSCFAIL : Fld := .at 0x505018 4 1 0
def RTC_STAT_XKRDY : Fld := .at 0x505018 3 1 0
def RTC_STAT_PENDING : Fld := .at 0x505018 2 1 0
def RTC_STAT_TIMEVALID : Fld := .at 0x505018 1 1 0
def RTC_STAT_CAL_INVALID : Fld := .at 0x505018 0 1 0
def RTC_ALM_YEAR (n : Nat) : Fld := .at (0x505020 + 0x10 * n) 54 10 0
def RTC_ALM_MONTH (n : Nat) : Fld := .at (0x505020 + 0x10 * n) 48 4 0
def RTC_ALM_DAY (n : Nat) : Fld := .at (0x505020 + 0x10 * n) 40 5 0
def RTC_ALM_WDAY (n : Nat) : Fld := .at (0x505020 + 0x10 * n) 37 3 0
def RTC_ALM_HOUR (n : Nat) : Fld := .at (0x505020 + 0x10 * n) 32 5 0
def RTC_ALM_MIN (n : Nat) : Fld := .at (0x505020 + 0x10 * n) 24 6 0
def RTC_ALM_SEC (n : Nat) : Fld := .at (0x505020 + 0x10 * n) 16 6 0
def RTC_ALM_SUB (n : Nat) : Fld := .at (0x505020 + 0x10 * n) 0 15 0
def RTC_ALMCTL_EN (n : Nat) : Fld := .at (0x505028 + 0x10 * n) 31 1 0
def RTC_ALMCTL_REPEAT (n : Nat) : Fld := .at (0x505028 + 0x10 * n) 0 24 0
def RTC_ALMSTAT_ALM_LATE1 : Fld := .at 0x505040 3 1 0
def RTC_ALMSTAT_ALM_LATE0 : Fld := .at 0x505040 2 1 0
def RTC_ALMSTAT_FIRED1 : Fld := .at 0x505040 1 1 0
def RTC_ALMSTAT_FIRED0 : Fld := .at 0x505040 0 1 0
def RTC_WAKECFG_EN : Fld := .at 0x505044 31 1 0
def RTC_WAKECFG_N : Fld := .at 0x505044 0 24 1
def RTC_COMPCTL_MODE : Fld := .at 0x505048 14 2 0
def RTC_COMPCTL_CALBAD : Fld := .at 0x505048 13 1 0
def RTC_COMPCTL_FIX : Fld := .at 0x505048 0 11 0
def RTC_COMPNOW_C : Fld := .at 0x50504A 0 11 0
def RTC_CURVE_QK : Fld := .at 0x505050 16 16 0
def RTC_CURVE_T0 : Fld := .at 0x505050 0 16 0
def RTC_CURVOFS_OFS : Fld := .at 0x505054 0 16 0
def RTC_RES_RES (n : Nat) : Fld := .at (0x505060 + 1 * n) 0 8 0
def RTC_PWRON_HOLD : Fld := .at 0x505070 8 8 0
def RTC_PWRON_POL : Fld := .at 0x505070 6 1 0
def RTC_PWRON_SW : Fld := .at 0x505070 5 1 0
def RTC_PWRON_LATCH : Fld := .at 0x505070 4 1 0
def RTC_PWRON_SRC : Fld := .at 0x505070 0 3 0
def RTC_TMPCFG_FILT (n : Nat) : Fld := .at (0x505078 + 2 * n) 12 4 0
def RTC_TMPCFG_WIPE (n : Nat) : Fld := .at (0x505078 + 2 * n) 4 1 0
def RTC_TMPCFG_KILL (n : Nat) : Fld := .at (0x505078 + 2 * n) 3 1 0
def RTC_TMPCFG_PULL (n : Nat) : Fld := .at (0x505078 + 2 * n) 2 1 0
def RTC_TMPCFG_LVL (n : Nat) : Fld := .at (0x505078 + 2 * n) 1 1 0
def RTC_TMPCFG_EN (n : Nat) : Fld := .at (0x505078 + 2 * n) 0 1 0
def RTC_TMPSTAT_PIN1 : Fld := .at 0x50507C 3 1 0
def RTC_TMPSTAT_PIN0 : Fld := .at 0x50507C 2 1 0
def RTC_TMPSTAT_TRIP1 : Fld := .at 0x50507C 1 1 0
def RTC_TMPSTAT_TRIP0 : Fld := .at 0x50507C 0 1 0
def RTC_TMPTS_YEAR (n : Nat) : Fld := .at (0x505080 + 8 * n) 54 10 0
def RTC_TMPTS_MONTH (n : Nat) : Fld := .at (0x505080 + 8 * n) 48 4 0
def RTC_TMPTS_DAY (n : Nat) : Fld := .at (0x505080 + 8 * n) 40 5 0
def RTC_TMPTS_WDAY (n : Nat) : Fld := .at (0x505080 + 8 * n) 37 3 0
def RTC_TMPTS_HOUR (n : Nat) : Fld := .at (0x505080 + 8 * n) 32 5 0
def RTC_TMPTS_MIN (n : Nat) : Fld := .at (0x505080 + 8 * n) 24 6 0
def RTC_TMPTS_SEC (n : Nat) : Fld := .at (0x505080 + 8 * n) 16 6 0
def RTC_TMPTS_SUB (n : Nat) : Fld := .at (0x505080 + 8 * n) 0 15 0
def RTC_BKP_BYTE (n : Nat) : Fld := .at (0x505100 + 1 * n) 0 8 0
def RTC_CALREJ : Fld := .at 0x505200 0 16 0

/-! ### Timers, base 506000h (spec/15_timers_lantern_io.md) -/

def TMR_CTL_CLEAR (n : Nat) : Fld := .at (0x506000 + 0x40 * n) 2 1 0
def TMR_CTL_STOP (n : Nat) : Fld := .at (0x506000 + 0x40 * n) 1 1 0
def TMR_CTL_START (n : Nat) : Fld := .at (0x506000 + 0x40 * n) 0 1 0
def TMR_STAT_PRELD (n : Nat) : Fld := .at (0x506001 + 0x40 * n) 7 1 0
def TMR_STAT_ENDF (n : Nat) : Fld := .at (0x506001 + 0x40 * n) 6 1 0
def TMR_STAT_CMPF (n : Nat) : Fld := .at (0x506001 + 0x40 * n) 5 1 0
def TMR_STAT_CAPOVRB (n : Nat) : Fld := .at (0x506001 + 0x40 * n) 4 1 0
def TMR_STAT_CAPNEWB (n : Nat) : Fld := .at (0x506001 + 0x40 * n) 3 1 0
def TMR_STAT_CAPOVRA (n : Nat) : Fld := .at (0x506001 + 0x40 * n) 2 1 0
def TMR_STAT_CAPNEWA (n : Nat) : Fld := .at (0x506001 + 0x40 * n) 1 1 0
def TMR_STAT_RUN (n : Nat) : Fld := .at (0x506001 + 0x40 * n) 0 1 0
def TMR_CFG_CAPBEDGE (n : Nat) : Fld := .at (0x506004 + 0x40 * n) 30 2 0
def TMR_CFG_CAPBPIN (n : Nat) : Fld := .at (0x506004 + 0x40 * n) 28 2 0
def TMR_CFG_CAPAEDGE (n : Nat) : Fld := .at (0x506004 + 0x40 * n) 26 2 0
def TMR_CFG_CAPAPIN (n : Nat) : Fld := .at (0x506004 + 0x40 * n) 24 2 0
def TMR_CFG_CNTEDGE (n : Nat) : Fld := .at (0x506004 + 0x40 * n) 10 2 1
def TMR_CFG_MODE (n : Nat) : Fld := .at (0x506004 + 0x40 * n) 8 2 0
def TMR_CFG_PS (n : Nat) : Fld := .at (0x506004 + 0x40 * n) 4 4 0
def TMR_CFG_SRC (n : Nat) : Fld := .at (0x506004 + 0x40 * n) 0 4 0
def TMR_CNT_VAL (n : Nat) : Fld := .at (0x506008 + 0x40 * n) 0 32 0
def TMR_TOP_VAL (n : Nat) : Fld := .at (0x50600C + 0x40 * n) 0 32 0xFFFFFFFF
def TMR_CMP_VAL (n : Nat) : Fld := .at (0x506010 + 0x40 * n) 0 32 0
def TMR_INTV_VAL (n : Nat) : Fld := .at (0x506014 + 0x40 * n) 0 32 0
def TMR_CAPA_VAL (n : Nat) : Fld := .at (0x506018 + 0x40 * n) 0 32 0
def TMR_CAPB_VAL (n : Nat) : Fld := .at (0x50601C + 0x40 * n) 0 32 0
def TMR_CMPACT_VAL (n : Nat) : Fld := .at (0x506020 + 0x40 * n) 0 32 0
def TMR_TOPACT_VAL (n : Nat) : Fld := .at (0x506024 + 0x40 * n) 0 32 0xFFFFFFFF
def TMR_PAIRCNT_HIGH (n : Nat) : Fld := .at (0x506400 + 0x20 * n) 32 32 0
def TMR_PAIRCNT_LOW (n : Nat) : Fld := .at (0x506400 + 0x20 * n) 0 32 0
def TMR_PAIRCAPA_HIGH (n : Nat) : Fld := .at (0x506408 + 0x20 * n) 32 32 0
def TMR_PAIRCAPA_LOW (n : Nat) : Fld := .at (0x506408 + 0x20 * n) 0 32 0
def TMR_PAIRCAPB_HIGH (n : Nat) : Fld := .at (0x506410 + 0x20 * n) 32 32 0
def TMR_PAIRCAPB_LOW (n : Nat) : Fld := .at (0x506410 + 0x20 * n) 0 32 0
def TMR_GSTART_SET : Fld := .at 0x506500 0 8 0
def TMR_GSTOP_SET : Fld := .at 0x506501 0 8 0
def TMR_GERR_CFGRUN : Fld := .at 0x506502 0 1 0

/-! ### Lantern I/O, base 507000h (spec/15_timers_lantern_io.md) -/

def LIO_CTL_GO : Fld := .at 0x507000 1 1 0
def LIO_CTL_EN : Fld := .at 0x507000 0 1 0
def LIO_STAT_CLKLOSS : Fld := .at 0x507002 7 1 0
def LIO_STAT_NOREF : Fld := .at 0x507002 6 1 1
def LIO_STAT_SAFE : Fld := .at 0x507002 5 1 1
def LIO_STAT_ADCBUSY : Fld := .at 0x507002 4 1 0
def LIO_STAT_OUT : Fld := .at 0x507002 0 4 0
def LIO_DIMCFG_MODE : Fld := .at 0x507804 31 1 0
def LIO_DIMCFG_CLK : Fld := .at 0x507804 30 1 0
def LIO_DIMCFG_M : Fld := .at 0x507804 27 3 0
def LIO_DIMCFG_PER : Fld := .at 0x507804 0 16 0x77F
def LIO_DIMPH_PH : Fld := .at 0x507808 0 16 0
def LIO_DIMOUT_RESTLVL : Fld := .at 0x50780A 8 4 0
def LIO_DIMOUT_POL : Fld := .at 0x50780A 4 4 0
def LIO_DIMOUT_EN : Fld := .at 0x50780A 0 4 0
def LIO_DIM_DUTY (n : Nat) : Fld := .at (0x507810 + 2 * n) 0 16 0
def LIO_RLYCFG_NOGRID (n : Nat) : Fld := .at (0x507020 + 4 * n) 31 1 0
def LIO_RLYCFG_DELAY (n : Nat) : Fld := .at (0x507020 + 4 * n) 16 14 0
def LIO_RLYCFG_ANGLE (n : Nat) : Fld := .at (0x507020 + 4 * n) 0 16 0
def LIO_RLYCMD_VAL : Fld := .at 0x507028 2 2 0
def LIO_RLYCMD_LEVEL : Fld := .at 0x507028 0 2 0
def LIO_RLYSTAT_LATE : Fld := .at 0x507029 4 2 0
def LIO_RLYSTAT_PEND : Fld := .at 0x507029 2 2 0
def LIO_RLYSTAT_LEVEL : Fld := .at 0x507029 0 2 0
def LIO_ADCCFG_TRIG : Fld := .at 0x507830 30 2 0
def LIO_ADCCFG_DIV : Fld := .at 0x507830 26 4 0
def LIO_ADCCFG_CHEN : Fld := .at 0x507830 20 4 0
def LIO_ADCCFG_DEB : Fld := .at 0x507830 16 4 3
def LIO_ADCCFG_PH : Fld := .at 0x507830 0 16 0
def LIO_ADC_VAL (n : Nat) : Fld := .at (0x507038 + 2 * n) 0 16 0
def LIO_THR_HI (n : Nat) : Fld := .at (0x507840 + 4 * n) 16 16 0xFFFF
def LIO_THR_LO (n : Nat) : Fld := .at (0x507840 + 4 * n) 0 16 0
def TRF_CFG_EN (n : Nat) : Fld := .at (0x507080 + 2 * n) 15 1 0
def TRF_CFG_LVL (n : Nat) : Fld := .at (0x507080 + 2 * n) 14 1 1
def TRF_CFG_FILT (n : Nat) : Fld := .at (0x507080 + 2 * n) 0 8 8
def TRF_CMD_SNAP : Fld := .at 0x5070B0 0 1 0
def TRF_STAT_SNAPF : Fld := .at 0x5070B1 5 1 0
def TRF_STAT_SATF : Fld := .at 0x5070B1 4 1 0
def TRF_STAT_STUCK : Fld := .at 0x5070B1 0 4 0
def TRF_SNAPTS_SEC : Fld := .at 0x5070B4 0 32 0
def TRF_EDGE_U (n : Nat) : Fld := .at (0x5078C0 + 2 * n) 0 16 (50 * 2 ^ n)
def TRF_GEDGE_U (n : Nat) : Fld := .at (0x5078D0 + 2 * n) 0 16 (512 * 2 ^ n)
def TRF_OCC (n : Nat) : Fld := .at (0x507100 + 2 * n) 0 16 0
def TRF_GAP (n : Nat) : Fld := .at (0x507140 + 2 * n) 0 16 0
def ADC_OVR : Fld := .at 0x507200 0 16 0
def RLY_NOANGLE : Fld := .at 0x507202 0 16 0
def RLY_CANCEL : Fld := .at 0x507204 0 16 0
def TRF_STUCKS : Fld := .at 0x507206 0 16 0
def LIO_COMMIT_REASON : Fld := .at 0x5077F0 8 4 0
def LIO_COMMIT_REJ : Fld := .at 0x5077F0 6 1 0
def LIO_COMMIT_DONE : Fld := .at 0x5077F0 5 1 0
def LIO_COMMIT_PEND : Fld := .at 0x5077F0 4 1 0
def LIO_COMMIT_CANCEL : Fld := .at 0x5077F0 1 1 0
def LIO_COMMIT_ARM : Fld := .at 0x5077F0 0 1 0
def LIO_CMTCNT : Fld := .at 0x5077F2 0 16 0

/-! ### Front end, base 508000h (spec/07_radio_frontend.md) -/

def FE_CTL_EN : Fld := .at 0x508000 0 1 0
def FE_CMD_ABORTTX : Fld := .at 0x508001 4 1 0
def FE_CMD_RETUNE : Fld := .at 0x508001 3 1 0
def FE_CMD_CAL : Fld := .at 0x508001 2 1 0
def FE_CMD_RXREL : Fld := .at 0x508001 1 1 0
def FE_CMD_RXREQ : Fld := .at 0x508001 0 1 0
def FE_STAT_LOCKFAIL : Fld := .at 0x508002 12 1 0
def FE_STAT_CMDERR : Fld := .at 0x508002 11 1 0
def FE_STAT_REFF : Fld := .at 0x508002 10 1 0
def FE_STAT_TXINH : Fld := .at 0x508002 9 1 0
def FE_STAT_RET : Fld := .at 0x508002 8 1 0
def FE_STAT_CALBAD : Fld := .at 0x508002 7 1 0
def FE_STAT_ONBAT : Fld := .at 0x508002 6 1 0
def FE_STAT_RXREQ : Fld := .at 0x508002 5 1 0
def FE_STAT_DCOK : Fld := .at 0x508002 4 1 0
def FE_STAT_LOCK : Fld := .at 0x508002 3 1 0
def FE_STAT_STATE : Fld := .at 0x508002 0 3 0
def FE_CFG_BAND : Fld := .at 0x508804 0 2 1
def FE_LO_INT : Fld := .at 0x508808 24 8 0x1B
def FE_LO_FRAC : Fld := .at 0x508808 0 24 0x226666
def FE_LOACT_LO : Fld := .at 0x50800C 0 32 0
def FE_AGC_FIX : Fld := .at 0x508010 15 1 0
def FE_AGC_IDX : Fld := .at 0x508010 8 5 0
def FE_AGC_HYST : Fld := .at 0x508010 4 4 3
def FE_AGC_TGT : Fld := .at 0x508010 0 4 9
def FE_AGCSTAT_GAIN : Fld := .at 0x508012 8 8 0
def FE_AGCSTAT_IDX : Fld := .at 0x508012 0 5 0
def FE_DC_DACQ : Fld := .at 0x508014 8 8 0
def FE_DC_DACI : Fld := .at 0x508014 0 8 0
def FE_TXCFG_MAXIDX : Fld := .at 0x508016 11 5 0x1F
def FE_TXCFG_BATMAX : Fld := .at 0x508016 6 5 0x1F
def FE_TXCFG_RAMP : Fld := .at 0x508016 0 5 7
def FE_REFLCFG_REFLMAX : Fld := .at 0x508018 12 4 4
def FE_REFLCFG_THR : Fld := .at 0x508018 8 4 6
def FE_REFLCFG_ACT : Fld := .at 0x508018 0 1 1
def FE_REFLMEAS_RL : Fld := .at 0x50801A 0 8 0xFF
def FE_TXREF_REFUSED : Fld := .at 0x50801B 7 1 0
def FE_TXREF_REASON : Fld := .at 0x50801B 0 4 0
def FE_TXSTAT_SB : Fld := .at 0x508020 42 3 0
def FE_TXSTAT_IDX : Fld := .at 0x508020 37 5 0
def FE_TXSTAT_CLAMP : Fld := .at 0x508020 36 1 0
def FE_TXSTAT_ABORTED : Fld := .at 0x508020 35 1 0
def FE_TXSTAT_AIR : Fld := .at 0x508020 0 32 0
def FE_CAL_SEL : Fld := .at 0x508028 0 3 7
def FE_CHCFG_WIN : Fld := .at 0x50802A 8 8 0x3C
def FE_CHCFG_THR : Fld := .at 0x50802A 0 8 8
def FE_CHMASK_MASK : Fld := .at 0x50802C 0 4 0xF
def FE_CHRET_RET : Fld := .at 0x50802E 0 16 0
def FE_CHF_EN (n : Nat) : Fld := .at (0x508040 + 8 * n) 31 1 0
def FE_CHF_BW (n : Nat) : Fld := .at (0x508040 + 8 * n) 25 2 0
def FE_CHF_FREQ (n : Nat) : Fld := .at (0x508040 + 8 * n) 0 25 0
def FE_CHST_HIST (n : Nat) : Fld := .at (0x508044 + 8 * n) 16 16 0
def FE_CHST_CUR (n : Nat) : Fld := .at (0x508044 + 8 * n) 0 16 0
def FE_SBLO_EN (n : Nat) : Fld := .at (0x508900 + 0x10 * n) 31 1 0
def FE_SBLO_KHZ (n : Nat) : Fld := .at (0x508900 + 0x10 * n) 0 20 0
def FE_SBHI_KHZ (n : Nat) : Fld := .at (0x508904 + 0x10 * n) 0 20 0
def FE_SBLIM_MAXTX (n : Nat) : Fld := .at (0x508908 + 0x10 * n) 24 8 0
def FE_SBLIM_LIMIT (n : Nat) : Fld := .at (0x508908 + 0x10 * n) 0 24 0
def FE_SBWIN_WIN (n : Nat) : Fld := .at (0x50890C + 0x10 * n) 0 16 0
def FE_SBUSED_US (n : Nat) : Fld := .at (0x508180 + 8 * n) 0 48 0
def FE_SBEXH_EXH : Fld := .at 0x5081C0 0 8 0
def FE_PWRTAB_VALID (n : Nat) : Fld := .at (0x508200 + 4 * n) 31 1 0
def FE_PWRTAB_AMP (n : Nat) : Fld := .at (0x508200 + 4 * n) 16 8 0
def FE_PWRTAB_GAIN (n : Nat) : Fld := .at (0x508200 + 4 * n) 8 8 0
def FE_PWRTAB_BIAS (n : Nat) : Fld := .at (0x508200 + 4 * n) 0 8 0
def FE_GAINTAB_VALID (n : Nat) : Fld := .at (0x508280 + 4 * n) 31 1 0
def FE_GAINTAB_GAIN (n : Nat) : Fld := .at (0x508280 + 4 * n) 16 8 0
def FE_GAINTAB_VGA (n : Nat) : Fld := .at (0x508280 + 4 * n) 8 8 0
def FE_GAINTAB_MIX (n : Nat) : Fld := .at (0x508280 + 4 * n) 4 4 0
def FE_GAINTAB_LNA (n : Nat) : Fld := .at (0x508280 + 4 * n) 0 4 0
def FE_UNLOCKS : Fld := .at 0x508300 0 16 0
def FE_REFLTRIP : Fld := .at 0x508302 0 16 0
def FE_AGCSTEP : Fld := .at 0x508304 0 16 0
def FE_PWRCLAMP : Fld := .at 0x508306 0 16 0
def FE_TXREFCNT : Fld := .at 0x508308 0 16 0
def FE_SBREF (n : Nat) : Fld := .at (0x508310 + 2 * n) 0 16 0
def FE_COMMIT_REASON : Fld := .at 0x5087F0 8 4 0
def FE_COMMIT_REJ : Fld := .at 0x5087F0 6 1 0
def FE_COMMIT_DONE : Fld := .at 0x5087F0 5 1 0
def FE_COMMIT_PEND : Fld := .at 0x5087F0 4 1 0
def FE_COMMIT_CANCEL : Fld := .at 0x5087F0 1 1 0
def FE_COMMIT_ARM : Fld := .at 0x5087F0 0 1 0
def FE_CMTCNT : Fld := .at 0x5087F2 0 16 0

/-! ### Chirp modem, base 509000h (spec/06_chirp_modem.md) -/

def MOD_CTL_LOPULL : Fld := .at 0x509000 1 1 1
def MOD_CTL_EN : Fld := .at 0x509000 0 1 0
def MOD_NID_NID : Fld := .at 0x509802 0 10 0
def MOD_CFG_PREMAX : Fld := .at 0x509804 8 7 0x40
def MOD_CFG_MAXDEM : Fld := .at 0x509804 0 5 0x10
def MOD_STAT_DEMCNT : Fld := .at 0x509006 8 5 0
def MOD_STAT_BUSY : Fld := .at 0x509006 0 8 0
def MOD_RET_RET : Fld := .at 0x509008 0 8 0
def MOD_PULL_ACTIVE : Fld := .at 0x50900C 31 1 0
def MOD_PULL_LANE : Fld := .at 0x50900C 28 3 0
def MOD_PULL_STEPS : Fld := .at 0x50900C 0 24 0
def MOD_TXP_OFS : Fld := .at 0x509010 35 16 0
def MOD_TXP_NID : Fld := .at 0x509010 25 10 0
def MOD_TXP_NPRE : Fld := .at 0x509010 18 7 0
def MOD_TXP_CHK : Fld := .at 0x509010 16 2 0
def MOD_TXP_RATE : Fld := .at 0x509010 14 2 0
def MOD_TXP_BW : Fld := .at 0x509010 12 2 0
def MOD_TXP_K : Fld := .at 0x509010 8 4 0
def MOD_TXP_LEN : Fld := .at 0x509010 0 8 0
def MOD_TXAIR_US : Fld := .at 0x509018 0 32 0
def DEMOD_FULL : Fld := .at 0x509020 0 16 0
def LO_PULL_HELD : Fld := .at 0x509022 0 16 0
def MOD_CMTHOLD : Fld := .at 0x509024 0 16 0
def LANE_CFG_EN (n : Nat) : Fld := .at (0x509900 + 0x40 * n) 15 1 0
def LANE_CFG_NIDANY (n : Nat) : Fld := .at (0x509900 + 0x40 * n) 10 1 0
def LANE_CFG_BW (n : Nat) : Fld := .at (0x509900 + 0x40 * n) 8 2 1
def LANE_CFG_ORD (n : Nat) : Fld := .at (0x509900 + 0x40 * n) 0 8 0
def LANE_CTL_ABORT (n : Nat) : Fld := .at (0x509102 + 0x40 * n) 1 1 0
def LANE_CTL_SRCH (n : Nat) : Fld := .at (0x509102 + 0x40 * n) 0 1 0
def LANE_STAT_RET (n : Nat) : Fld := .at (0x509103 + 0x40 * n) 7 1 0
def LANE_STAT_STA (n : Nat) : Fld := .at (0x509103 + 0x40 * n) 4 3 0
def LANE_STAT_STB (n : Nat) : Fld := .at (0x509103 + 0x40 * n) 1 3 0
def LANE_STAT_LIVE (n : Nat) : Fld := .at (0x509103 + 0x40 * n) 0 1 0
def LANE_OFS_OFS (n : Nat) : Fld := .at (0x509904 + 0x40 * n) 0 16 0
def LANE_PWR_PWR (n : Nat) : Fld := .at (0x509106 + 0x40 * n) 0 16 0x8000
def LANE_RES_NID (n : Nat) : Fld := .at (0x509108 + 0x40 * n) 24 10 0
def LANE_RES_SLOT (n : Nat) : Fld := .at (0x509108 + 0x40 * n) 20 1 0
def LANE_RES_STATUS (n : Nat) : Fld := .at (0x509108 + 0x40 * n) 16 4 0
def LANE_RES_CHK (n : Nat) : Fld := .at (0x509108 + 0x40 * n) 14 2 0
def LANE_RES_RATE (n : Nat) : Fld := .at (0x509108 + 0x40 * n) 12 2 0
def LANE_RES_K (n : Nat) : Fld := .at (0x509108 + 0x40 * n) 8 4 0
def LANE_RES_LEN (n : Nat) : Fld := .at (0x509108 + 0x40 * n) 0 8 0
def LANE_META_FOFS (n : Nat) : Fld := .at (0x509110 + 0x40 * n) 32 24 0
def LANE_META_SNR (n : Nat) : Fld := .at (0x509110 + 0x40 * n) 16 16 0
def LANE_META_RSSI (n : Nat) : Fld := .at (0x509110 + 0x40 * n) 0 16 0
def LANE_TS_MCN (n : Nat) : Fld := .at (0x509118 + 0x40 * n) 16 32 0
def LANE_TS_FRAC (n : Nat) : Fld := .at (0x509118 + 0x40 * n) 0 16 0
def RX_ABORT_TX (n : Nat) : Fld := .at (0x509120 + 0x40 * n) 0 16 0
def RX_ABORT_FE (n : Nat) : Fld := .at (0x509122 + 0x40 * n) 0 16 0
def LANE_GOOD (n : Nat) : Fld := .at (0x509124 + 0x40 * n) 0 16 0
def LANE_CRCBAD (n : Nat) : Fld := .at (0x509126 + 0x40 * n) 0 16 0
def LANE_HDRBAD (n : Nat) : Fld := .at (0x509128 + 0x40 * n) 0 16 0
def LANE_NIDMISS (n : Nat) : Fld := .at (0x50912A + 0x40 * n) 0 16 0
def LANE_NOMARK (n : Nat) : Fld := .at (0x50912C + 0x40 * n) 0 16 0
def LANE_SAMEORD (n : Nat) : Fld := .at (0x50912E + 0x40 * n) 0 16 0
def LANE_LOST (n : Nat) : Fld := .at (0x509130 + 0x40 * n) 0 16 0
def LANE_INTERR (n : Nat) : Fld := .at (0x509132 + 0x40 * n) 0 16 0
def MOD_COMMIT_REASON : Fld := .at 0x5097F0 8 4 0
def MOD_COMMIT_REJ : Fld := .at 0x5097F0 6 1 0
def MOD_COMMIT_DONE : Fld := .at 0x5097F0 5 1 0
def MOD_COMMIT_PEND : Fld := .at 0x5097F0 4 1 0
def MOD_COMMIT_CANCEL : Fld := .at 0x5097F0 1 1 0
def MOD_COMMIT_ARM : Fld := .at 0x5097F0 0 1 0
def MOD_CMTCNT : Fld := .at 0x5097F2 0 16 0

/-! ### Column ports, base 50A000h (spec/08_column_link.md) -/

def CP_CTL_EN (p : Nat) : Fld := .at (0x50A000 + 0x1000 * p) 0 1 0
def CP_CMD_REINST (p : Nat) : Fld := .at (0x50A001 + 0x1000 * p) 4 1 0
def CP_CMD_REFL (p : Nat) : Fld := .at (0x50A001 + 0x1000 * p) 3 1 0
def CP_CMD_SNAP (p : Nat) : Fld := .at (0x50A001 + 0x1000 * p) 2 1 0
def CP_CMD_RETRAIN (p : Nat) : Fld := .at (0x50A001 + 0x1000 * p) 1 1 0
def CP_CMD_DOWN (p : Nat) : Fld := .at (0x50A001 + 0x1000 * p) 0 1 0
def CP_STAT_PRET (p : Nat) : Fld := .at (0x50A002 + 0x1000 * p) 15 1 0
def CP_STAT_RET (p : Nat) : Fld := .at (0x50A002 + 0x1000 * p) 14 1 0
def CP_STAT_REFF (p : Nat) : Fld := .at (0x50A002 + 0x1000 * p) 13 1 0
def CP_STAT_CMDERR (p : Nat) : Fld := .at (0x50A002 + 0x1000 * p) 12 1 0
def CP_STAT_WARMUSED (p : Nat) : Fld := .at (0x50A002 + 0x1000 * p) 11 1 0
def CP_STAT_RSON (p : Nat) : Fld := .at (0x50A002 + 0x1000 * p) 10 1 0
def CP_STAT_BAUD (p : Nat) : Fld := .at (0x50A002 + 0x1000 * p) 9 1 0
def CP_STAT_PAM (p : Nat) : Fld := .at (0x50A002 + 0x1000 * p) 7 2 0
def CP_STAT_BLK (p : Nat) : Fld := .at (0x50A002 + 0x1000 * p) 6 1 0
def CP_STAT_STAGE (p : Nat) : Fld := .at (0x50A002 + 0x1000 * p) 3 3 0
def CP_STAT_STATE (p : Nat) : Fld := .at (0x50A002 + 0x1000 * p) 0 3 0
def CP_CFG_MARGIN (p : Nat) : Fld := .at (0x50A804 + 0x1000 * p) 12 4 3
def CP_CFG_FALLBACK (p : Nat) : Fld := .at (0x50A804 + 0x1000 * p) 7 1 1
def CP_CFG_WARM (p : Nat) : Fld := .at (0x50A804 + 0x1000 * p) 6 1 1
def CP_CFG_RS (p : Nat) : Fld := .at (0x50A804 + 0x1000 * p) 5 1 0
def CP_CFG_MAXPAM (p : Nat) : Fld := .at (0x50A804 + 0x1000 * p) 3 2 3
def CP_CFG_BAUD (p : Nat) : Fld := .at (0x50A804 + 0x1000 * p) 2 1 0
def CP_CFG_ROLE (p : Nat) : Fld := .at (0x50A804 + 0x1000 * p) 0 1 (p % 2)
def CP_SNR_FAR (p : Nat) : Fld := .at (0x50A006 + 0x1000 * p) 8 8 0
def CP_SNR_OWN (p : Nat) : Fld := .at (0x50A006 + 0x1000 * p) 0 8 0
def CP_TRFAIL_STAGE (p : Nat) : Fld := .at (0x50A008 + 0x1000 * p) 4 4 0
def CP_TRFAIL_REASON (p : Nat) : Fld := .at (0x50A008 + 0x1000 * p) 0 4 0
def CP_LOS_THR (p : Nat) : Fld := .at (0x50A809 + 0x1000 * p) 0 5 0x14
def CP_RETRY_WAIT (p : Nat) : Fld := .at (0x50A00A + 0x1000 * p) 0 8 0xA
def CP_ERRCFG_ACT (p : Nat) : Fld := .at (0x50A00B + 0x1000 * p) 7 1 0
def CP_ERRCFG_THR (p : Nat) : Fld := .at (0x50A00B + 0x1000 * p) 0 7 0x20
def CP_SNAP_EN (p : Nat) : Fld := .at (0x50A00C + 0x1000 * p) 7 1 0
def CP_SNAP_OFS (p : Nat) : Fld := .at (0x50A00C + 0x1000 * p) 0 6 0
def CP_TRTIME_US (p : Nat) : Fld := .at (0x50A010 + 0x1000 * p) 0 32 0
def CP_REFLCFG_VF (p : Nat) : Fld := .at (0x50A814 + 0x1000 * p) 8 8 0x42
def CP_REFLCFG_SKIP (p : Nat) : Fld := .at (0x50A814 + 0x1000 * p) 0 8 4
def CP_FAULT_VALID (p : Nat) : Fld := .at (0x50A018 + 0x1000 * p) 33 1 0
def CP_FAULT_SIGN (p : Nat) : Fld := .at (0x50A018 + 0x1000 * p) 32 1 0
def CP_FAULT_MAG (p : Nat) : Fld := .at (0x50A018 + 0x1000 * p) 16 16 0
def CP_FAULT_DIST (p : Nat) : Fld := .at (0x50A018 + 0x1000 * p) 0 16 0
def CP_RXOK (p : Nat) : Fld := .at (0x50A100 + 0x1000 * p) 0 16 0
def CP_TXOK (p : Nat) : Fld := .at (0x50A102 + 0x1000 * p) 0 16 0
def CP_CRCERR (p : Nat) : Fld := .at (0x50A104 + 0x1000 * p) 0 16 0
def CP_BLKERR (p : Nat) : Fld := .at (0x50A106 + 0x1000 * p) 0 16 0
def CP_RUNT (p : Nat) : Fld := .at (0x50A108 + 0x1000 * p) 0 16 0
def CP_LONG (p : Nat) : Fld := .at (0x50A10A + 0x1000 * p) 0 16 0
def CP_RXERRT (p : Nat) : Fld := .at (0x50A10C + 0x1000 * p) 0 16 0
def CP_RXABORT (p : Nat) : Fld := .at (0x50A10E + 0x1000 * p) 0 16 0
def CP_TXABORT (p : Nat) : Fld := .at (0x50A110 + 0x1000 * p) 0 16 0
def CP_TXUNDER (p : Nat) : Fld := .at (0x50A112 + 0x1000 * p) 0 16 0
def CP_LOSCNT (p : Nat) : Fld := .at (0x50A114 + 0x1000 * p) 0 16 0
def CP_TRFAILS (p : Nat) : Fld := .at (0x50A116 + 0x1000 * p) 0 16 0
def CP_RSCORR (p : Nat) : Fld := .at (0x50A118 + 0x1000 * p) 0 16 0
def CP_RSUNC (p : Nat) : Fld := .at (0x50A11A + 0x1000 * p) 0 16 0
def CP_REFLT_TAP (p k : Nat) : Fld := .at (0x50A200 + 0x1000 * p + 2 * k) 0 16 0
def CP_COMMIT_REASON (p : Nat) : Fld := .at (0x50A7F0 + 0x1000 * p) 8 4 0
def CP_COMMIT_REJ (p : Nat) : Fld := .at (0x50A7F0 + 0x1000 * p) 6 1 0
def CP_COMMIT_DONE (p : Nat) : Fld := .at (0x50A7F0 + 0x1000 * p) 5 1 0
def CP_COMMIT_PEND (p : Nat) : Fld := .at (0x50A7F0 + 0x1000 * p) 4 1 0
def CP_COMMIT_CANCEL (p : Nat) : Fld := .at (0x50A7F0 + 0x1000 * p) 1 1 0
def CP_COMMIT_ARM (p : Nat) : Fld := .at (0x50A7F0 + 0x1000 * p) 0 1 0
def CP_CMTCNT (p : Nat) : Fld := .at (0x50A7F2 + 0x1000 * p) 0 16 0

/-! ### MAC, base 50C000h (spec/09_link_mac.md) -/

def MAC_CTL_LISTEN : Fld := .at 0x50C000 3 1 0
def MAC_CTL_TXHALT : Fld := .at 0x50C000 2 1 0
def MAC_CTL_AUTOACK : Fld := .at 0x50C000 1 1 1
def MAC_CTL_EN : Fld := .at 0x50C000 0 1 0
def MAC_STAT_GUARDSAT : Fld := .at 0x50C002 4 1 0
def MAC_STAT_WIN : Fld := .at 0x50C002 3 1 0
def MAC_STAT_AWAIT : Fld := .at 0x50C002 2 1 0
def MAC_STAT_ACKOWED : Fld := .at 0x50C002 1 1 0
def MAC_STAT_TXACT : Fld := .at 0x50C002 0 1 0
def MAC_SHORT_ADDR : Fld := .at 0x50C804 0 16 0xFFFE
def MAC_FILT_PROMISC : Fld := .at 0x50C806 10 1 0
def MAC_FILT_LOCEN : Fld := .at 0x50C806 9 1 0
def MAC_FILT_BCAST : Fld := .at 0x50C806 8 1 1
def MAC_FILT_GRPEN : Fld := .at 0x50C806 0 8 0
def MAC_EXT_EUI : Fld := .at 0x50C008 0 64 0
def MAC_LOC_CODE : Fld := .at 0x50C810 0 32 0
def MAC_GRP_ADDR (n : Nat) : Fld := .at (0x50C814 + 2 * n) 0 16 0xFFFE
def MAC_TPAR_ADDR : Fld := .at 0x50C824 0 16 0xFFFF
def MAC_GUARD_G0 : Fld := .at 0x50C826 0 16 0x100
def MAC_LEAD_US : Fld := .at 0x50C828 0 16 0x190
def MAC_ACKCFG_PWIN : Fld := .at 0x50C82A 8 8 0
def MAC_ACKCFG_PWR : Fld := .at 0x50C82A 0 5 0x17
def MAC_RETRY_BEMAX : Fld := .at 0x50C82C 12 4 5
def MAC_RETRY_BEMIN : Fld := .at 0x50C82C 8 4 3
def MAC_RETRY_CCAMAX : Fld := .at 0x50C82C 4 3 4
def MAC_RETRY_MAX : Fld := .at 0x50C82C 0 3 3
def MAC_CCA_MODE : Fld := .at 0x50C82E 0 2 3
def MAC_CCATHR_THR : Fld := .at 0x50C830 0 16 0xFE70
def MAC_BCASTCNT_CNT : Fld := .at 0x50C034 0 32 0
def MAC_TXSTAT_PEND : Fld := .at 0x50C038 12 1 0
def MAC_TXSTAT_ATTEMPTS : Fld := .at 0x50C038 8 4 0
def MAC_TXSTAT_FEREASON : Fld := .at 0x50C038 4 4 0
def MAC_TXSTAT_RESULT : Fld := .at 0x50C038 0 4 0
def MAC_PROF_PWR (n : Nat) : Fld := .at (0x50C840 + 8 * n) 32 5 0x17
def MAC_PROF_NPRE (n : Nat) : Fld := .at (0x50C840 + 8 * n) 24 7 0xC
def MAC_PROF_RATE (n : Nat) : Fld := .at (0x50C840 + 8 * n) 22 2 0
def MAC_PROF_BW (n : Nat) : Fld := .at (0x50C840 + 8 * n) 20 2 1
def MAC_PROF_K (n : Nat) : Fld := .at (0x50C840 + 8 * n) 16 4 7
def MAC_PROF_OFS (n : Nat) : Fld := .at (0x50C840 + 8 * n) 0 16 0
def MAC_BCN_EN : Fld := .at 0x50C880 63 1 0
def MAC_BCN_PROF : Fld := .at 0x50C880 48 3 0
def MAC_BCN_PER : Fld := .at 0x50C880 32 16 0
def MAC_BCN_CYC : Fld := .at 0x50C880 16 16 0
def MAC_BCN_FRAC : Fld := .at 0x50C880 0 16 0
def MAC_BCNSEQ_SEQ : Fld := .at 0x50C088 0 8 0
def MAC_WAKE_EN (n : Nat) : Fld := .at (0x50C900 + 8 * n) 63 1 0
def MAC_WAKE_LEN (n : Nat) : Fld := .at (0x50C900 + 8 * n) 48 15 0
def MAC_WAKE_PER (n : Nat) : Fld := .at (0x50C900 + 8 * n) 32 16 0
def MAC_WAKE_CYC (n : Nat) : Fld := .at (0x50C900 + 8 * n) 16 16 0
def MAC_WAKE_FRAC (n : Nat) : Fld := .at (0x50C900 + 8 * n) 0 16 0
def TX_DEFER (n : Nat) : Fld := .at (0x50C200 + 2 * n) 0 16 0
def BCN_SKIP : Fld := .at 0x50C20A 0 16 0
def ACK_DUTY_DROP : Fld := .at 0x50C20C 0 16 0
def ACK_LOST : Fld := .at 0x50C20E 0 16 0
def MAC_DUP : Fld := .at 0x50C210 0 16 0
def MAC_REPLAY : Fld := .at 0x50C212 0 16 0
def MAC_SECFAIL : Fld := .at 0x50C214 0 16 0
def MAC_FMTERR : Fld := .at 0x50C216 0 16 0
def MAC_FILTDROP : Fld := .at 0x50C218 0 16 0
def MAC_NOACK : Fld := .at 0x50C21A 0 16 0
def MAC_TXFAILS : Fld := .at 0x50C21C 0 16 0
def MAC_CCABUSYS : Fld := .at 0x50C21E 0 16 0
def MAC_WINEMPTIES : Fld := .at 0x50C220 0 16 0
def MAC_WINSKIP : Fld := .at 0x50C222 0 16 0
def MAC_RXOK : Fld := .at 0x50C224 0 16 0
def MAC_NOKEY : Fld := .at 0x50C226 0 16 0
def MAC_COMMIT_REASON : Fld := .at 0x50C7F0 8 4 0
def MAC_COMMIT_REJ : Fld := .at 0x50C7F0 6 1 0
def MAC_COMMIT_DONE : Fld := .at 0x50C7F0 5 1 0
def MAC_COMMIT_PEND : Fld := .at 0x50C7F0 4 1 0
def MAC_COMMIT_CANCEL : Fld := .at 0x50C7F0 1 1 0
def MAC_COMMIT_ARM : Fld := .at 0x50C7F0 0 1 0
def MAC_CMTCNT : Fld := .at 0x50C7F2 0 16 0

/-! ### Forwarding, base 50D000h (spec/10_forwarding.md) -/

def FWD_CTL_HOLDQ : Fld := .at 0x50D000 2 1 0
def FWD_CTL_CTEN : Fld := .at 0x50D000 1 1 1
def FWD_CTL_EN : Fld := .at 0x50D000 0 1 0
def FWD_CFG_NCTX : Fld := .at 0x50D802 10 6 0
def FWD_CFG_NOCTX : Fld := .at 0x50D802 8 2 1
def FWD_CFG_REFILL : Fld := .at 0x50D802 0 8 8
def FWD_STAT_FRAMES : Fld := .at 0x50D004 16 9 0
def FWD_STAT_FREE : Fld := .at 0x50D004 0 10 0x200
def FWD_LOWCELL_THR : Fld := .at 0x50D008 0 10 0x40
def FWD_AGE_CYC : Fld := .at 0x50D00A 0 16 0
def FWD_CTRWARN_LEVEL : Fld := .at 0x50D00C 0 32 0xF0000000
def FWD_CTXCMD_OP : Fld := .at 0x50D010 14 2 0
def FWD_CTXCMD_ERR : Fld := .at 0x50D010 13 1 0
def FWD_CTXCMD_CTX : Fld := .at 0x50D010 0 9 0
def FWD_CTXMASK_MASK : Fld := .at 0x50D012 0 16 0xFFFF
def FWD_LIDCFG_GUARD : Fld := .at 0x50D014 0 8 0xA
def FWD_TADDR_TBL : Fld := .at 0x50D018 12 4 0
def FWD_TADDR_ACT : Fld := .at 0x50D018 11 1 0
def FWD_TADDR_INDEX : Fld := .at 0x50D018 0 8 0
def FWD_TERR_REASON : Fld := .at 0x50D01A 1 2 0
def FWD_TERR_TERR : Fld := .at 0x50D01A 0 1 0
def FWD_TDATA_DATA : Fld := .at 0x50D020 0 64 0
def FWD_GCTL_EN (n : Nat) : Fld := .at (0x50D840 + 0x10 * n) 15 1 0
def FWD_GCTL_BANK (n : Nat) : Fld := .at (0x50D840 + 0x10 * n) 14 1 0
def FWD_GCTL_NENT (n : Nat) : Fld := .at (0x50D840 + 0x10 * n) 0 7 0
def FWD_GSTAT_DRAINF (n : Nat) : Fld := .at (0x50D042 + 0x10 * n) 9 1 0
def FWD_GSTAT_RUNBANK (n : Nat) : Fld := .at (0x50D042 + 0x10 * n) 8 1 0
def FWD_GSTAT_CYCF (n : Nat) : Fld := .at (0x50D042 + 0x10 * n) 7 1 0
def FWD_GSTAT_GAP (n : Nat) : Fld := .at (0x50D042 + 0x10 * n) 6 1 0
def FWD_GSTAT_ENTRY (n : Nat) : Fld := .at (0x50D042 + 0x10 * n) 0 6 0
def FWD_GBASE_MCN (n : Nat) : Fld := .at (0x50D848 + 0x10 * n) 16 32 0
def FWD_GBASE_FRAC (n : Nat) : Fld := .at (0x50D848 + 0x10 * n) 0 16 0
def FWD_LRXD_VALID : Fld := .at 0x50D0A0 63 1 0
def FWD_LRXD_KNEXT : Fld := .at 0x50D0A0 41 1 0
def FWD_LRXD_COPY : Fld := .at 0x50D0A0 40 1 0
def FWD_LRXD_FRAME : Fld := .at 0x50D0A0 32 8 0
def FWD_LRXD_CLASS : Fld := .at 0x50D0A0 29 3 0
def FWD_LRXD_CTX : Fld := .at 0x50D0A0 20 9 0
def FWD_LRXD_CTXV : Fld := .at 0x50D0A0 19 1 0
def FWD_LRXD_PORT : Fld := .at 0x50D0A0 16 3 0
def FWD_LRXD_HLEN : Fld := .at 0x50D0A0 11 5 0
def FWD_LRXD_LEN : Fld := .at 0x50D0A0 0 11 0
def FWD_LRXCELLS_CELLS : Fld := .at 0x50D0A8 0 54 0
def FWD_LRXPOP_POP : Fld := .at 0x50D0B0 0 1 0
def FWD_ALLOC_LEN : Fld := .at 0x50D0B2 0 11 0
def FWD_ALLOCRES_OK : Fld := .at 0x50D0B8 63 1 0
def FWD_ALLOCRES_FAIL : Fld := .at 0x50D0B8 62 1 0
def FWD_ALLOCRES_FRAME : Fld := .at 0x50D0B8 54 8 0
def FWD_ALLOCRES_CELLS : Fld := .at 0x50D0B8 0 54 0
def FWD_SUBMIT_TYPE : Fld := .at 0x50D0C0 38 1 0
def FWD_SUBMIT_COLOUR : Fld := .at 0x50D0C0 36 2 0
def FWD_SUBMIT_DEPTH : Fld := .at 0x50D0C0 33 3 0
def FWD_SUBMIT_LOCV : Fld := .at 0x50D0C0 32 1 0
def FWD_SUBMIT_CLASS : Fld := .at 0x50D0C0 29 3 0
def FWD_SUBMIT_MODE : Fld := .at 0x50D0C0 28 1 0
def FWD_SUBMIT_CTX : Fld := .at 0x50D0C0 19 9 0
def FWD_SUBMIT_LEN : Fld := .at 0x50D0C0 8 11 0
def FWD_SUBMIT_FRAME : Fld := .at 0x50D0C0 0 8 0
def FWD_FREE_FRAME : Fld := .at 0x50D0C8 0 8 0
def FWD_LERR_BADSUB : Fld := .at 0x50D0C9 1 1 0
def FWD_LERR_BADFR : Fld := .at 0x50D0C9 0 1 0
def FWD_SUBLOC_CODE : Fld := .at 0x50D0D0 0 32 0
def FWD_CTXBUF_BYTE (n : Nat) : Fld := .at (0x50D100 + 1 * n) 0 8 0
def FB_DROP (n : Nat) : Fld := .at (0x50D200 + 2 * n) 0 16 0
def CT_FALLBACK : Fld := .at 0x50D20A 0 16 0
def FWD_LINKDOWN : Fld := .at 0x50D20C 0 16 0
def GATE_HOLD : Fld := .at 0x50D20E 0 16 0
def FWD_NOTRANSIT : Fld := .at 0x50D210 0 16 0
def FWD_NOROUTE : Fld := .at 0x50D212 0 16 0
def FWD_NOCTX : Fld := .at 0x50D214 0 16 0
def FWD_POLICE : Fld := .at 0x50D216 0 16 0
def FWD_REDDROP : Fld := .at 0x50D218 0 16 0
def FWD_YDROP : Fld := .at 0x50D21A 0 16 0
def FWD_QDROP : Fld := .at 0x50D21C 0 16 0
def FWD_LIDHOLD : Fld := .at 0x50D21E 0 16 0
def FWD_AGEDROP : Fld := .at 0x50D220 0 16 0
def FWD_SLOTMISS : Fld := .at 0x50D222 0 16 0
def FWD_RESTDROP : Fld := .at 0x50D224 0 16 0
def FWD_TXREFDROP : Fld := .at 0x50D226 0 16 0
def FWD_CTOK : Fld := .at 0x50D228 0 16 0
def FWD_ROUTEDROP : Fld := .at 0x50D22A 0 16 0
def FWD_TOOLONG : Fld := .at 0x50D22C 0 16 0
def FWD_CTREXH : Fld := .at 0x50D22E 0 16 0
def FWD_COMMIT_REASON : Fld := .at 0x50D7F0 8 4 0
def FWD_COMMIT_REJ : Fld := .at 0x50D7F0 6 1 0
def FWD_COMMIT_DONE : Fld := .at 0x50D7F0 5 1 0
def FWD_COMMIT_PEND : Fld := .at 0x50D7F0 4 1 0
def FWD_COMMIT_CANCEL : Fld := .at 0x50D7F0 1 1 0
def FWD_COMMIT_ARM : Fld := .at 0x50D7F0 0 1 0
def FWD_CMTCNT : Fld := .at 0x50D7F2 0 16 0

/-! ### Cipher/Larder, base 50E000h (spec/11_cipher_larder.md) -/

def CIPH_CTL_AUTOROT : Fld := .at 0x50E000 1 1 0
def CIPH_CTL_EN : Fld := .at 0x50E000 0 1 0
def CIPH_STAT_BURNER : Fld := .at 0x50E002 4 4 0
def CIPH_STAT_RET : Fld := .at 0x50E002 3 1 0
def CIPH_STAT_INLINE : Fld := .at 0x50E002 1 1 0
def CIPH_STAT_BUSY : Fld := .at 0x50E002 0 1 0
def LARDER_POLICY_MODE : Fld := .at 0x50E004 0 1 0
def LAR_STAT_READY : Fld := .at 0x50E006 4 1 0
def LAR_STAT_LOST : Fld := .at 0x50E006 3 1 0
def LAR_STAT_LWKOK : Fld := .at 0x50E006 2 1 0
def LAR_STAT_ERASING : Fld := .at 0x50E006 1 1 0
def LAR_STAT_ALARM : Fld := .at 0x50E006 0 1 0
def LAR_ALMEN_EN : Fld := .at 0x50E008 0 7 0x3C
def LAR_ALMSRC_SRC : Fld := .at 0x50E009 0 7 0
def LAR_TEMPLIM_HI : Fld := .at 0x50E00A 8 8 0x82
def LAR_TEMPLIM_LO : Fld := .at 0x50E00A 0 8 0xCE
def LAR_ATTR_VALID (n : Nat) : Fld := .at (0x50E100 + 2 * n) 15 1 0
def LAR_ATTR_PERS (n : Nat) : Fld := .at (0x50E100 + 2 * n) 14 1 0
def LAR_ATTR_ATTR (n : Nat) : Fld := .at (0x50E100 + 2 * n) 0 8 0
def CIPH_SW_WAIT : Fld := .at 0x50E300 0 16 0
def CIPH_ALARM_ABORT : Fld := .at 0x50E302 0 16 0
def CIPH_TAGFAILS : Fld := .at 0x50E304 0 16 0
def CIPH_KEYERR : Fld := .at 0x50E306 0 16 0
def LAR_IMPFAIL : Fld := .at 0x50E308 0 16 0
def LAR_ALARMS : Fld := .at 0x50E30A 0 16 0

/-! ### Flash controller, base 50F000h (spec/12_flash.md) -/

def FL_CMD_OP : Fld := .at 0x50F000 0 3 0
def FL_ADDR_ADDR : Fld := .at 0x50F004 0 24 0
def FL_SRC_ADDR : Fld := .at 0x50F008 0 24 0
def FL_WDATA_DATA : Fld := .at 0x50F010 0 64 0
def FL_META_META (n : Nat) : Fld := .at (0x50F018 + 8 * n) 0 64 0
def FL_RMETA_META (n : Nat) : Fld := .at (0x50F028 + 8 * n) 0 64 0
def FL_STAT_RET : Fld := .at 0x50F040 9 1 0
def FL_STAT_UNCF : Fld := .at 0x50F040 8 1 0
def FL_STAT_ERASE_SLOW : Fld := .at 0x50F040 7 1 0
def FL_STAT_RETRYF : Fld := .at 0x50F040 6 1 0
def FL_STAT_READY : Fld := .at 0x50F040 5 1 0
def FL_STAT_BUSY : Fld := .at 0x50F040 4 1 0
def FL_STAT_LARPEND : Fld := .at 0x50F040 3 1 0
def FL_STAT_STATE : Fld := .at 0x50F040 0 3 0
def FL_RESULT_CODE : Fld := .at 0x50F042 0 4 0
def FL_NEXT_FULL : Fld := .at 0x50F044 7 1 0
def FL_NEXT_PAGE : Fld := .at 0x50F044 0 7 0
def FL_ERASEINFO_PULSES : Fld := .at 0x50F048 24 8 0
def FL_ERASEINFO_COUNT : Fld := .at 0x50F048 0 24 0
def FL_ECCCFG_THR : Fld := .at 0x50F04C 0 4 4
def FL_WEARCFG_SLOWP : Fld := .at 0x50F04E 8 8 0x14
def FL_WEARCFG_SLOWPF : Fld := .at 0x50F04E 0 8 0xC
def FL_LASTRD_SHIFT : Fld := .at 0x50F050 5 3 0
def FL_LASTRD_CORR : Fld := .at 0x50F050 0 4 0
def FL_ERRADDR_ADDR : Fld := .at 0x50F054 0 24 0
def FL_WEARSEL_UNIT : Fld := .at 0x50F058 0 8 0
def FL_WEAR_RET : Fld := .at 0x50F05C 31 1 0
def FL_WEAR_HALF : Fld := .at 0x50F05C 30 1 0
def FL_WEAR_SLOW : Fld := .at 0x50F05C 29 1 0
def FL_WEAR_COUNT : Fld := .at 0x50F05C 0 24 0
def FL_RETMAIN_UNIT : Fld := .at 0x50F060 0 64 0
def FL_HALFMAIN_UNIT : Fld := .at 0x50F068 0 64 0
def FL_WPMAIN_WP : Fld := .at 0x50F070 0 64 0
def FL_WPFINE0_WP : Fld := .at 0x50F078 0 64 0
def FL_WPFINE1_WP : Fld := .at 0x50F080 0 64 0
def FL_LOCK_LOCK : Fld := .at 0x50F088 0 1 0
def FL_TCMD_OP : Fld := .at 0x50F08A 0 3 0
def FL_XO_EN (n : Nat) : Fld := .at (0x50F0C0 + 8 * n) 63 1 0
def FL_XO_WP (n : Nat) : Fld := .at (0x50F0C0 + 8 * n) 62 1 0
def FL_XO_OWNER (n : Nat) : Fld := .at (0x50F0C0 + 8 * n) 48 4 0
def FL_XO_SIZE (n : Nat) : Fld := .at (0x50F0C0 + 8 * n) 16 11 0
def FL_XO_BASE (n : Nat) : Fld := .at (0x50F0C0 + 8 * n) 0 10 0
def FL_XOSTAT_REGION : Fld := .at 0x50F100 29 3 0
def FL_XOSTAT_ACCESSOR : Fld := .at 0x50F100 24 5 0
def FL_XOSTAT_ADDR : Fld := .at 0x50F100 0 24 0
def FL_BANK_WAIT : Fld := .at 0x50F200 0 16 0
def FL_NVI_REFUSED : Fld := .at 0x50F202 0 16 0
def FL_REFUSED : Fld := .at 0x50F204 0 16 0
def FL_ECCHIGHS : Fld := .at 0x50F206 0 16 0
def FL_RETRYOK : Fld := .at 0x50F208 0 16 0
def FL_ECCUNCS : Fld := .at 0x50F20A 0 16 0
def FL_XOREADS : Fld := .at 0x50F20C 0 16 0
def FL_RETIRES : Fld := .at 0x50F20E 0 16 0

/-! ### Host port, base 510000h (spec/16_host_port.md) -/

def HP_CTL_HREQSW : Fld := .at 0x510000 2 1 0
def HP_CTL_EN : Fld := .at 0x510000 0 1 1
def HP_CFG_STOK : Fld := .at 0x510002 15 1 0
def HP_CFG_ERREN : Fld := .at 0x510002 11 1 1
def HP_CFG_RXEN : Fld := .at 0x510002 9 1 1
def HP_CFG_MBMASK : Fld := .at 0x510002 0 8 0xFF
def HP_STAT_PRET : Fld := .at 0x510004 15 1 0
def HP_STAT_MASTER : Fld := .at 0x510004 14 1 0
def HP_STAT_SEL : Fld := .at 0x510004 13 1 0
def HP_STAT_HREQ : Fld := .at 0x510004 12 1 0
def HP_STAT_HMODE : Fld := .at 0x510004 9 1 0
def HP_STAT_HID : Fld := .at 0x510004 6 3 0
def HP_ERR_MISSED : Fld := .at 0x510006 8 1 0
def HP_ERR_SELECT_FAULT : Fld := .at 0x510006 7 1 0
def HP_ERR_CBAD : Fld := .at 0x510006 6 1 0
def HP_ERR_TXREF : Fld := .at 0x510006 5 1 0
def HP_ERR_MBBUSY : Fld := .at 0x510006 4 1 0
def HP_ERR_DENY : Fld := .at 0x510006 3 1 0
def HP_ERR_WRAP : Fld := .at 0x510006 2 1 0
def HP_ERR_UNDERRUN : Fld := .at 0x510006 1 1 0
def HP_ERR_FRAME_SHORT : Fld := .at 0x510006 0 1 0
def HP_PERM_OPEN : Fld := .at 0x510008 1 1 1
def HP_PERM_WORLD : Fld := .at 0x510008 0 1 1
def HP_ALLOW_EN (n : Nat) : Fld := .at (0x510010 + 8 * n) 63 1 0
def HP_ALLOW_WR (n : Nat) : Fld := .at (0x510010 + 8 * n) 62 1 0
def HP_ALLOW_RD (n : Nat) : Fld := .at (0x510010 + 8 * n) 61 1 0
def HP_ALLOW_LAST (n : Nat) : Fld := .at (0x510010 + 8 * n) 24 24 0
def HP_ALLOW_FIRST (n : Nat) : Fld := .at (0x510010 + 8 * n) 0 24 0
def HP_MBSTAT_MBOUT : Fld := .at 0x510040 8 8 0
def HP_MBSTAT_MBIN : Fld := .at 0x510040 0 8 0
def HP_MBSET_SET : Fld := .at 0x510042 0 8 0
def HP_IPTR_INC : Fld := .at 0x510044 31 1 1
def HP_IPTR_PTR : Fld := .at 0x510044 0 24 0
def HP_FIFO_RXFRAMES : Fld := .at 0x510048 16 9 0
def HP_FIFO_TXROOM : Fld := .at 0x510048 0 13 0x1000
def HP_MCTL_GO : Fld := .at 0x510060 15 1 0
def HP_MCTL_ABORT : Fld := .at 0x510060 14 1 0
def HP_MCTL_LEN : Fld := .at 0x510060 0 7 0
def HP_MCFG_MODE : Fld := .at 0x510062 15 1 0
def HP_MCFG_SELPIN : Fld := .at 0x510062 8 4 0
def HP_MCFG_DIV : Fld := .at 0x510062 0 8 0
def HP_MSTAT_MDONE : Fld := .at 0x510064 7 1 0
def HP_MSTAT_MCNT : Fld := .at 0x510064 0 7 0
def HP_MBIN_WORD (n : Nat) : Fld := .at (0x510100 + 2 * n) 0 16 0
def HP_MBOUT_WORD (n : Nat) : Fld := .at (0x510180 + 2 * n) 0 16 0
def HP_MBUF_BYTE (n : Nat) : Fld := .at (0x510200 + 1 * n) 0 8 0
def HP_SHORTS : Fld := .at 0x510300 0 16 0
def HP_UNDERRUNS : Fld := .at 0x510302 0 16 0
def HP_TIMEOUTS : Fld := .at 0x510304 0 16 0
def HP_CBADS : Fld := .at 0x510306 0 16 0
def HP_DENIES : Fld := .at 0x510308 0 16 0
def SELECT_FAULT : Fld := .at 0x51030A 0 16 0

/-! ### Update/boot, base 511000h (spec/17_update_selftest.md) -/

def UPD_CMD_OP : Fld := .at 0x511000 0 4 0
def UPD_STAT_READY : Fld := .at 0x511002 15 1 0
def UPD_STAT_INSTALLING : Fld := .at 0x511002 14 1 0
def UPD_STAT_BUFPEND : Fld := .at 0x511002 13 1 0
def UPD_STAT_CAMP : Fld := .at 0x511002 12 1 0
def UPD_STAT_ICODE : Fld := .at 0x511002 8 4 0
def UPD_STAT_MCODE : Fld := .at 0x511002 4 4 0
def UPD_STAT_CCODE : Fld := .at 0x511002 0 4 0
def UPD_CAMP_IMGID : Fld := .at 0x511004 16 16 0
def UPD_CAMP_COUNT : Fld := .at 0x511004 0 13 0
def UPD_MSRC_ADDR : Fld := .at 0x511008 0 24 0
def UPD_RXCNT : Fld := .at 0x51100C 0 13 0
def UPD_LOG_NBLK : Fld := .at 0x51100E 8 6 0xC
def UPD_LOG_FIRST : Fld := .at 0x51100E 0 6 0x20
def UPD_VMIN_LEVEL : Fld := .at 0x511010 0 5 0xC
def UPD_ISTAT_DONE : Fld := .at 0x511012 4 1 0
def UPD_ISTAT_IABORT : Fld := .at 0x511012 0 4 0
def UPD_IPROG_PAGES : Fld := .at 0x511014 0 12 0
def UPD_TRIAL_ACTIVE : Fld := .at 0x511018 31 1 0
def UPD_TRIAL_SLOT : Fld := .at 0x511018 30 1 0
def UPD_TRIAL_LEFT : Fld := .at 0x511018 8 8 0
def UPD_TRIAL_EXPS : Fld := .at 0x511018 0 8 0
def UPD_BOOT_REVERTED : Fld := .at 0x51101C 31 1 0
def UPD_BOOT_FALLBACK : Fld := .at 0x51101C 30 1 0
def UPD_BOOT_LOCK : Fld := .at 0x51101C 29 1 0
def UPD_BOOT_RUNSLOT : Fld := .at 0x51101C 28 1 0
def UPD_BOOT_ACTSLOT : Fld := .at 0x51101C 27 1 0
def UPD_BOOT_ARB : Fld := .at 0x51101C 16 8 0
def UPD_BOOT_CODEB : Fld := .at 0x51101C 12 4 0
def UPD_BOOT_CODEA : Fld := .at 0x51101C 8 4 0
def UPD_LOCKSEQ_LSEQ : Fld := .at 0x511020 0 32 0
def UPD_REFUSED : Fld := .at 0x511300 0 16 0
def UPD_MDUP : Fld := .at 0x511302 0 16 0
def UPD_MBAD : Fld := .at 0x511304 0 16 0
def UPD_REVERTS : Fld := .at 0x511306 0 16 0

/-! ### Self-test, base 512000h (spec/17_update_selftest.md) -/

def BIST_CTL_GO : Fld := .at 0x512000 1 1 0
def BIST_CTL_EN : Fld := .at 0x512000 0 1 0
def BIST_CFG_PER : Fld := .at 0x512002 0 16 0x64
def BIST_EN_EN : Fld := .at 0x512004 0 19 0x7FFFF
def BIST_RET_PART : Fld := .at 0x512008 0 20 0
def BIST_SUSP_PART : Fld := .at 0x51200C 0 20 0
def BIST_STAT_RUN : Fld := .at 0x512010 15 1 0
def BIST_STAT_PART : Fld := .at 0x512010 8 5 0
def BIST_STAT_SLICE : Fld := .at 0x512010 0 4 0
def BIST_MEMEN_BANK : Fld := .at 0x512014 0 16 0
def BIST_MEMRET_BANK : Fld := .at 0x512016 0 16 0
def BIST_DEFER : Fld := .at 0x512300 0 16 0
def BIST_HOLD : Fld := .at 0x512302 0 16 0
def BIST_TRANSIENT : Fld := .at 0x512304 0 16 0
def BIST_SLICES : Fld := .at 0x512306 0 16 0

/-! ### Debug, base 513000h (spec/17_update_selftest.md) -/

def DBG_CTL_HALTBOOT : Fld := .at 0x513000 7 1 0
def DBG_CTL_REQLVL : Fld := .at 0x513000 5 2 0
def DBG_CTL_CORERST : Fld := .at 0x513000 4 1 0
def DBG_CTL_AUTH : Fld := .at 0x513000 3 1 0
def DBG_CTL_NEWCHAL : Fld := .at 0x513000 2 1 0
def DBG_CTL_DROP : Fld := .at 0x513000 1 1 0
def DBG_STAT_KILLED : Fld := .at 0x513002 7 1 0
def DBG_STAT_LOCKED : Fld := .at 0x513002 6 1 0
def DBG_STAT_MAX : Fld := .at 0x513002 4 2 0
def DBG_STAT_CERR : Fld := .at 0x513002 3 1 0
def DBG_STAT_LEVEL : Fld := .at 0x513002 0 2 0
def DBG_CHAL_VAL : Fld := .at 0x513010 0 128 0
def DBG_RESP_VAL : Fld := .at 0x513020 0 128 0
def DBG_LOCKLEFT_VAL : Fld := .at 0x513030 0 16 0
def DBG_CONSEC_VAL : Fld := .at 0x513032 0 8 0
def DBG_FAILS : Fld := .at 0x513300 0 16 0

/-- B0 to B15 of burner n: B0 to B15 stand at 30h to 3Fh of its registers (spec/03_burners.md). -/
def BRN_B (n i : Nat) : Fld := .at (0x503030 + 0x40 * n + i) 0 8 0
/-- Window k of burner n, field EN (spec/03_burners.md). -/
def BRN_W_EN (n k : Nat) : Fld := .at (0x503008 + 0x40 * n + 2 * k) 15 1 (if n = 0 ∧ (k = 0 ∨ k = 3) then 1 else 0)
/-- Window k of burner n, field WE (spec/03_burners.md). -/
def BRN_W_WE (n k : Nat) : Fld := .at (0x503008 + 0x40 * n + 2 * k) 14 1 (if n = 0 ∧ (k = 0 ∨ k = 3) then 1 else 0)
/-- Window k of burner n, field BASE (spec/03_burners.md). -/
def BRN_W_BASE (n k : Nat) : Fld := .at (0x503008 + 0x40 * n + 2 * k) 0 10 (if n = 0 then (if k = 0 then 0x100 else if k = 3 then 0x140 else 0) else 0)

end Sys2Proof.Machine.F
end

