-- ==== Sys2Proof/Machine/RegMap.lean ====
section
/-! DEFINITION. The register maps: for each block, every register of its table with its offset, width, how many
copies there are and at what distance, whether it is low-first latched (LL), and its fields with their access codes
and reset values (R13 to R16). A register whose reset value differs between copies has one row per value. -/

namespace Sys2Proof.Machine

/-- The access codes of R14, and `cnt`: a counter that a write of any value clears (R44). -/
inductive Acc where
  | rw | ro | wo | w1c | cnt
  deriving DecidableEq, Repr

/-- One field of a register: its lowest bit, width, access code, whether it is staged (R17), and its reset value. -/
structure FldDesc where
  lo : Nat
  w : Nat
  acc : Acc
  st : Bool
  rst : Nat
  deriving DecidableEq, Repr

/-- One register, or an array of `count` registers `stride` bytes apart: byte address, width in bits, LL or not. -/
structure RegDesc where
  addr : Nat
  width : Nat
  count : Nat
  stride : Nat
  ll : Bool
  fields : List FldDesc
  deriving DecidableEq, Repr

/-- System control, base 500000h (spec/01_architecture.md). -/
def RegMap.sys : List RegDesc := [
  ⟨0x500000, 32, 1, 0, true, [⟨16, 16, .ro, false, 0x3E07⟩, ⟨8, 8, .ro, false, 0xB0⟩]⟩,
  ⟨0x500010, 8, 1, 0, false, [⟨0, 2, .rw, true, 0⟩]⟩,
  ⟨0x500020, 8, 1, 0, false, [⟨7, 1, .w1c, false, 0⟩, ⟨6, 1, .w1c, false, 0⟩, ⟨5, 1, .ro, false, 0⟩, ⟨4, 1, .ro, false, 0⟩, ⟨3, 1, .rw, false, 0⟩, ⟨2, 1, .rw, false, 0⟩, ⟨1, 1, .rw, false, 0⟩, ⟨0, 1, .rw, false, 0⟩]⟩,
  ⟨0x500030, 8, 1, 0, false, [⟨3, 5, .ro, false, 0⟩, ⟨1, 1, .w1c, false, 0⟩, ⟨0, 1, .w1c, false, 0⟩]⟩,
  ⟨0x500100, 16, 16, 2, false, [⟨5, 2, .rw, false, 0⟩, ⟨4, 1, .rw, false, 0⟩, ⟨3, 1, .rw, false, 0⟩, ⟨0, 2, .rw, false, 0⟩]⟩,
  ⟨0x500140, 16, 1, 0, false, [⟨0, 16, .ro, false, 0⟩]⟩,
  ⟨0x5007F0, 16, 1, 0, false, [⟨8, 4, .ro, false, 0⟩, ⟨6, 1, .w1c, false, 0⟩, ⟨5, 1, .w1c, false, 0⟩, ⟨4, 1, .ro, false, 0⟩, ⟨1, 1, .wo, false, 0⟩, ⟨0, 1, .wo, false, 0⟩]⟩,
  ⟨0x5007F2, 16, 1, 0, true, [⟨0, 16, .ro, false, 0⟩]⟩]

/-- Power/Rest, base 501000h (spec/13_power_sleep.md). -/
def RegMap.pwr : List RegDesc := [
  ⟨0x501000, 16, 1, 0, false, [⟨9, 1, .ro, false, 0⟩, ⟨8, 1, .ro, false, 0⟩, ⟨7, 1, .ro, false, 0⟩, ⟨6, 1, .ro, false, 0⟩, ⟨5, 1, .ro, false, 0⟩, ⟨4, 1, .ro, false, 0⟩, ⟨3, 1, .ro, false, 0⟩, ⟨2, 1, .ro, false, 0⟩, ⟨0, 1, .ro, false, 0⟩]⟩,
  ⟨0x501002, 8, 1, 0, false, [⟨0, 4, .rw, false, 4⟩]⟩,
  ⟨0x501003, 8, 1, 0, false, [⟨0, 5, .rw, false, 0xA⟩]⟩,
  ⟨0x501004, 32, 1, 0, true, [⟨16, 1, .rw, false, 0⟩, ⟨0, 16, .rw, false, 3⟩]⟩,
  ⟨0x501008, 8, 1, 0, false, [⟨1, 1, .rw, false, 1⟩, ⟨0, 1, .rw, false, 0⟩]⟩,
  ⟨0x50100A, 16, 1, 0, false, [⟨1, 8, .ro, false, 0⟩]⟩,
  ⟨0x50100C, 8, 1, 0, false, [⟨7, 1, .ro, false, 0⟩, ⟨0, 4, .ro, false, 0⟩]⟩,
  ⟨0x501010, 32, 1, 0, true, [⟨0, 32, .ro, false, 0⟩]⟩,
  ⟨0x501014, 16, 1, 0, false, [⟨8, 1, .w1c, false, 0⟩, ⟨7, 1, .w1c, false, 0⟩, ⟨6, 1, .w1c, false, 0⟩, ⟨5, 1, .w1c, false, 0⟩, ⟨4, 1, .w1c, false, 0⟩, ⟨3, 1, .w1c, false, 0⟩, ⟨2, 1, .w1c, false, 0⟩, ⟨1, 1, .w1c, false, 0⟩, ⟨0, 1, .w1c, false, 1⟩]⟩,
  ⟨0x501016, 8, 1, 0, false, [⟨4, 4, .wo, false, 0⟩, ⟨1, 1, .wo, false, 0⟩, ⟨0, 1, .wo, false, 0⟩]⟩,
  ⟨0x501018, 32, 1, 0, true, [⟨31, 1, .rw, false, 0⟩, ⟨30, 1, .rw, false, 0⟩, ⟨0, 16, .rw, false, 0x100⟩]⟩,
  ⟨0x50101C, 8, 1, 0, false, [⟨0, 8, .wo, false, 0⟩]⟩,
  ⟨0x501020, 32, 1, 0, true, [⟨0, 32, .ro, false, 0⟩]⟩,
  ⟨0x501024, 16, 1, 0, false, [⟨0, 16, .ro, false, 0⟩]⟩,
  ⟨0x501026, 16, 1, 0, false, [⟨8, 8, .rw, false, 0x69⟩, ⟨0, 8, .rw, false, 0xD8⟩]⟩,
  ⟨0x501028, 64, 1, 0, true, [⟨32, 32, .ro, false, 0⟩, ⟨8, 4, .ro, false, 0⟩, ⟨4, 4, .ro, false, 0⟩, ⟨0, 2, .ro, false, 2⟩]⟩,
  ⟨0x501030, 8, 1, 0, false, [⟨0, 1, .ro, false, 0⟩]⟩,
  ⟨0x501300, 16, 1, 0, false, [⟨0, 16, .cnt, false, 0⟩]⟩,
  ⟨0x501302, 16, 1, 0, false, [⟨0, 16, .cnt, false, 0⟩]⟩,
  ⟨0x501304, 16, 1, 0, false, [⟨0, 16, .cnt, false, 0⟩]⟩]

/-- Whisk, base 502000h (spec/05_event_router.md). -/
def RegMap.whisk : List RegDesc := [
  ⟨0x502000, 32, 64, 8, true, [⟨31, 1, .rw, false, 0⟩, ⟨21, 1, .rw, false, 1⟩, ⟨16, 5, .rw, false, 0x11⟩, ⟨0, 8, .rw, false, 0xFF⟩]⟩,
  ⟨0x502004, 16, 64, 8, true, [⟨0, 16, .rw, false, 0⟩]⟩,
  ⟨0x502200, 16, 64, 2, false, [⟨0, 16, .cnt, false, 0⟩]⟩,
  ⟨0x502400, 64, 1, 0, true, [⟨0, 64, .w1c, false, 0⟩]⟩,
  ⟨0x502408, 64, 1, 0, true, [⟨0, 64, .w1c, false, 0⟩]⟩,
  ⟨0x502410, 64, 1, 0, true, [⟨0, 64, .wo, false, 0⟩]⟩,
  ⟨0x502418, 32, 1, 0, true, [⟨0, 20, .w1c, false, 0⟩]⟩,
  ⟨0x502420, 8, 1, 0, false, [⟨0, 1, .wo, false, 0⟩]⟩,
  ⟨0x502424, 8, 1, 0, false, [⟨3, 5, .ro, false, 0⟩, ⟨2, 1, .w1c, false, 0⟩, ⟨1, 1, .w1c, false, 0⟩, ⟨0, 1, .w1c, false, 0⟩]⟩,
  ⟨0x502426, 8, 1, 0, false, [⟨0, 8, .ro, false, 0⟩]⟩,
  ⟨0x502430, 16, 1, 0, false, [⟨0, 16, .cnt, false, 0⟩]⟩,
  ⟨0x502432, 16, 1, 0, false, [⟨0, 16, .cnt, false, 0⟩]⟩,
  ⟨0x502600, 8, 128, 1, false, [⟨7, 1, .rw, false, 0⟩, ⟨0, 6, .rw, false, 0⟩]⟩]

/-- Burner control, base 503000h (spec/03_burners.md), part 1. -/
def RegMap.brn0 : List RegDesc := [
  ⟨0x503000, 8, 16, 64, false, [⟨3, 1, .wo, false, 0⟩, ⟨2, 1, .wo, false, 0⟩, ⟨1, 1, .wo, false, 0⟩, ⟨0, 1, .wo, false, 0⟩]⟩,
  ⟨0x503001, 8, 1, 0, false, [⟨7, 1, .w1c, false, 0⟩, ⟨6, 1, .w1c, false, 0⟩, ⟨5, 1, .w1c, false, 0⟩, ⟨4, 1, .ro, false, 0⟩, ⟨3, 1, .ro, false, 0⟩, ⟨0, 3, .ro, false, 1⟩]⟩,
  ⟨0x503041, 8, 15, 64, false, [⟨7, 1, .w1c, false, 0⟩, ⟨6, 1, .w1c, false, 0⟩, ⟨5, 1, .w1c, false, 0⟩, ⟨4, 1, .ro, false, 0⟩, ⟨3, 1, .ro, false, 0⟩, ⟨0, 3, .ro, false, 0⟩]⟩,
  ⟨0x503002, 8, 1, 0, false, [⟨2, 1, .rw, false, 1⟩, ⟨0, 2, .rw, false, 2⟩]⟩,
  ⟨0x503042, 8, 15, 64, false, [⟨2, 1, .rw, false, 0⟩, ⟨0, 2, .rw, false, 2⟩]⟩,
  ⟨0x503004, 16, 16, 64, true, [⟨0, 16, .rw, false, 0⟩]⟩,
  ⟨0x503006, 8, 16, 64, false, [⟨0, 5, .rw, false, 0⟩]⟩,
  ⟨0x503008, 16, 1, 0, true, [⟨15, 1, .rw, false, 1⟩, ⟨14, 1, .rw, false, 1⟩, ⟨0, 10, .rw, false, 0x100⟩]⟩,
  ⟨0x503048, 16, 15, 64, true, [⟨15, 1, .rw, false, 0⟩, ⟨14, 1, .rw, false, 0⟩, ⟨0, 10, .rw, false, 0⟩]⟩,
  ⟨0x50300A, 16, 16, 64, true, [⟨15, 1, .rw, false, 0⟩, ⟨14, 1, .rw, false, 0⟩, ⟨0, 10, .rw, false, 0⟩]⟩,
  ⟨0x50300C, 16, 16, 64, true, [⟨15, 1, .rw, false, 0⟩, ⟨14, 1, .rw, false, 0⟩, ⟨0, 10, .rw, false, 0⟩]⟩,
  ⟨0x50300E, 16, 1, 0, true, [⟨15, 1, .rw, false, 1⟩, ⟨14, 1, .rw, false, 1⟩, ⟨0, 10, .rw, false, 0x140⟩]⟩,
  ⟨0x50304E, 16, 15, 64, true, [⟨15, 1, .rw, false, 0⟩, ⟨14, 1, .rw, false, 0⟩, ⟨0, 10, .rw, false, 0⟩]⟩,
  ⟨0x503010, 32, 1, 0, true, [⟨0, 24, .rw, false, 0x600000⟩]⟩,
  ⟨0x503050, 32, 15, 64, true, [⟨0, 24, .rw, false, 0⟩]⟩,
  ⟨0x503014, 16, 1, 0, true, [⟨0, 16, .rw, false, 0x2AA9⟩]⟩,
  ⟨0x503054, 16, 15, 64, true, [⟨0, 16, .rw, false, 0⟩]⟩,
  ⟨0x503016, 16, 16, 64, true, [⟨0, 16, .rw, false, 0⟩]⟩,
  ⟨0x503018, 16, 16, 64, true, [⟨0, 16, .rw, false, 0⟩]⟩,
  ⟨0x50301A, 8, 16, 64, false, [⟨0, 5, .rw, false, 0⟩]⟩,
  ⟨0x50301B, 8, 16, 64, false, [⟨7, 1, .ro, false, 0⟩, ⟨4, 3, .ro, false, 0⟩, ⟨0, 4, .ro, false, 0⟩]⟩,
  ⟨0x50301C, 32, 16, 64, true, [⟨0, 24, .ro, false, 0⟩]⟩,
  ⟨0x503020, 32, 16, 64, true, [⟨0, 24, .ro, false, 0⟩]⟩,
  ⟨0x503024, 32, 16, 64, true, [⟨0, 32, .rw, false, 0⟩]⟩,
  ⟨0x503028, 64, 16, 64, true, [⟨0, 64, .w1c, false, 0⟩]⟩,
  ⟨0x503030, 8, 16, 64, false, [⟨0, 8, .rw, false, 0⟩]⟩,
  ⟨0x503031, 8, 16, 64, false, [⟨0, 8, .rw, false, 0⟩]⟩,
  ⟨0x503032, 8, 16, 64, false, [⟨0, 8, .rw, false, 0⟩]⟩,
  ⟨0x503033, 8, 16, 64, false, [⟨0, 8, .rw, false, 0⟩]⟩,
  ⟨0x503034, 8, 16, 64, false, [⟨0, 8, .rw, false, 0⟩]⟩,
  ⟨0x503035, 8, 16, 64, false, [⟨0, 8, .rw, false, 0⟩]⟩,
  ⟨0x503036, 8, 16, 64, false, [⟨0, 8, .rw, false, 0⟩]⟩,
  ⟨0x503037, 8, 16, 64, false, [⟨0, 8, .rw, false, 0⟩]⟩,
  ⟨0x503038, 8, 16, 64, false, [⟨0, 8, .rw, false, 0⟩]⟩,
  ⟨0x503039, 8, 16, 64, false, [⟨0, 8, .rw, false, 0⟩]⟩,
  ⟨0x50303A, 8, 16, 64, false, [⟨0, 8, .rw, false, 0⟩]⟩,
  ⟨0x50303B, 8, 16, 64, false, [⟨0, 8, .rw, false, 0⟩]⟩,
  ⟨0x50303C, 8, 16, 64, false, [⟨0, 8, .rw, false, 0⟩]⟩,
  ⟨0x50303D, 8, 16, 64, false, [⟨0, 8, .rw, false, 0⟩]⟩,
  ⟨0x50303E, 8, 16, 64, false, [⟨0, 8, .rw, false, 0⟩]⟩]

/-- Burner control, base 503000h (spec/03_burners.md), part 2. -/
def RegMap.brn1 : List RegDesc := [
  ⟨0x50303F, 8, 16, 64, false, [⟨0, 8, .rw, false, 0⟩]⟩,
  ⟨0x503400, 16, 1, 0, true, [⟨0, 16, .ro, false, 1⟩]⟩,
  ⟨0x503402, 16, 1, 0, true, [⟨0, 16, .ro, false, 0xFFFE⟩]⟩,
  ⟨0x503404, 16, 1, 0, true, [⟨0, 16, .wo, false, 0⟩]⟩,
  ⟨0x503406, 16, 1, 0, true, [⟨0, 16, .wo, false, 0⟩]⟩,
  ⟨0x503408, 8, 1, 0, false, [⟨3, 5, .ro, false, 0⟩, ⟨0, 1, .w1c, false, 0⟩]⟩,
  ⟨0x503500, 32, 1, 0, true, [⟨0, 20, .rw, false, 0xFFFFF⟩]⟩,
  ⟨0x503504, 16, 1, 0, true, [⟨0, 16, .rw, false, 0xFFFF⟩]⟩,
  ⟨0x503506, 8, 1, 0, false, [⟨6, 1, .rw, false, 1⟩, ⟨2, 4, .rw, false, 0xF⟩, ⟨1, 1, .rw, false, 1⟩, ⟨0, 1, .rw, false, 1⟩]⟩,
  ⟨0x503508, 8, 1, 0, false, [⟨0, 1, .rw, false, 0⟩]⟩,
  ⟨0x503600, 16, 1, 0, false, [⟨0, 16, .cnt, false, 0⟩]⟩,
  ⟨0x503602, 16, 1, 0, false, [⟨0, 16, .cnt, false, 0⟩]⟩]

/-- Burner control, base 503000h: all its registers. -/
def RegMap.brn : List RegDesc := RegMap.brn0 ++ RegMap.brn1

/-- Timebase, base 504000h (spec/02_phase_timebase.md). -/
def RegMap.tb : List RegDesc := [
  ⟨0x504000, 48, 1, 0, true, [⟨16, 32, .ro, false, 0⟩, ⟨0, 16, .ro, false, 0⟩]⟩,
  ⟨0x504008, 48, 1, 0, true, [⟨16, 32, .wo, false, 0⟩, ⟨0, 16, .wo, false, 0⟩]⟩,
  ⟨0x504010, 16, 1, 0, false, [⟨8, 1, .ro, false, 0⟩, ⟨7, 1, .ro, false, 0⟩, ⟨6, 1, .ro, false, 0⟩, ⟨5, 1, .ro, false, 0⟩, ⟨4, 1, .ro, false, 0⟩, ⟨3, 1, .ro, false, 0⟩, ⟨2, 1, .ro, false, 0⟩, ⟨0, 2, .ro, false, 0⟩]⟩,
  ⟨0x504014, 8, 1, 0, false, [⟨1, 1, .wo, false, 0⟩, ⟨0, 1, .wo, false, 0⟩]⟩,
  ⟨0x504018, 8, 1, 0, false, [⟨4, 1, .rw, true, 1⟩, ⟨3, 1, .rw, true, 1⟩, ⟨2, 1, .rw, true, 0⟩, ⟨1, 1, .rw, true, 0⟩, ⟨0, 1, .rw, true, 0⟩]⟩,
  ⟨0x50401A, 16, 1, 0, false, [⟨8, 8, .rw, true, 0x20⟩, ⟨4, 4, .rw, true, 3⟩, ⟨0, 4, .rw, true, 4⟩]⟩,
  ⟨0x50401C, 8, 1, 0, false, [⟨4, 4, .rw, true, 6⟩, ⟨0, 4, .rw, true, 2⟩]⟩,
  ⟨0x50401E, 16, 1, 0, false, [⟨0, 16, .rw, true, 0⟩]⟩,
  ⟨0x504020, 32, 1, 0, true, [⟨0, 32, .ro, false, 0x64000000⟩]⟩,
  ⟨0x504024, 32, 1, 0, true, [⟨16, 1, .rw, false, 0⟩, ⟨0, 16, .rw, false, 0⟩]⟩,
  ⟨0x504028, 32, 1, 0, true, [⟨20, 1, .ro, false, 0⟩, ⟨16, 4, .ro, false, 0⟩, ⟨0, 16, .ro, false, 0⟩]⟩,
  ⟨0x50402C, 16, 1, 0, false, [⟨12, 4, .rw, false, 4⟩, ⟨4, 8, .rw, false, 0x20⟩, ⟨0, 4, .rw, false, 8⟩]⟩,
  ⟨0x50402E, 8, 1, 0, false, [⟨0, 8, .rw, false, 0x28⟩]⟩,
  ⟨0x504030, 32, 1, 0, true, [⟨0, 32, .ro, false, 0⟩]⟩,
  ⟨0x504034, 16, 1, 0, true, [⟨0, 16, .ro, false, 0⟩]⟩,
  ⟨0x504038, 32, 1, 0, true, [⟨0, 32, .rw, false, 0⟩]⟩,
  ⟨0x50403C, 8, 1, 0, false, [⟨2, 1, .ro, false, 0⟩, ⟨0, 2, .rw, false, 0⟩]⟩,
  ⟨0x504040, 48, 2, 8, true, [⟨16, 32, .rw, false, 0⟩, ⟨0, 16, .rw, false, 0⟩]⟩,
  ⟨0x504050, 16, 2, 2, false, [⟨0, 16, .rw, false, 0⟩]⟩,
  ⟨0x504054, 8, 1, 0, false, [⟨3, 1, .w1c, false, 0⟩, ⟨2, 1, .w1c, false, 0⟩, ⟨1, 1, .rw, false, 0⟩, ⟨0, 1, .rw, false, 0⟩]⟩,
  ⟨0x504058, 8, 1, 0, false, [⟨0, 4, .rw, false, 0⟩]⟩,
  ⟨0x50405C, 8, 1, 0, false, [⟨3, 1, .w1c, false, 0⟩, ⟨2, 1, .w1c, false, 0⟩, ⟨1, 1, .w1c, false, 0⟩, ⟨0, 1, .w1c, false, 0⟩]⟩,
  ⟨0x504060, 16, 1, 0, false, [⟨0, 16, .cnt, false, 0⟩]⟩,
  ⟨0x504062, 16, 1, 0, false, [⟨0, 16, .cnt, false, 0⟩]⟩,
  ⟨0x504064, 16, 1, 0, false, [⟨0, 16, .cnt, false, 0⟩]⟩,
  ⟨0x504066, 16, 1, 0, false, [⟨0, 16, .cnt, false, 0⟩]⟩,
  ⟨0x504068, 16, 1, 0, false, [⟨0, 16, .cnt, false, 0⟩]⟩,
  ⟨0x50406A, 16, 1, 0, false, [⟨0, 16, .cnt, false, 0⟩]⟩,
  ⟨0x5047F0, 16, 1, 0, false, [⟨8, 4, .ro, false, 0⟩, ⟨6, 1, .w1c, false, 0⟩, ⟨5, 1, .w1c, false, 0⟩, ⟨4, 1, .ro, false, 0⟩, ⟨1, 1, .wo, false, 0⟩, ⟨0, 1, .wo, false, 0⟩]⟩,
  ⟨0x5047F2, 16, 1, 0, true, [⟨0, 16, .ro, false, 0⟩]⟩]

/-- RTC, base 505000h (spec/14_rtc_calendar.md). -/
def RegMap.rtc : List RegDesc := [
  ⟨0x505000, 64, 1, 0, true, [⟨54, 10, .ro, false, 0⟩, ⟨48, 4, .ro, false, 1⟩, ⟨40, 5, .ro, false, 1⟩, ⟨37, 3, .ro, false, 6⟩, ⟨32, 5, .ro, false, 0⟩, ⟨24, 6, .ro, false, 0⟩, ⟨16, 6, .ro, false, 0⟩, ⟨0, 15, .ro, false, 0⟩]⟩,
  ⟨0x505008, 64, 1, 0, true, [⟨54, 10, .wo, false, 0⟩, ⟨48, 4, .wo, false, 0⟩, ⟨40, 5, .wo, false, 0⟩, ⟨37, 3, .ro, false, 0⟩, ⟨32, 5, .wo, false, 0⟩, ⟨24, 6, .wo, false, 0⟩, ⟨16, 6, .wo, false, 0⟩, ⟨0, 15, .wo, false, 0⟩]⟩,
  ⟨0x505010, 32, 1, 0, true, [⟨0, 32, .ro, false, 0⟩]⟩,
  ⟨0x505018, 8, 1, 0, false, [⟨5, 1, .w1c, false, 0⟩, ⟨4, 1, .w1c, false, 0⟩, ⟨3, 1, .ro, false, 0⟩, ⟨2, 1, .ro, false, 0⟩, ⟨1, 1, .ro, false, 0⟩, ⟨0, 1, .w1c, false, 0⟩]⟩,
  ⟨0x505020, 64, 2, 16, true, [⟨54, 10, .rw, false, 0⟩, ⟨48, 4, .rw, false, 0⟩, ⟨40, 5, .rw, false, 0⟩, ⟨37, 3, .ro, false, 0⟩, ⟨32, 5, .rw, false, 0⟩, ⟨24, 6, .rw, false, 0⟩, ⟨16, 6, .rw, false, 0⟩, ⟨0, 15, .rw, false, 0⟩]⟩,
  ⟨0x505028, 32, 2, 16, true, [⟨31, 1, .rw, false, 0⟩, ⟨0, 24, .rw, false, 0⟩]⟩,
  ⟨0x505040, 8, 1, 0, false, [⟨3, 1, .w1c, false, 0⟩, ⟨2, 1, .w1c, false, 0⟩, ⟨1, 1, .w1c, false, 0⟩, ⟨0, 1, .w1c, false, 0⟩]⟩,
  ⟨0x505044, 32, 1, 0, true, [⟨31, 1, .rw, false, 0⟩, ⟨0, 24, .rw, false, 1⟩]⟩,
  ⟨0x505048, 16, 1, 0, false, [⟨14, 2, .rw, false, 0⟩, ⟨13, 1, .ro, false, 0⟩, ⟨0, 11, .rw, false, 0⟩]⟩,
  ⟨0x50504A, 16, 1, 0, false, [⟨0, 11, .ro, false, 0⟩]⟩,
  ⟨0x505050, 32, 1, 0, true, [⟨16, 16, .rw, false, 0⟩, ⟨0, 16, .rw, false, 0⟩]⟩,
  ⟨0x505054, 16, 1, 0, false, [⟨0, 16, .rw, false, 0⟩]⟩,
  ⟨0x505060, 8, 16, 1, false, [⟨0, 8, .rw, false, 0⟩]⟩,
  ⟨0x505070, 16, 1, 0, false, [⟨8, 8, .rw, false, 0⟩, ⟨6, 1, .rw, false, 0⟩, ⟨5, 1, .rw, false, 0⟩, ⟨4, 1, .w1c, false, 0⟩, ⟨0, 3, .rw, false, 0⟩]⟩,
  ⟨0x505078, 16, 2, 2, false, [⟨12, 4, .rw, false, 0⟩, ⟨4, 1, .rw, false, 0⟩, ⟨3, 1, .rw, false, 0⟩, ⟨2, 1, .rw, false, 0⟩, ⟨1, 1, .rw, false, 0⟩, ⟨0, 1, .rw, false, 0⟩]⟩,
  ⟨0x50507C, 8, 1, 0, false, [⟨3, 1, .ro, false, 0⟩, ⟨2, 1, .ro, false, 0⟩, ⟨1, 1, .w1c, false, 0⟩, ⟨0, 1, .w1c, false, 0⟩]⟩,
  ⟨0x505080, 64, 2, 8, true, [⟨54, 10, .ro, false, 0⟩, ⟨48, 4, .ro, false, 0⟩, ⟨40, 5, .ro, false, 0⟩, ⟨37, 3, .ro, false, 0⟩, ⟨32, 5, .ro, false, 0⟩, ⟨24, 6, .ro, false, 0⟩, ⟨16, 6, .ro, false, 0⟩, ⟨0, 15, .ro, false, 0⟩]⟩,
  ⟨0x505100, 8, 64, 1, false, [⟨0, 8, .rw, false, 0⟩]⟩,
  ⟨0x505200, 16, 1, 0, false, [⟨0, 16, .cnt, false, 0⟩]⟩]

/-- Timers, base 506000h (spec/15_timers_lantern_io.md). -/
def RegMap.tmr : List RegDesc := [
  ⟨0x506000, 8, 8, 64, false, [⟨2, 1, .wo, false, 0⟩, ⟨1, 1, .wo, false, 0⟩, ⟨0, 1, .wo, false, 0⟩]⟩,
  ⟨0x506001, 8, 8, 64, false, [⟨7, 1, .ro, false, 0⟩, ⟨6, 1, .w1c, false, 0⟩, ⟨5, 1, .w1c, false, 0⟩, ⟨4, 1, .w1c, false, 0⟩, ⟨3, 1, .ro, false, 0⟩, ⟨2, 1, .w1c, false, 0⟩, ⟨1, 1, .ro, false, 0⟩, ⟨0, 1, .ro, false, 0⟩]⟩,
  ⟨0x506004, 32, 8, 64, true, [⟨30, 2, .rw, false, 0⟩, ⟨28, 2, .rw, false, 0⟩, ⟨26, 2, .rw, false, 0⟩, ⟨24, 2, .rw, false, 0⟩, ⟨10, 2, .rw, false, 1⟩, ⟨8, 2, .rw, false, 0⟩, ⟨4, 4, .rw, false, 0⟩, ⟨0, 4, .rw, false, 0⟩]⟩,
  ⟨0x506008, 32, 8, 64, true, [⟨0, 32, .rw, false, 0⟩]⟩,
  ⟨0x50600C, 32, 8, 64, true, [⟨0, 32, .rw, false, 0xFFFFFFFF⟩]⟩,
  ⟨0x506010, 32, 8, 64, true, [⟨0, 32, .rw, false, 0⟩]⟩,
  ⟨0x506014, 32, 8, 64, true, [⟨0, 32, .rw, false, 0⟩]⟩,
  ⟨0x506018, 32, 8, 64, true, [⟨0, 32, .ro, false, 0⟩]⟩,
  ⟨0x50601C, 32, 8, 64, true, [⟨0, 32, .ro, false, 0⟩]⟩,
  ⟨0x506020, 32, 8, 64, true, [⟨0, 32, .ro, false, 0⟩]⟩,
  ⟨0x506024, 32, 8, 64, true, [⟨0, 32, .ro, false, 0xFFFFFFFF⟩]⟩,
  ⟨0x506400, 64, 4, 32, true, [⟨32, 32, .ro, false, 0⟩, ⟨0, 32, .ro, false, 0⟩]⟩,
  ⟨0x506408, 64, 4, 32, true, [⟨32, 32, .ro, false, 0⟩, ⟨0, 32, .ro, false, 0⟩]⟩,
  ⟨0x506410, 64, 4, 32, true, [⟨32, 32, .ro, false, 0⟩, ⟨0, 32, .ro, false, 0⟩]⟩,
  ⟨0x506500, 8, 1, 0, false, [⟨0, 8, .wo, false, 0⟩]⟩,
  ⟨0x506501, 8, 1, 0, false, [⟨0, 8, .wo, false, 0⟩]⟩,
  ⟨0x506502, 8, 1, 0, false, [⟨0, 1, .w1c, false, 0⟩]⟩]

/-- Lantern I/O, base 507000h (spec/15_timers_lantern_io.md). -/
def RegMap.lio : List RegDesc := [
  ⟨0x507000, 8, 1, 0, false, [⟨1, 1, .wo, false, 0⟩, ⟨0, 1, .rw, false, 0⟩]⟩,
  ⟨0x507002, 8, 1, 0, false, [⟨7, 1, .w1c, false, 0⟩, ⟨6, 1, .ro, false, 1⟩, ⟨5, 1, .ro, false, 1⟩, ⟨4, 1, .ro, false, 0⟩, ⟨0, 4, .ro, false, 0⟩]⟩,
  ⟨0x507004, 32, 1, 0, true, [⟨31, 1, .rw, true, 0⟩, ⟨30, 1, .rw, true, 0⟩, ⟨27, 3, .rw, true, 0⟩, ⟨0, 16, .rw, true, 0x77F⟩]⟩,
  ⟨0x507008, 16, 1, 0, false, [⟨0, 16, .rw, true, 0⟩]⟩,
  ⟨0x50700A, 16, 1, 0, false, [⟨8, 4, .rw, true, 0⟩, ⟨4, 4, .rw, true, 0⟩, ⟨0, 4, .rw, true, 0⟩]⟩,
  ⟨0x507010, 16, 4, 2, false, [⟨0, 16, .rw, true, 0⟩]⟩,
  ⟨0x507020, 32, 2, 4, true, [⟨31, 1, .rw, false, 0⟩, ⟨16, 14, .rw, false, 0⟩, ⟨0, 16, .rw, false, 0⟩]⟩,
  ⟨0x507028, 8, 1, 0, false, [⟨2, 2, .wo, false, 0⟩, ⟨0, 2, .wo, false, 0⟩]⟩,
  ⟨0x507029, 8, 1, 0, false, [⟨4, 2, .w1c, false, 0⟩, ⟨2, 2, .ro, false, 0⟩, ⟨0, 2, .ro, false, 0⟩]⟩,
  ⟨0x507030, 32, 1, 0, true, [⟨30, 2, .rw, true, 0⟩, ⟨26, 4, .rw, true, 0⟩, ⟨20, 4, .rw, true, 0⟩, ⟨16, 4, .rw, true, 3⟩, ⟨0, 16, .rw, true, 0⟩]⟩,
  ⟨0x507038, 16, 4, 2, true, [⟨0, 16, .ro, false, 0⟩]⟩,
  ⟨0x507040, 32, 4, 4, true, [⟨16, 16, .rw, true, 0xFFFF⟩, ⟨0, 16, .rw, true, 0⟩]⟩,
  ⟨0x507080, 16, 4, 2, false, [⟨15, 1, .rw, false, 0⟩, ⟨14, 1, .rw, false, 1⟩, ⟨0, 8, .rw, false, 8⟩]⟩,
  ⟨0x5070B0, 8, 1, 0, false, [⟨0, 1, .wo, false, 0⟩]⟩,
  ⟨0x5070B1, 8, 1, 0, false, [⟨5, 1, .w1c, false, 0⟩, ⟨4, 1, .w1c, false, 0⟩, ⟨0, 4, .w1c, false, 0⟩]⟩,
  ⟨0x5070B4, 32, 1, 0, true, [⟨0, 32, .ro, false, 0⟩]⟩,
  ⟨0x5070C0, 16, 1, 0, false, [⟨0, 16, .rw, true, 0x32⟩]⟩,
  ⟨0x5070C2, 16, 1, 0, false, [⟨0, 16, .rw, true, 0x64⟩]⟩,
  ⟨0x5070C4, 16, 1, 0, false, [⟨0, 16, .rw, true, 0xC8⟩]⟩,
  ⟨0x5070C6, 16, 1, 0, false, [⟨0, 16, .rw, true, 0x190⟩]⟩,
  ⟨0x5070C8, 16, 1, 0, false, [⟨0, 16, .rw, true, 0x320⟩]⟩,
  ⟨0x5070CA, 16, 1, 0, false, [⟨0, 16, .rw, true, 0x640⟩]⟩,
  ⟨0x5070CC, 16, 1, 0, false, [⟨0, 16, .rw, true, 0xC80⟩]⟩,
  ⟨0x5070D0, 16, 1, 0, false, [⟨0, 16, .rw, true, 0x200⟩]⟩,
  ⟨0x5070D2, 16, 1, 0, false, [⟨0, 16, .rw, true, 0x400⟩]⟩,
  ⟨0x5070D4, 16, 1, 0, false, [⟨0, 16, .rw, true, 0x800⟩]⟩,
  ⟨0x5070D6, 16, 1, 0, false, [⟨0, 16, .rw, true, 0x1000⟩]⟩,
  ⟨0x5070D8, 16, 1, 0, false, [⟨0, 16, .rw, true, 0x2000⟩]⟩,
  ⟨0x5070DA, 16, 1, 0, false, [⟨0, 16, .rw, true, 0x4000⟩]⟩,
  ⟨0x5070DC, 16, 1, 0, false, [⟨0, 16, .rw, true, 0x8000⟩]⟩,
  ⟨0x507100, 16, 32, 2, false, [⟨0, 16, .ro, false, 0⟩]⟩,
  ⟨0x507140, 16, 32, 2, false, [⟨0, 16, .ro, false, 0⟩]⟩,
  ⟨0x507200, 16, 1, 0, false, [⟨0, 16, .cnt, false, 0⟩]⟩,
  ⟨0x507202, 16, 1, 0, false, [⟨0, 16, .cnt, false, 0⟩]⟩,
  ⟨0x507204, 16, 1, 0, false, [⟨0, 16, .cnt, false, 0⟩]⟩,
  ⟨0x507206, 16, 1, 0, false, [⟨0, 16, .cnt, false, 0⟩]⟩,
  ⟨0x5077F0, 16, 1, 0, false, [⟨8, 4, .ro, false, 0⟩, ⟨6, 1, .w1c, false, 0⟩, ⟨5, 1, .w1c, false, 0⟩, ⟨4, 1, .ro, false, 0⟩, ⟨1, 1, .wo, false, 0⟩, ⟨0, 1, .wo, false, 0⟩]⟩,
  ⟨0x5077F2, 16, 1, 0, true, [⟨0, 16, .ro, false, 0⟩]⟩]

/-- Front end, base 508000h (spec/07_radio_frontend.md). -/
def RegMap.fe : List RegDesc := [
  ⟨0x508000, 8, 1, 0, false, [⟨0, 1, .rw, false, 0⟩]⟩,
  ⟨0x508001, 8, 1, 0, false, [⟨4, 1, .wo, false, 0⟩, ⟨3, 1, .wo, false, 0⟩, ⟨2, 1, .wo, false, 0⟩, ⟨1, 1, .wo, false, 0⟩, ⟨0, 1, .wo, false, 0⟩]⟩,
  ⟨0x508002, 16, 1, 0, false, [⟨12, 1, .w1c, false, 0⟩, ⟨11, 1, .w1c, false, 0⟩, ⟨10, 1, .w1c, false, 0⟩, ⟨9, 1, .w1c, false, 0⟩, ⟨8, 1, .ro, false, 0⟩, ⟨7, 1, .ro, false, 0⟩, ⟨6, 1, .ro, false, 0⟩, ⟨5, 1, .ro, false, 0⟩, ⟨4, 1, .ro, false, 0⟩, ⟨3, 1, .ro, false, 0⟩, ⟨0, 3, .ro, false, 0⟩]⟩,
  ⟨0x508004, 8, 1, 0, false, [⟨0, 2, .rw, true, 1⟩]⟩,
  ⟨0x508008, 32, 1, 0, true, [⟨24, 8, .rw, true, 0x1B⟩, ⟨0, 24, .rw, true, 0x226666⟩]⟩,
  ⟨0x50800C, 32, 1, 0, true, [⟨0, 32, .ro, false, 0⟩]⟩,
  ⟨0x508010, 16, 1, 0, false, [⟨15, 1, .rw, false, 0⟩, ⟨8, 5, .rw, false, 0⟩, ⟨4, 4, .rw, false, 3⟩, ⟨0, 4, .rw, false, 9⟩]⟩,
  ⟨0x508012, 16, 1, 0, false, [⟨8, 8, .ro, false, 0⟩, ⟨0, 5, .ro, false, 0⟩]⟩,
  ⟨0x508014, 16, 1, 0, false, [⟨8, 8, .ro, false, 0⟩, ⟨0, 8, .ro, false, 0⟩]⟩,
  ⟨0x508016, 16, 1, 0, false, [⟨11, 5, .rw, false, 0x1F⟩, ⟨6, 5, .rw, false, 0x1F⟩, ⟨0, 5, .rw, false, 7⟩]⟩,
  ⟨0x508018, 16, 1, 0, false, [⟨12, 4, .rw, false, 4⟩, ⟨8, 4, .rw, false, 6⟩, ⟨0, 1, .rw, false, 1⟩]⟩,
  ⟨0x50801A, 8, 1, 0, false, [⟨0, 8, .ro, false, 0xFF⟩]⟩,
  ⟨0x50801B, 8, 1, 0, false, [⟨7, 1, .w1c, false, 0⟩, ⟨0, 4, .ro, false, 0⟩]⟩,
  ⟨0x508020, 48, 1, 0, true, [⟨42, 3, .ro, false, 0⟩, ⟨37, 5, .ro, false, 0⟩, ⟨36, 1, .ro, false, 0⟩, ⟨35, 1, .ro, false, 0⟩, ⟨0, 32, .ro, false, 0⟩]⟩,
  ⟨0x508028, 8, 1, 0, false, [⟨0, 3, .rw, false, 7⟩]⟩,
  ⟨0x50802A, 16, 1, 0, false, [⟨8, 8, .rw, false, 0x3C⟩, ⟨0, 8, .rw, false, 8⟩]⟩,
  ⟨0x50802C, 8, 1, 0, false, [⟨0, 4, .rw, false, 0xF⟩]⟩,
  ⟨0x50802E, 16, 1, 0, false, [⟨0, 16, .w1c, false, 0⟩]⟩,
  ⟨0x508040, 32, 16, 8, true, [⟨31, 1, .rw, false, 0⟩, ⟨25, 2, .rw, false, 0⟩, ⟨0, 25, .rw, false, 0⟩]⟩,
  ⟨0x508044, 32, 16, 8, true, [⟨16, 16, .ro, false, 0⟩, ⟨0, 16, .ro, false, 0⟩]⟩,
  ⟨0x508100, 32, 8, 16, true, [⟨31, 1, .rw, true, 0⟩, ⟨0, 20, .rw, true, 0⟩]⟩,
  ⟨0x508104, 32, 8, 16, true, [⟨0, 20, .rw, true, 0⟩]⟩,
  ⟨0x508108, 32, 8, 16, true, [⟨24, 8, .rw, true, 0⟩, ⟨0, 24, .rw, true, 0⟩]⟩,
  ⟨0x50810C, 16, 8, 16, true, [⟨0, 16, .rw, true, 0⟩]⟩,
  ⟨0x508180, 48, 8, 8, true, [⟨0, 48, .ro, false, 0⟩]⟩,
  ⟨0x5081C0, 8, 1, 0, false, [⟨0, 8, .ro, false, 0⟩]⟩,
  ⟨0x508200, 32, 32, 4, true, [⟨31, 1, .rw, false, 0⟩, ⟨16, 8, .rw, false, 0⟩, ⟨8, 8, .rw, false, 0⟩, ⟨0, 8, .rw, false, 0⟩]⟩,
  ⟨0x508280, 32, 24, 4, true, [⟨31, 1, .rw, false, 0⟩, ⟨16, 8, .rw, false, 0⟩, ⟨8, 8, .rw, false, 0⟩, ⟨4, 4, .rw, false, 0⟩, ⟨0, 4, .rw, false, 0⟩]⟩,
  ⟨0x508300, 16, 1, 0, false, [⟨0, 16, .cnt, false, 0⟩]⟩,
  ⟨0x508302, 16, 1, 0, false, [⟨0, 16, .cnt, false, 0⟩]⟩,
  ⟨0x508304, 16, 1, 0, false, [⟨0, 16, .cnt, false, 0⟩]⟩,
  ⟨0x508306, 16, 1, 0, false, [⟨0, 16, .cnt, false, 0⟩]⟩,
  ⟨0x508308, 16, 1, 0, false, [⟨0, 16, .cnt, false, 0⟩]⟩,
  ⟨0x508310, 16, 8, 2, false, [⟨0, 16, .cnt, false, 0⟩]⟩,
  ⟨0x5087F0, 16, 1, 0, false, [⟨8, 4, .ro, false, 0⟩, ⟨6, 1, .w1c, false, 0⟩, ⟨5, 1, .w1c, false, 0⟩, ⟨4, 1, .ro, false, 0⟩, ⟨1, 1, .wo, false, 0⟩, ⟨0, 1, .wo, false, 0⟩]⟩,
  ⟨0x5087F2, 16, 1, 0, true, [⟨0, 16, .ro, false, 0⟩]⟩]

/-- Chirp modem, base 509000h (spec/06_chirp_modem.md). -/
def RegMap.mod : List RegDesc := [
  ⟨0x509000, 8, 1, 0, false, [⟨1, 1, .rw, false, 1⟩, ⟨0, 1, .rw, false, 0⟩]⟩,
  ⟨0x509002, 16, 1, 0, false, [⟨0, 10, .rw, true, 0⟩]⟩,
  ⟨0x509004, 16, 1, 0, false, [⟨8, 7, .rw, true, 0x40⟩, ⟨0, 5, .rw, true, 0x10⟩]⟩,
  ⟨0x509006, 16, 1, 0, false, [⟨8, 5, .ro, false, 0⟩, ⟨0, 8, .ro, false, 0⟩]⟩,
  ⟨0x509008, 8, 1, 0, false, [⟨0, 8, .rw, false, 0⟩]⟩,
  ⟨0x50900C, 32, 1, 0, true, [⟨31, 1, .ro, false, 0⟩, ⟨28, 3, .ro, false, 0⟩, ⟨0, 24, .ro, false, 0⟩]⟩,
  ⟨0x509010, 64, 1, 0, true, [⟨35, 16, .ro, false, 0⟩, ⟨25, 10, .ro, false, 0⟩, ⟨18, 7, .ro, false, 0⟩, ⟨16, 2, .ro, false, 0⟩, ⟨14, 2, .ro, false, 0⟩, ⟨12, 2, .ro, false, 0⟩, ⟨8, 4, .ro, false, 0⟩, ⟨0, 8, .ro, false, 0⟩]⟩,
  ⟨0x509018, 32, 1, 0, true, [⟨0, 32, .ro, false, 0⟩]⟩,
  ⟨0x509020, 16, 1, 0, false, [⟨0, 16, .cnt, false, 0⟩]⟩,
  ⟨0x509022, 16, 1, 0, false, [⟨0, 16, .cnt, false, 0⟩]⟩,
  ⟨0x509024, 16, 1, 0, false, [⟨0, 16, .cnt, false, 0⟩]⟩,
  ⟨0x509100, 16, 8, 64, false, [⟨15, 1, .rw, true, 0⟩, ⟨10, 1, .rw, true, 0⟩, ⟨8, 2, .rw, true, 1⟩, ⟨0, 8, .rw, true, 0⟩]⟩,
  ⟨0x509102, 8, 8, 64, false, [⟨1, 1, .wo, false, 0⟩, ⟨0, 1, .rw, false, 0⟩]⟩,
  ⟨0x509103, 8, 8, 64, false, [⟨7, 1, .ro, false, 0⟩, ⟨4, 3, .ro, false, 0⟩, ⟨1, 3, .ro, false, 0⟩, ⟨0, 1, .ro, false, 0⟩]⟩,
  ⟨0x509104, 16, 8, 64, false, [⟨0, 16, .rw, true, 0⟩]⟩,
  ⟨0x509106, 16, 8, 64, false, [⟨0, 16, .ro, false, 0x8000⟩]⟩,
  ⟨0x509108, 64, 8, 64, true, [⟨24, 10, .ro, false, 0⟩, ⟨20, 1, .ro, false, 0⟩, ⟨16, 4, .ro, false, 0⟩, ⟨14, 2, .ro, false, 0⟩, ⟨12, 2, .ro, false, 0⟩, ⟨8, 4, .ro, false, 0⟩, ⟨0, 8, .ro, false, 0⟩]⟩,
  ⟨0x509110, 64, 8, 64, true, [⟨32, 24, .ro, false, 0⟩, ⟨16, 16, .ro, false, 0⟩, ⟨0, 16, .ro, false, 0⟩]⟩,
  ⟨0x509118, 48, 8, 64, true, [⟨16, 32, .ro, false, 0⟩, ⟨0, 16, .ro, false, 0⟩]⟩,
  ⟨0x509120, 16, 8, 64, false, [⟨0, 16, .cnt, false, 0⟩]⟩,
  ⟨0x509122, 16, 8, 64, false, [⟨0, 16, .cnt, false, 0⟩]⟩,
  ⟨0x509124, 16, 8, 64, false, [⟨0, 16, .cnt, false, 0⟩]⟩,
  ⟨0x509126, 16, 8, 64, false, [⟨0, 16, .cnt, false, 0⟩]⟩,
  ⟨0x509128, 16, 8, 64, false, [⟨0, 16, .cnt, false, 0⟩]⟩,
  ⟨0x50912A, 16, 8, 64, false, [⟨0, 16, .cnt, false, 0⟩]⟩,
  ⟨0x50912C, 16, 8, 64, false, [⟨0, 16, .cnt, false, 0⟩]⟩,
  ⟨0x50912E, 16, 8, 64, false, [⟨0, 16, .cnt, false, 0⟩]⟩,
  ⟨0x509130, 16, 8, 64, false, [⟨0, 16, .cnt, false, 0⟩]⟩,
  ⟨0x509132, 16, 8, 64, false, [⟨0, 16, .cnt, false, 0⟩]⟩,
  ⟨0x5097F0, 16, 1, 0, false, [⟨8, 4, .ro, false, 0⟩, ⟨6, 1, .w1c, false, 0⟩, ⟨5, 1, .w1c, false, 0⟩, ⟨4, 1, .ro, false, 0⟩, ⟨1, 1, .wo, false, 0⟩, ⟨0, 1, .wo, false, 0⟩]⟩,
  ⟨0x5097F2, 16, 1, 0, true, [⟨0, 16, .ro, false, 0⟩]⟩]

/-- Column ports, base 50A000h (spec/08_column_link.md). -/
def RegMap.cp : List RegDesc := [
  ⟨0x50A000, 8, 2, 4096, false, [⟨0, 1, .rw, false, 0⟩]⟩,
  ⟨0x50A001, 8, 2, 4096, false, [⟨4, 1, .wo, false, 0⟩, ⟨3, 1, .wo, false, 0⟩, ⟨2, 1, .wo, false, 0⟩, ⟨1, 1, .wo, false, 0⟩, ⟨0, 1, .wo, false, 0⟩]⟩,
  ⟨0x50A002, 16, 2, 4096, false, [⟨15, 1, .ro, false, 0⟩, ⟨14, 1, .ro, false, 0⟩, ⟨13, 1, .w1c, false, 0⟩, ⟨12, 1, .w1c, false, 0⟩, ⟨11, 1, .ro, false, 0⟩, ⟨10, 1, .ro, false, 0⟩, ⟨9, 1, .ro, false, 0⟩, ⟨7, 2, .ro, false, 0⟩, ⟨6, 1, .ro, false, 0⟩, ⟨3, 3, .ro, false, 0⟩, ⟨0, 3, .ro, false, 0⟩]⟩,
  ⟨0x50A004, 16, 1, 0, false, [⟨12, 4, .rw, true, 3⟩, ⟨7, 1, .rw, true, 1⟩, ⟨6, 1, .rw, true, 1⟩, ⟨5, 1, .rw, true, 0⟩, ⟨3, 2, .rw, true, 3⟩, ⟨2, 1, .rw, true, 0⟩, ⟨0, 1, .rw, true, 0⟩]⟩,
  ⟨0x50B004, 16, 1, 0, false, [⟨12, 4, .rw, true, 3⟩, ⟨7, 1, .rw, true, 1⟩, ⟨6, 1, .rw, true, 1⟩, ⟨5, 1, .rw, true, 0⟩, ⟨3, 2, .rw, true, 3⟩, ⟨2, 1, .rw, true, 0⟩, ⟨0, 1, .rw, true, 1⟩]⟩,
  ⟨0x50A006, 16, 2, 4096, false, [⟨8, 8, .ro, false, 0⟩, ⟨0, 8, .ro, false, 0⟩]⟩,
  ⟨0x50A008, 8, 2, 4096, false, [⟨4, 4, .ro, false, 0⟩, ⟨0, 4, .ro, false, 0⟩]⟩,
  ⟨0x50A009, 8, 2, 4096, false, [⟨0, 5, .rw, true, 0x14⟩]⟩,
  ⟨0x50A00A, 8, 2, 4096, false, [⟨0, 8, .rw, false, 0xA⟩]⟩,
  ⟨0x50A00B, 8, 2, 4096, false, [⟨7, 1, .rw, false, 0⟩, ⟨0, 7, .rw, false, 0x20⟩]⟩,
  ⟨0x50A00C, 8, 2, 4096, false, [⟨7, 1, .rw, false, 0⟩, ⟨0, 6, .rw, false, 0⟩]⟩,
  ⟨0x50A010, 32, 2, 4096, true, [⟨0, 32, .ro, false, 0⟩]⟩,
  ⟨0x50A014, 16, 2, 4096, false, [⟨8, 8, .rw, true, 0x42⟩, ⟨0, 8, .rw, true, 4⟩]⟩,
  ⟨0x50A018, 64, 2, 4096, true, [⟨33, 1, .ro, false, 0⟩, ⟨32, 1, .ro, false, 0⟩, ⟨16, 16, .ro, false, 0⟩, ⟨0, 16, .ro, false, 0⟩]⟩,
  ⟨0x50A100, 16, 2, 4096, false, [⟨0, 16, .cnt, false, 0⟩]⟩,
  ⟨0x50A102, 16, 2, 4096, false, [⟨0, 16, .cnt, false, 0⟩]⟩,
  ⟨0x50A104, 16, 2, 4096, false, [⟨0, 16, .cnt, false, 0⟩]⟩,
  ⟨0x50A106, 16, 2, 4096, false, [⟨0, 16, .cnt, false, 0⟩]⟩,
  ⟨0x50A108, 16, 2, 4096, false, [⟨0, 16, .cnt, false, 0⟩]⟩,
  ⟨0x50A10A, 16, 2, 4096, false, [⟨0, 16, .cnt, false, 0⟩]⟩,
  ⟨0x50A10C, 16, 2, 4096, false, [⟨0, 16, .cnt, false, 0⟩]⟩,
  ⟨0x50A10E, 16, 2, 4096, false, [⟨0, 16, .cnt, false, 0⟩]⟩,
  ⟨0x50A110, 16, 2, 4096, false, [⟨0, 16, .cnt, false, 0⟩]⟩,
  ⟨0x50A112, 16, 2, 4096, false, [⟨0, 16, .cnt, false, 0⟩]⟩,
  ⟨0x50A114, 16, 2, 4096, false, [⟨0, 16, .cnt, false, 0⟩]⟩,
  ⟨0x50A116, 16, 2, 4096, false, [⟨0, 16, .cnt, false, 0⟩]⟩,
  ⟨0x50A118, 16, 2, 4096, false, [⟨0, 16, .cnt, false, 0⟩]⟩,
  ⟨0x50A11A, 16, 2, 4096, false, [⟨0, 16, .cnt, false, 0⟩]⟩,
  ⟨0x50A200, 16, 160, 2, true, [⟨0, 16, .ro, false, 0⟩]⟩,
  ⟨0x50B200, 16, 160, 2, true, [⟨0, 16, .ro, false, 0⟩]⟩,
  ⟨0x50A7F0, 16, 2, 4096, false, [⟨8, 4, .ro, false, 0⟩, ⟨6, 1, .w1c, false, 0⟩, ⟨5, 1, .w1c, false, 0⟩, ⟨4, 1, .ro, false, 0⟩, ⟨1, 1, .wo, false, 0⟩, ⟨0, 1, .wo, false, 0⟩]⟩,
  ⟨0x50A7F2, 16, 2, 4096, true, [⟨0, 16, .ro, false, 0⟩]⟩]

/-- MAC, base 50C000h (spec/09_link_mac.md). -/
def RegMap.mac : List RegDesc := [
  ⟨0x50C000, 8, 1, 0, false, [⟨3, 1, .rw, false, 0⟩, ⟨2, 1, .rw, false, 0⟩, ⟨1, 1, .rw, false, 1⟩, ⟨0, 1, .rw, false, 0⟩]⟩,
  ⟨0x50C002, 8, 1, 0, false, [⟨4, 1, .ro, false, 0⟩, ⟨3, 1, .ro, false, 0⟩, ⟨2, 1, .ro, false, 0⟩, ⟨1, 1, .ro, false, 0⟩, ⟨0, 1, .ro, false, 0⟩]⟩,
  ⟨0x50C004, 16, 1, 0, false, [⟨0, 16, .rw, true, 0xFFFE⟩]⟩,
  ⟨0x50C006, 16, 1, 0, false, [⟨10, 1, .rw, true, 0⟩, ⟨9, 1, .rw, true, 0⟩, ⟨8, 1, .rw, true, 1⟩, ⟨0, 8, .rw, true, 0⟩]⟩,
  ⟨0x50C008, 64, 1, 0, true, [⟨0, 64, .ro, false, 0⟩]⟩,
  ⟨0x50C010, 32, 1, 0, true, [⟨0, 32, .rw, true, 0⟩]⟩,
  ⟨0x50C014, 16, 8, 2, false, [⟨0, 16, .rw, true, 0xFFFE⟩]⟩,
  ⟨0x50C024, 16, 1, 0, false, [⟨0, 16, .rw, true, 0xFFFF⟩]⟩,
  ⟨0x50C026, 16, 1, 0, false, [⟨0, 16, .rw, true, 0x100⟩]⟩,
  ⟨0x50C028, 16, 1, 0, false, [⟨0, 16, .rw, true, 0x190⟩]⟩,
  ⟨0x50C02A, 16, 1, 0, false, [⟨8, 8, .rw, true, 0⟩, ⟨0, 5, .rw, true, 0x17⟩]⟩,
  ⟨0x50C02C, 16, 1, 0, false, [⟨12, 4, .rw, true, 5⟩, ⟨8, 4, .rw, true, 3⟩, ⟨4, 3, .rw, true, 4⟩, ⟨0, 3, .rw, true, 3⟩]⟩,
  ⟨0x50C02E, 8, 1, 0, false, [⟨0, 2, .rw, true, 3⟩]⟩,
  ⟨0x50C030, 16, 1, 0, false, [⟨0, 16, .rw, true, 0xFE70⟩]⟩,
  ⟨0x50C034, 32, 1, 0, true, [⟨0, 32, .rw, false, 0⟩]⟩,
  ⟨0x50C038, 16, 1, 0, false, [⟨12, 1, .ro, false, 0⟩, ⟨8, 4, .ro, false, 0⟩, ⟨4, 4, .ro, false, 0⟩, ⟨0, 4, .ro, false, 0⟩]⟩,
  ⟨0x50C040, 64, 8, 8, true, [⟨32, 5, .rw, true, 0x17⟩, ⟨24, 7, .rw, true, 0xC⟩, ⟨22, 2, .rw, true, 0⟩, ⟨20, 2, .rw, true, 1⟩, ⟨16, 4, .rw, true, 7⟩, ⟨0, 16, .rw, true, 0⟩]⟩,
  ⟨0x50C080, 64, 1, 0, true, [⟨63, 1, .rw, true, 0⟩, ⟨48, 3, .rw, true, 0⟩, ⟨32, 16, .rw, true, 0⟩, ⟨16, 16, .rw, true, 0⟩, ⟨0, 16, .rw, true, 0⟩]⟩,
  ⟨0x50C088, 8, 1, 0, false, [⟨0, 8, .ro, false, 0⟩]⟩,
  ⟨0x50C100, 64, 32, 8, true, [⟨63, 1, .rw, true, 0⟩, ⟨48, 15, .rw, true, 0⟩, ⟨32, 16, .rw, true, 0⟩, ⟨16, 16, .rw, true, 0⟩, ⟨0, 16, .rw, true, 0⟩]⟩,
  ⟨0x50C200, 16, 5, 2, false, [⟨0, 16, .cnt, false, 0⟩]⟩,
  ⟨0x50C20A, 16, 1, 0, false, [⟨0, 16, .cnt, false, 0⟩]⟩,
  ⟨0x50C20C, 16, 1, 0, false, [⟨0, 16, .cnt, false, 0⟩]⟩,
  ⟨0x50C20E, 16, 1, 0, false, [⟨0, 16, .cnt, false, 0⟩]⟩,
  ⟨0x50C210, 16, 1, 0, false, [⟨0, 16, .cnt, false, 0⟩]⟩,
  ⟨0x50C212, 16, 1, 0, false, [⟨0, 16, .cnt, false, 0⟩]⟩,
  ⟨0x50C214, 16, 1, 0, false, [⟨0, 16, .cnt, false, 0⟩]⟩,
  ⟨0x50C216, 16, 1, 0, false, [⟨0, 16, .cnt, false, 0⟩]⟩,
  ⟨0x50C218, 16, 1, 0, false, [⟨0, 16, .cnt, false, 0⟩]⟩,
  ⟨0x50C21A, 16, 1, 0, false, [⟨0, 16, .cnt, false, 0⟩]⟩,
  ⟨0x50C21C, 16, 1, 0, false, [⟨0, 16, .cnt, false, 0⟩]⟩,
  ⟨0x50C21E, 16, 1, 0, false, [⟨0, 16, .cnt, false, 0⟩]⟩,
  ⟨0x50C220, 16, 1, 0, false, [⟨0, 16, .cnt, false, 0⟩]⟩,
  ⟨0x50C222, 16, 1, 0, false, [⟨0, 16, .cnt, false, 0⟩]⟩,
  ⟨0x50C224, 16, 1, 0, false, [⟨0, 16, .cnt, false, 0⟩]⟩,
  ⟨0x50C226, 16, 1, 0, false, [⟨0, 16, .cnt, false, 0⟩]⟩,
  ⟨0x50C7F0, 16, 1, 0, false, [⟨8, 4, .ro, false, 0⟩, ⟨6, 1, .w1c, false, 0⟩, ⟨5, 1, .w1c, false, 0⟩, ⟨4, 1, .ro, false, 0⟩, ⟨1, 1, .wo, false, 0⟩, ⟨0, 1, .wo, false, 0⟩]⟩,
  ⟨0x50C7F2, 16, 1, 0, true, [⟨0, 16, .ro, false, 0⟩]⟩]

/-- Forwarding, base 50D000h (spec/10_forwarding.md), part 1. -/
def RegMap.fwd0 : List RegDesc := [
  ⟨0x50D000, 8, 1, 0, false, [⟨2, 1, .rw, false, 0⟩, ⟨1, 1, .rw, false, 1⟩, ⟨0, 1, .rw, false, 0⟩]⟩,
  ⟨0x50D002, 16, 1, 0, false, [⟨10, 6, .rw, true, 0⟩, ⟨8, 2, .rw, true, 1⟩, ⟨0, 8, .rw, true, 8⟩]⟩,
  ⟨0x50D004, 32, 1, 0, true, [⟨16, 9, .ro, false, 0⟩, ⟨0, 10, .ro, false, 0x200⟩]⟩,
  ⟨0x50D008, 16, 1, 0, false, [⟨0, 10, .rw, false, 0x40⟩]⟩,
  ⟨0x50D00A, 16, 1, 0, false, [⟨0, 16, .rw, false, 0⟩]⟩,
  ⟨0x50D00C, 32, 1, 0, true, [⟨0, 32, .rw, false, 0xF0000000⟩]⟩,
  ⟨0x50D010, 16, 1, 0, false, [⟨14, 2, .wo, false, 0⟩, ⟨13, 1, .w1c, false, 0⟩, ⟨0, 9, .rw, false, 0⟩]⟩,
  ⟨0x50D012, 16, 1, 0, false, [⟨0, 16, .rw, false, 0xFFFF⟩]⟩,
  ⟨0x50D014, 8, 1, 0, false, [⟨0, 8, .rw, false, 0xA⟩]⟩,
  ⟨0x50D018, 16, 1, 0, false, [⟨12, 4, .rw, false, 0⟩, ⟨11, 1, .rw, false, 0⟩, ⟨0, 8, .rw, false, 0⟩]⟩,
  ⟨0x50D01A, 8, 1, 0, false, [⟨1, 2, .ro, false, 0⟩, ⟨0, 1, .w1c, false, 0⟩]⟩,
  ⟨0x50D020, 64, 1, 0, true, [⟨0, 64, .rw, false, 0⟩]⟩,
  ⟨0x50D040, 16, 5, 16, false, [⟨15, 1, .rw, true, 0⟩, ⟨14, 1, .rw, true, 0⟩, ⟨0, 7, .rw, true, 0⟩]⟩,
  ⟨0x50D042, 16, 5, 16, false, [⟨9, 1, .w1c, false, 0⟩, ⟨8, 1, .ro, false, 0⟩, ⟨7, 1, .w1c, false, 0⟩, ⟨6, 1, .ro, false, 0⟩, ⟨0, 6, .ro, false, 0⟩]⟩,
  ⟨0x50D048, 48, 5, 16, true, [⟨16, 32, .rw, true, 0⟩, ⟨0, 16, .rw, true, 0⟩]⟩,
  ⟨0x50D0A0, 64, 1, 0, true, [⟨63, 1, .ro, false, 0⟩, ⟨41, 1, .ro, false, 0⟩, ⟨40, 1, .ro, false, 0⟩, ⟨32, 8, .ro, false, 0⟩, ⟨29, 3, .ro, false, 0⟩, ⟨20, 9, .ro, false, 0⟩, ⟨19, 1, .ro, false, 0⟩, ⟨16, 3, .ro, false, 0⟩, ⟨11, 5, .ro, false, 0⟩, ⟨0, 11, .ro, false, 0⟩]⟩,
  ⟨0x50D0A8, 64, 1, 0, true, [⟨0, 54, .ro, false, 0⟩]⟩,
  ⟨0x50D0B0, 8, 1, 0, false, [⟨0, 1, .wo, false, 0⟩]⟩,
  ⟨0x50D0B2, 16, 1, 0, false, [⟨0, 11, .wo, false, 0⟩]⟩,
  ⟨0x50D0B8, 64, 1, 0, true, [⟨63, 1, .ro, false, 0⟩, ⟨62, 1, .ro, false, 0⟩, ⟨54, 8, .ro, false, 0⟩, ⟨0, 54, .ro, false, 0⟩]⟩,
  ⟨0x50D0C0, 48, 1, 0, true, [⟨38, 1, .wo, false, 0⟩, ⟨36, 2, .wo, false, 0⟩, ⟨33, 3, .wo, false, 0⟩, ⟨32, 1, .wo, false, 0⟩, ⟨29, 3, .wo, false, 0⟩, ⟨28, 1, .wo, false, 0⟩, ⟨19, 9, .wo, false, 0⟩, ⟨8, 11, .wo, false, 0⟩, ⟨0, 8, .wo, false, 0⟩]⟩,
  ⟨0x50D0C8, 8, 1, 0, false, [⟨0, 8, .wo, false, 0⟩]⟩,
  ⟨0x50D0C9, 8, 1, 0, false, [⟨1, 1, .w1c, false, 0⟩, ⟨0, 1, .w1c, false, 0⟩]⟩,
  ⟨0x50D0D0, 32, 1, 0, true, [⟨0, 32, .rw, false, 0⟩]⟩,
  ⟨0x50D100, 8, 64, 1, false, [⟨0, 8, .rw, false, 0⟩]⟩,
  ⟨0x50D200, 16, 5, 2, false, [⟨0, 16, .cnt, false, 0⟩]⟩,
  ⟨0x50D20A, 16, 1, 0, false, [⟨0, 16, .cnt, false, 0⟩]⟩,
  ⟨0x50D20C, 16, 1, 0, false, [⟨0, 16, .cnt, false, 0⟩]⟩,
  ⟨0x50D20E, 16, 1, 0, false, [⟨0, 16, .cnt, false, 0⟩]⟩,
  ⟨0x50D210, 16, 1, 0, false, [⟨0, 16, .cnt, false, 0⟩]⟩,
  ⟨0x50D212, 16, 1, 0, false, [⟨0, 16, .cnt, false, 0⟩]⟩,
  ⟨0x50D214, 16, 1, 0, false, [⟨0, 16, .cnt, false, 0⟩]⟩,
  ⟨0x50D216, 16, 1, 0, false, [⟨0, 16, .cnt, false, 0⟩]⟩,
  ⟨0x50D218, 16, 1, 0, false, [⟨0, 16, .cnt, false, 0⟩]⟩,
  ⟨0x50D21A, 16, 1, 0, false, [⟨0, 16, .cnt, false, 0⟩]⟩,
  ⟨0x50D21C, 16, 1, 0, false, [⟨0, 16, .cnt, false, 0⟩]⟩,
  ⟨0x50D21E, 16, 1, 0, false, [⟨0, 16, .cnt, false, 0⟩]⟩,
  ⟨0x50D220, 16, 1, 0, false, [⟨0, 16, .cnt, false, 0⟩]⟩,
  ⟨0x50D222, 16, 1, 0, false, [⟨0, 16, .cnt, false, 0⟩]⟩,
  ⟨0x50D224, 16, 1, 0, false, [⟨0, 16, .cnt, false, 0⟩]⟩]

/-- Forwarding, base 50D000h (spec/10_forwarding.md), part 2. -/
def RegMap.fwd1 : List RegDesc := [
  ⟨0x50D226, 16, 1, 0, false, [⟨0, 16, .cnt, false, 0⟩]⟩,
  ⟨0x50D228, 16, 1, 0, false, [⟨0, 16, .cnt, false, 0⟩]⟩,
  ⟨0x50D22A, 16, 1, 0, false, [⟨0, 16, .cnt, false, 0⟩]⟩,
  ⟨0x50D22C, 16, 1, 0, false, [⟨0, 16, .cnt, false, 0⟩]⟩,
  ⟨0x50D22E, 16, 1, 0, false, [⟨0, 16, .cnt, false, 0⟩]⟩,
  ⟨0x50D7F0, 16, 1, 0, false, [⟨8, 4, .ro, false, 0⟩, ⟨6, 1, .w1c, false, 0⟩, ⟨5, 1, .w1c, false, 0⟩, ⟨4, 1, .ro, false, 0⟩, ⟨1, 1, .wo, false, 0⟩, ⟨0, 1, .wo, false, 0⟩]⟩,
  ⟨0x50D7F2, 16, 1, 0, true, [⟨0, 16, .ro, false, 0⟩]⟩]

/-- Forwarding, base 50D000h: all its registers. -/
def RegMap.fwd : List RegDesc := RegMap.fwd0 ++ RegMap.fwd1

/-- Cipher/Larder, base 50E000h (spec/11_cipher_larder.md). -/
def RegMap.lar : List RegDesc := [
  ⟨0x50E000, 8, 1, 0, false, [⟨1, 1, .rw, false, 0⟩, ⟨0, 1, .rw, false, 0⟩]⟩,
  ⟨0x50E002, 8, 1, 0, false, [⟨4, 4, .ro, false, 0⟩, ⟨3, 1, .ro, false, 0⟩, ⟨1, 1, .ro, false, 0⟩, ⟨0, 1, .ro, false, 0⟩]⟩,
  ⟨0x50E004, 8, 1, 0, false, [⟨0, 1, .ro, false, 0⟩]⟩,
  ⟨0x50E006, 8, 1, 0, false, [⟨4, 1, .ro, false, 0⟩, ⟨3, 1, .w1c, false, 0⟩, ⟨2, 1, .ro, false, 0⟩, ⟨1, 1, .ro, false, 0⟩, ⟨0, 1, .ro, false, 0⟩]⟩,
  ⟨0x50E008, 8, 1, 0, false, [⟨0, 7, .rw, false, 0x3C⟩]⟩,
  ⟨0x50E009, 8, 1, 0, false, [⟨0, 7, .w1c, false, 0⟩]⟩,
  ⟨0x50E00A, 16, 1, 0, false, [⟨8, 8, .rw, false, 0x82⟩, ⟨0, 8, .rw, false, 0xCE⟩]⟩,
  ⟨0x50E100, 16, 128, 2, false, [⟨15, 1, .ro, false, 0⟩, ⟨14, 1, .ro, false, 0⟩, ⟨0, 8, .ro, false, 0⟩]⟩,
  ⟨0x50E300, 16, 1, 0, false, [⟨0, 16, .cnt, false, 0⟩]⟩,
  ⟨0x50E302, 16, 1, 0, false, [⟨0, 16, .cnt, false, 0⟩]⟩,
  ⟨0x50E304, 16, 1, 0, false, [⟨0, 16, .cnt, false, 0⟩]⟩,
  ⟨0x50E306, 16, 1, 0, false, [⟨0, 16, .cnt, false, 0⟩]⟩,
  ⟨0x50E308, 16, 1, 0, false, [⟨0, 16, .cnt, false, 0⟩]⟩,
  ⟨0x50E30A, 16, 1, 0, false, [⟨0, 16, .cnt, false, 0⟩]⟩]

/-- Flash controller, base 50F000h (spec/12_flash.md). -/
def RegMap.fl : List RegDesc := [
  ⟨0x50F000, 8, 1, 0, false, [⟨0, 3, .wo, false, 0⟩]⟩,
  ⟨0x50F004, 32, 1, 0, true, [⟨0, 24, .rw, false, 0⟩]⟩,
  ⟨0x50F008, 32, 1, 0, true, [⟨0, 24, .rw, false, 0⟩]⟩,
  ⟨0x50F010, 64, 1, 0, true, [⟨0, 64, .rw, false, 0⟩]⟩,
  ⟨0x50F018, 64, 2, 8, true, [⟨0, 64, .rw, false, 0⟩]⟩,
  ⟨0x50F028, 64, 2, 8, true, [⟨0, 64, .ro, false, 0⟩]⟩,
  ⟨0x50F040, 16, 1, 0, false, [⟨9, 1, .ro, false, 0⟩, ⟨8, 1, .w1c, false, 0⟩, ⟨7, 1, .w1c, false, 0⟩, ⟨6, 1, .w1c, false, 0⟩, ⟨5, 1, .ro, false, 0⟩, ⟨4, 1, .ro, false, 0⟩, ⟨3, 1, .ro, false, 0⟩, ⟨0, 3, .ro, false, 0⟩]⟩,
  ⟨0x50F042, 8, 1, 0, false, [⟨0, 4, .ro, false, 0⟩]⟩,
  ⟨0x50F044, 8, 1, 0, false, [⟨7, 1, .ro, false, 0⟩, ⟨0, 7, .ro, false, 0⟩]⟩,
  ⟨0x50F048, 32, 1, 0, true, [⟨24, 8, .ro, false, 0⟩, ⟨0, 24, .ro, false, 0⟩]⟩,
  ⟨0x50F04C, 8, 1, 0, false, [⟨0, 4, .rw, false, 4⟩]⟩,
  ⟨0x50F04E, 16, 1, 0, false, [⟨8, 8, .rw, false, 0x14⟩, ⟨0, 8, .rw, false, 0xC⟩]⟩,
  ⟨0x50F050, 8, 1, 0, false, [⟨5, 3, .ro, false, 0⟩, ⟨0, 4, .ro, false, 0⟩]⟩,
  ⟨0x50F054, 32, 1, 0, true, [⟨0, 24, .ro, false, 0⟩]⟩,
  ⟨0x50F058, 8, 1, 0, false, [⟨0, 8, .rw, false, 0⟩]⟩,
  ⟨0x50F05C, 32, 1, 0, true, [⟨31, 1, .ro, false, 0⟩, ⟨30, 1, .ro, false, 0⟩, ⟨29, 1, .ro, false, 0⟩, ⟨0, 24, .ro, false, 0⟩]⟩,
  ⟨0x50F060, 64, 1, 0, true, [⟨0, 64, .ro, false, 0⟩]⟩,
  ⟨0x50F068, 64, 1, 0, true, [⟨0, 64, .ro, false, 0⟩]⟩,
  ⟨0x50F070, 64, 1, 0, true, [⟨0, 64, .rw, false, 0⟩]⟩,
  ⟨0x50F078, 64, 1, 0, true, [⟨0, 64, .rw, false, 0⟩]⟩,
  ⟨0x50F080, 64, 1, 0, true, [⟨0, 64, .rw, false, 0⟩]⟩,
  ⟨0x50F088, 8, 1, 0, false, [⟨0, 1, .rw, false, 0⟩]⟩,
  ⟨0x50F08A, 8, 1, 0, false, [⟨0, 3, .rw, false, 0⟩]⟩,
  ⟨0x50F0C0, 64, 8, 8, true, [⟨63, 1, .rw, false, 0⟩, ⟨62, 1, .rw, false, 0⟩, ⟨48, 4, .rw, false, 0⟩, ⟨16, 11, .rw, false, 0⟩, ⟨0, 10, .rw, false, 0⟩]⟩,
  ⟨0x50F100, 32, 1, 0, true, [⟨29, 3, .ro, false, 0⟩, ⟨24, 5, .ro, false, 0⟩, ⟨0, 24, .ro, false, 0⟩]⟩,
  ⟨0x50F200, 16, 1, 0, false, [⟨0, 16, .cnt, false, 0⟩]⟩,
  ⟨0x50F202, 16, 1, 0, false, [⟨0, 16, .cnt, false, 0⟩]⟩,
  ⟨0x50F204, 16, 1, 0, false, [⟨0, 16, .cnt, false, 0⟩]⟩,
  ⟨0x50F206, 16, 1, 0, false, [⟨0, 16, .cnt, false, 0⟩]⟩,
  ⟨0x50F208, 16, 1, 0, false, [⟨0, 16, .cnt, false, 0⟩]⟩,
  ⟨0x50F20A, 16, 1, 0, false, [⟨0, 16, .cnt, false, 0⟩]⟩,
  ⟨0x50F20C, 16, 1, 0, false, [⟨0, 16, .cnt, false, 0⟩]⟩,
  ⟨0x50F20E, 16, 1, 0, false, [⟨0, 16, .cnt, false, 0⟩]⟩]

/-- Host port, base 510000h (spec/16_host_port.md). -/
def RegMap.hp : List RegDesc := [
  ⟨0x510000, 8, 1, 0, false, [⟨2, 1, .rw, false, 0⟩, ⟨0, 1, .rw, false, 1⟩]⟩,
  ⟨0x510002, 16, 1, 0, false, [⟨15, 1, .rw, false, 0⟩, ⟨11, 1, .rw, false, 1⟩, ⟨9, 1, .rw, false, 1⟩, ⟨0, 8, .rw, false, 0xFF⟩]⟩,
  ⟨0x510004, 16, 1, 0, false, [⟨15, 1, .ro, false, 0⟩, ⟨14, 1, .ro, false, 0⟩, ⟨13, 1, .ro, false, 0⟩, ⟨12, 1, .ro, false, 0⟩, ⟨9, 1, .ro, false, 0⟩, ⟨6, 3, .ro, false, 0⟩]⟩,
  ⟨0x510006, 16, 1, 0, false, [⟨8, 1, .w1c, false, 0⟩, ⟨7, 1, .w1c, false, 0⟩, ⟨6, 1, .w1c, false, 0⟩, ⟨5, 1, .w1c, false, 0⟩, ⟨4, 1, .w1c, false, 0⟩, ⟨3, 1, .w1c, false, 0⟩, ⟨2, 1, .w1c, false, 0⟩, ⟨1, 1, .w1c, false, 0⟩, ⟨0, 1, .w1c, false, 0⟩]⟩,
  ⟨0x510008, 8, 1, 0, false, [⟨1, 1, .rw, false, 1⟩, ⟨0, 1, .rw, false, 1⟩]⟩,
  ⟨0x510010, 64, 4, 8, true, [⟨63, 1, .rw, false, 0⟩, ⟨62, 1, .rw, false, 0⟩, ⟨61, 1, .rw, false, 0⟩, ⟨24, 24, .rw, false, 0⟩, ⟨0, 24, .rw, false, 0⟩]⟩,
  ⟨0x510040, 16, 1, 0, false, [⟨8, 8, .ro, false, 0⟩, ⟨0, 8, .w1c, false, 0⟩]⟩,
  ⟨0x510042, 8, 1, 0, false, [⟨0, 8, .wo, false, 0⟩]⟩,
  ⟨0x510044, 32, 1, 0, true, [⟨31, 1, .ro, false, 1⟩, ⟨0, 24, .ro, false, 0⟩]⟩,
  ⟨0x510048, 32, 1, 0, true, [⟨16, 9, .ro, false, 0⟩, ⟨0, 13, .ro, false, 0x1000⟩]⟩,
  ⟨0x510060, 16, 1, 0, false, [⟨15, 1, .wo, false, 0⟩, ⟨14, 1, .wo, false, 0⟩, ⟨0, 7, .rw, false, 0⟩]⟩,
  ⟨0x510062, 16, 1, 0, false, [⟨15, 1, .rw, false, 0⟩, ⟨8, 4, .rw, false, 0⟩, ⟨0, 8, .rw, false, 0⟩]⟩,
  ⟨0x510064, 8, 1, 0, false, [⟨7, 1, .w1c, false, 0⟩, ⟨0, 7, .ro, false, 0⟩]⟩,
  ⟨0x510100, 16, 64, 2, false, [⟨0, 16, .ro, false, 0⟩]⟩,
  ⟨0x510180, 16, 64, 2, false, [⟨0, 16, .rw, false, 0⟩]⟩,
  ⟨0x510200, 8, 64, 1, false, [⟨0, 8, .rw, false, 0⟩]⟩,
  ⟨0x510300, 16, 1, 0, false, [⟨0, 16, .cnt, false, 0⟩]⟩,
  ⟨0x510302, 16, 1, 0, false, [⟨0, 16, .cnt, false, 0⟩]⟩,
  ⟨0x510304, 16, 1, 0, false, [⟨0, 16, .cnt, false, 0⟩]⟩,
  ⟨0x510306, 16, 1, 0, false, [⟨0, 16, .cnt, false, 0⟩]⟩,
  ⟨0x510308, 16, 1, 0, false, [⟨0, 16, .cnt, false, 0⟩]⟩,
  ⟨0x51030A, 16, 1, 0, false, [⟨0, 16, .cnt, false, 0⟩]⟩]

/-- Update/boot, base 511000h (spec/17_update_selftest.md). -/
def RegMap.upd : List RegDesc := [
  ⟨0x511000, 8, 1, 0, false, [⟨0, 4, .wo, false, 0⟩]⟩,
  ⟨0x511002, 16, 1, 0, false, [⟨15, 1, .ro, false, 0⟩, ⟨14, 1, .ro, false, 0⟩, ⟨13, 1, .ro, false, 0⟩, ⟨12, 1, .ro, false, 0⟩, ⟨8, 4, .ro, false, 0⟩, ⟨4, 4, .ro, false, 0⟩, ⟨0, 4, .ro, false, 0⟩]⟩,
  ⟨0x511004, 32, 1, 0, true, [⟨16, 16, .rw, false, 0⟩, ⟨0, 13, .rw, false, 0⟩]⟩,
  ⟨0x511008, 32, 1, 0, true, [⟨0, 24, .rw, false, 0⟩]⟩,
  ⟨0x51100C, 16, 1, 0, false, [⟨0, 13, .ro, false, 0⟩]⟩,
  ⟨0x51100E, 16, 1, 0, false, [⟨8, 6, .rw, false, 0xC⟩, ⟨0, 6, .rw, false, 0x20⟩]⟩,
  ⟨0x511010, 8, 1, 0, false, [⟨0, 5, .rw, false, 0xC⟩]⟩,
  ⟨0x511012, 8, 1, 0, false, [⟨4, 1, .w1c, false, 0⟩, ⟨0, 4, .ro, false, 0⟩]⟩,
  ⟨0x511014, 16, 1, 0, false, [⟨0, 12, .ro, false, 0⟩]⟩,
  ⟨0x511018, 32, 1, 0, true, [⟨31, 1, .ro, false, 0⟩, ⟨30, 1, .ro, false, 0⟩, ⟨8, 8, .ro, false, 0⟩, ⟨0, 8, .ro, false, 0⟩]⟩,
  ⟨0x51101C, 32, 1, 0, false, [⟨31, 1, .w1c, false, 0⟩, ⟨30, 1, .w1c, false, 0⟩, ⟨29, 1, .ro, false, 0⟩, ⟨28, 1, .ro, false, 0⟩, ⟨27, 1, .ro, false, 0⟩, ⟨16, 8, .ro, false, 0⟩, ⟨12, 4, .ro, false, 0⟩, ⟨8, 4, .ro, false, 0⟩]⟩,
  ⟨0x511020, 32, 1, 0, true, [⟨0, 32, .ro, false, 0⟩]⟩,
  ⟨0x511300, 16, 1, 0, false, [⟨0, 16, .cnt, false, 0⟩]⟩,
  ⟨0x511302, 16, 1, 0, false, [⟨0, 16, .cnt, false, 0⟩]⟩,
  ⟨0x511304, 16, 1, 0, false, [⟨0, 16, .cnt, false, 0⟩]⟩,
  ⟨0x511306, 16, 1, 0, false, [⟨0, 16, .cnt, false, 0⟩]⟩]

/-- Self-test, base 512000h (spec/17_update_selftest.md). -/
def RegMap.bist : List RegDesc := [
  ⟨0x512000, 8, 1, 0, false, [⟨1, 1, .wo, false, 0⟩, ⟨0, 1, .rw, false, 0⟩]⟩,
  ⟨0x512002, 16, 1, 0, false, [⟨0, 16, .rw, false, 0x64⟩]⟩,
  ⟨0x512004, 32, 1, 0, true, [⟨0, 19, .rw, false, 0x7FFFF⟩]⟩,
  ⟨0x512008, 32, 1, 0, true, [⟨0, 20, .ro, false, 0⟩]⟩,
  ⟨0x51200C, 32, 1, 0, true, [⟨0, 20, .ro, false, 0⟩]⟩,
  ⟨0x512010, 16, 1, 0, false, [⟨15, 1, .ro, false, 0⟩, ⟨8, 5, .ro, false, 0⟩, ⟨0, 4, .ro, false, 0⟩]⟩,
  ⟨0x512014, 16, 1, 0, false, [⟨0, 16, .rw, false, 0⟩]⟩,
  ⟨0x512016, 16, 1, 0, false, [⟨0, 16, .ro, false, 0⟩]⟩,
  ⟨0x512300, 16, 1, 0, false, [⟨0, 16, .cnt, false, 0⟩]⟩,
  ⟨0x512302, 16, 1, 0, false, [⟨0, 16, .cnt, false, 0⟩]⟩,
  ⟨0x512304, 16, 1, 0, false, [⟨0, 16, .cnt, false, 0⟩]⟩,
  ⟨0x512306, 16, 1, 0, false, [⟨0, 16, .cnt, false, 0⟩]⟩]

/-- Debug, base 513000h (spec/17_update_selftest.md). -/
def RegMap.dbg : List RegDesc := [
  ⟨0x513000, 8, 1, 0, false, [⟨7, 1, .rw, false, 0⟩, ⟨5, 2, .rw, false, 0⟩, ⟨4, 1, .wo, false, 0⟩, ⟨3, 1, .wo, false, 0⟩, ⟨2, 1, .wo, false, 0⟩, ⟨1, 1, .wo, false, 0⟩]⟩,
  ⟨0x513002, 8, 1, 0, false, [⟨7, 1, .ro, false, 0⟩, ⟨6, 1, .ro, false, 0⟩, ⟨4, 2, .ro, false, 0⟩, ⟨3, 1, .w1c, false, 0⟩, ⟨0, 2, .ro, false, 0⟩]⟩,
  ⟨0x513010, 128, 1, 0, true, [⟨0, 128, .ro, false, 0⟩]⟩,
  ⟨0x513020, 128, 1, 0, true, [⟨0, 128, .wo, false, 0⟩]⟩,
  ⟨0x513030, 16, 1, 0, false, [⟨0, 16, .ro, false, 0⟩]⟩,
  ⟨0x513032, 8, 1, 0, false, [⟨0, 8, .ro, false, 0⟩]⟩,
  ⟨0x513300, 16, 1, 0, false, [⟨0, 16, .cnt, false, 0⟩]⟩]

/-- The register map of the block at a 4 KiB page number (byte address / 1000h); a page without a block has no
registers. CPA (50Ah) and CPB (50Bh) share one map. -/
def RegMap.block : Nat → List RegDesc
  | 0x500 => RegMap.sys
  | 0x501 => RegMap.pwr
  | 0x502 => RegMap.whisk
  | 0x503 => RegMap.brn
  | 0x504 => RegMap.tb
  | 0x505 => RegMap.rtc
  | 0x506 => RegMap.tmr
  | 0x507 => RegMap.lio
  | 0x508 => RegMap.fe
  | 0x509 => RegMap.mod
  | 0x50A => RegMap.cp
  | 0x50B => RegMap.cp
  | 0x50C => RegMap.mac
  | 0x50D => RegMap.fwd
  | 0x50E => RegMap.lar
  | 0x50F => RegMap.fl
  | 0x510 => RegMap.hp
  | 0x511 => RegMap.upd
  | 0x512 => RegMap.bist
  | 0x513 => RegMap.dbg
  | _ => []

end Sys2Proof.Machine
end

