-- ==== Sys2Proof/Machine/Ops.lean ====
section
/-! DEFINITION. The shared operations over the state: reading and writing fields of the register file, counters, memory
bytes, free values, the firing of an event through the Whisk's channels (R122 to R136), and the commit of staged
fields (R34 to R38). -/

namespace Sys2Proof.Machine

/-! ### Fields -/

/-- The value a field holds, of its width: the one listed, or its reset value. -/
def State.rd (s : State) (f : Fld) : Nat := (lookup s.regs f.bit).getD f.rst % 2 ^ f.w

/-- A field takes a value, cut to its width. -/
def State.wr (s : State) (f : Fld) (v : Nat) : State :=
  { s with regs := insert s.regs f.bit (v % 2 ^ f.w) }

/-- A one-bit field reads 1. -/
def State.on (s : State) (f : Fld) : Bool := s.rd f != 0

/-- A one-bit field becomes 1. -/
def State.set1 (s : State) (f : Fld) : State := s.wr f 1

/-- A field becomes 0. -/
def State.clr (s : State) (f : Fld) : State := s.wr f 0

/-- A one-bit field takes a Bool. -/
def State.wrB (s : State) (f : Fld) (b : Bool) : State := s.wr f (b2n b)

/-- Bit i of a field becomes 1. -/
def State.setBit (s : State) (f : Fld) (i : Nat) : State := s.wr f (orBit (s.rd f) i)

/-- Bit i of a field becomes 0. -/
def State.clrBit (s : State) (f : Fld) (i : Nat) : State := s.wr f (clearMask (s.rd f) (1 <<< i))

/-- A counter that saturates at all ones counts one (R44). -/
def State.inc (s : State) (f : Fld) : State := s.wr f (min (s.rd f + 1) (2 ^ f.w - 1))

/-- A counter that wraps counts one. -/
def State.incW (s : State) (f : Fld) : State := s.wr f (s.rd f + 1)

/-- Applies f when the condition holds. -/
def State.whenB (s : State) (c : Bool) (f : State → State) : State := if c then f s else s

/-- Every field of the registers from byte address lo to hi - 1 returns to its reset value. -/
def State.resetRange (s : State) (lo hi : Nat) : State :=
  { s with regs := eraseRange s.regs (8 * lo) (8 * hi) }

/-- A reset of a block: its registers take their reset values, its latches and holding copies empty (R38, R41). -/
def State.resetPage (s : State) (page : Nat) : State :=
  { s.resetRange (0x1000 * page) (0x1000 * page + 0x1000) with
    latches := s.latches.filter (fun l => l.page ≠ page)
    holds := s.holds.filter (fun l => l.page ≠ page) }

/-! ### Free values -/

/-- The next free value and the state that has used it. -/
def State.free (s : State) : Nat × State := (Config.free s.freeSeq, { s with freeSeq := s.freeSeq + 1 })

/-- A field takes a free value. -/
def State.wrFree (s : State) (f : Fld) : State := s.free.2.wr f s.free.1

/-- n free bytes and the state that has used them. -/
def State.freeBytes (s : State) (n : Nat) : List Byte × State :=
  ((List.range n).map fun i => BitVec.ofNat 8 (Config.free (s.freeSeq + i)), { s with freeSeq := s.freeSeq + n })

/-- A request to a partition during its slice waits for the slice's end and is counted (R42). -/
def bistHold (part : Nat) (s : State) : State := if s.bistPart = some part then s.inc F.BIST_HOLD else s

/-! ### Outputs on VDDIO (R475) -/

/-- VDDIO is absent, as its monitor shows, or the whole device is unpowered (DEDUCED, notes/assumptions/95.md). -/
def State.ioOff (s : State) : Bool := s.on F.PWR_STAT_VDDIOLOW || s.boot.aonDown

/-- The level of an output ball on VDDIO that the device drives; none at high impedance, where every one is while VDDIO is absent. -/
def State.outBall (s : State) (lvl : Option Bool) : Option Bool := if s.ioOff then none else lvl

/-! ### Memory (R25) -/

/-- The parts of the physical address space. -/
inductive Region where
  | flash (bank : Nat)
  | sram (bank : Nat)
  | ctx
  | fbuf
  | regs (page : Nat)
  | fine
  | rom
  | none
  deriving DecidableEq, Repr

/-- The region of a physical address (R25). -/
def region (a : Nat) : Region :=
  if a < 0x400000 then .flash (a / 0x100000)
  else if a < 0x480000 then .sram ((a - 0x400000) / 0x8000)
  else if a < 0x488000 then .ctx
  else if 0x490000 ≤ a ∧ a < 0x4B0000 then .fbuf
  else if 0x500000 ≤ a ∧ a < 0x514000 then .regs (a / 0x1000)
  else if 0x540000 ≤ a ∧ a < 0x580000 then .fine
  else if 0x600000 ≤ a ∧ a < 0x608000 then .rom
  else .none

/-- The loss counter that covers a byte of RAM: 0 to 15 the SRAM banks, 16 the frame buffer. -/
def ramBank (a : Nat) : Option Nat :=
  match region a with
  | .sram b => some b
  | .fbuf => some 16
  | _ => none

/-- How often the RAM behind a byte has lost its supply. -/
def State.losses (s : State) (a : Nat) : Nat :=
  match ramBank a with
  | some b => s.ramLoss.getD b 0
  | none => 0

/-- What an unlisted byte reads as, where that is one known byte: erased flash reads FFh and context RAM 00h; SRAM and the
frame buffer hold arbitrary values after a power-up (R268, R363; notes/assumptions/4.md). -/
def memDef (a : Nat) : Option Byte :=
  match region a with
  | .flash _ => some 0xFF
  | .fine => some 0xFF
  | .ctx => some 0
  | _ => none

/-- The byte memory holds at an address; a byte of RAM that lost its supply is a free value until written. -/
def State.byte (s : State) (a : Nat) : Byte :=
  match lookup s.mem a with
  | some v => v
  | none =>
    match memDef a with
    | some v => v
    | none => if region a = .rom then Config.romByte a else Config.ramByte (s.losses a) a

/-- Memory takes a byte; the list stays in its canonical form. -/
def State.setByte (s : State) (a : Nat) (v : Byte) : State :=
  { s with mem := if memDef a = some v then erase s.mem a else insert s.mem a v }

/-- n bytes from an address. -/
def State.bytes (s : State) (a n : Nat) : List Byte := (List.range n).map (fun i => s.byte (a + i))

/-- Writes a list of bytes from an address on. -/
def State.setBytes (s : State) (a : Nat) : List Byte → State
  | [] => s
  | v :: t => (s.setByte a v).setBytes (a + 1) t

/-- n bytes from an address as a number, least significant byte first (R8). -/
def State.leAt (s : State) (a n : Nat) : Nat := leNat (s.bytes a n)

/-- Writes a number as n bytes, least significant byte first (R8). -/
def State.setLe (s : State) (a n v : Nat) : State := s.setBytes a (leBytes n v)

/-- The canonical form of memory: addresses rise strictly, each lies in a memory that is no register block or ROM, and
no byte is listed with the value it would read unlisted. -/
def State.memWf (s : State) : Bool :=
  sortedKeys s.mem && s.mem.all (fun c => memDef c.1 ≠ some c.2)

/-- RAM from lo to hi - 1, the part with a loss counter, loses its contents. -/
def State.loseRam (s : State) (bank lo hi : Nat) : State :=
  { s with mem := eraseRange s.mem lo hi, ramLoss := setAt 0 s.ramLoss bank (s.ramLoss.getD bank 0 + 1) }

/-! ### Events and channels -/

/-- The block (bit of BRN_SECBLK) whose events a source number is (R138); sources 16 to 31 are the burners'. -/
def sourceBlock (src : Nat) : Nat :=
  if src ≤ 4 then 0 else if src ≤ 15 then 1 else if src ≤ 31 then 3 else if src ≤ 39 then 4
  else if src ≤ 47 then 5 else if src ≤ 71 then 6 else if src ≤ 87 then 7 else if src ≤ 95 then 8
  else if src ≤ 119 then 9 else if src ≤ 127 then 10 else if src ≤ 135 then 11 else if src ≤ 151 then 12
  else if src ≤ 167 then 13 else if src ≤ 174 then 14 else if src = 175 then 3 else if src ≤ 183 then 15
  else if src ≤ 187 then 16 else if src ≤ 189 then 17 else 18

/-- A block is marked secure in BRN_SECBLK; burner control always is. -/
def State.blkSecure (s : State) (k : Nat) : Bool := k == 3 || bitOf (s.rd F.BRN_SECBLK_BLK) k

/-- The world of a burner is secure. -/
def State.brnSecure (s : State) (b : Nat) : Bool := s.on (F.BRN_CFG_WORLD b)

/-- A source is secure at a firing (R131). -/
def State.srcSecure (s : State) (src : Nat) : Bool :=
  if 16 ≤ src ∧ src ≤ 31 then s.brnSecure (src - 16)
  else if src = 175 then s.brnSecure s.c3.issuer
  else s.blkSecure (sourceBlock src)

/-- The block a task number belongs to, for the tasks that a chapter names (R124). -/
def taskBlock (t : Nat) : Option Nat :=
  if 16 ≤ t ∧ t ≤ 18 then some 5
  else if 24 ≤ t ∧ t ≤ 47 then some 6
  else if 48 ≤ t ∧ t ≤ 53 then some 7
  else if 64 ≤ t ∧ t ≤ 67 then some 8
  else if 72 ≤ t ∧ t ≤ 87 then some 9
  else if 88 ≤ t ∧ t ≤ 91 then some 10
  else if 92 ≤ t ∧ t ≤ 95 then some 11
  else if 96 ≤ t ∧ t ≤ 100 then some 12
  else if 104 ≤ t ∧ t ≤ 105 then some 13
  else if t = 112 then some 14
  else if t = 116 then some 15
  else if 120 ≤ t ∧ t ≤ 122 then some 16
  else if t = 124 then some 17
  else if t = 125 then some 18
  else none

/-- A task of this number is performed in Rest (R134). -/
def taskInRest (t : Nat) : Bool :=
  (16 ≤ t && t ≤ 18) || (24 ≤ t && t ≤ 47) || t == 49 || t == 112

/-- The always-on domain runs: it is powered, and no reset that clears it is asserted (R67, R350). -/
def State.aonUp (s : State) : Bool := !s.boot.aonDown && !(s.boot.held && s.boot.aon)

/-- The core domain is without power or isolated (R362). -/
def State.inRest (s : State) : Bool := s.rest == .isolated || s.rest == .asleep || s.rest == .exiting

/-- The core domain runs: no reset holds it, and the device is not in Rest (R93, R362). -/
def State.coreUp (s : State) : Bool := !s.boot.held && !s.inRest

/-- Something is withheld from an open channel (R131). -/
def withheld (s : State) : State := (s.set1 F.WHISK_ERR_SECMASK).inc F.WHISK_SECMASK

/-- The power block notes a wake. -/
def markWake (s : State) : State := { s with pwr := { s.pwr with wake := true } }

/-- A channel's firing sets its sticky flag, or its overrun bit and counter where the flag is still set (R125). -/
def channelFlag (c : Nat) (s : State) : State :=
  if bitOf (s.rd F.WHISK_FLAG_FLAG) c then (s.setBit F.WHISK_OVRF_OVR c).inc (F.WHISK_OVR c)
  else s.setBit F.WHISK_FLAG_FLAG c

/-- A cause to leave Rest, or to give up an entry, is noted while the device is not simply running (R134, R364). -/
def noteWake (s : State) : State :=
  if s.rest = .running then s else markWake s

/-- A channel's firing reaches one burner wake (R124, R79); while a reset holds the core domain BRN_WPEND keeps its reset value (R93,
notes/assumptions/78.md). -/
def channelWake (c n : Nat) (s : State) : State :=
  if s.boot.held then s else noteWake (s.setBit (F.BRN_WPEND_PEND n) c)

/-- A channel's firing reaches one task input: lost in Rest, or queued to be performed (R124, R134); while a reset holds the core
domain only the tasks of the blocks outside it are performed (notes/assumptions/78.md). -/
def channelTask (t : Nat) (s : State) : State :=
  if s.boot.held && !taskInRest t then s
  else if s.inRest && !taskInRest t then (s.set1 F.WHISK_ERR_TLOST).inc F.WHISK_TLOST
  else { s with taskq := s.taskq ++ [t] }

/-- The task inputs that a channel drives: those subscribed to it that a chapter names (R124). -/
def State.tasksOf (s : State) (c : Nat) : List Nat :=
  (List.range 128).filter fun t => s.on (F.WHISK_TASK_EN t) && s.rd (F.WHISK_TASK_CH t) == c && (taskBlock t).isSome

/-- A burner wake is open to channel c (R131). -/
def State.wakeOpen (s : State) (c n : Nat) : Bool := s.on (F.WHISK_CFG_SEC c) || !s.brnSecure n

/-- A task input is open to channel c (R131). -/
def State.taskOpen (s : State) (c t : Nat) : Bool := s.on (F.WHISK_CFG_SEC c) || !(taskBlock t).any s.blkSecure

/-- A firing of channel c, with the destinations that the settings and the security maps of this moment give it (R131, R137). -/
def State.firing (s : State) (c : Nat) : Firing where
  chan := c
  masked := s.rd (F.WHISK_WAKE_MASK c) != 0
  wakes := (bitsSet 16 (s.rd (F.WHISK_WAKE_MASK c))).filter (s.wakeOpen c)
  tasks := (s.tasksOf c).filter (s.taskOpen c)

/-- How many destinations are withheld from a firing of channel c (R131). -/
def State.withheldOf (s : State) (c : Nat) : Nat :=
  ((bitsSet 16 (s.rd (F.WHISK_WAKE_MASK c))).filter fun n => !s.wakeOpen c n).length +
    ((s.tasksOf c).filter fun t => !s.taskOpen c t).length

/-- A firing reaches its destinations (R124, R125). -/
def deliver (f : Firing) (s : State) : State :=
  f.tasks.foldl (fun s t => channelTask t s) (f.wakes.foldl (fun s n => channelWake f.chan n s) (channelFlag f.chan s))

/-- A firing that comes in while a Rest entry closes, of a channel that names a burner, ends the entry (R134). -/
def noteFiring (f : Firing) (s : State) : State := if f.masked && s.rest == .closing then markWake s else s

/-- XK32 ticks for which a group of channels after a firing, and the flash ECC logic after a read, count as busy: 300 µs (R136, R342;
notes/assumptions/59.md). -/
def busyTicks : Nat := 10

/-- A channel's group counts as busy anew (R136). -/
def groupFired (c : Nat) (s : State) : State := { s with whiskAge := setAt 0 s.whiskAge (c / 8) busyTicks }

/-- A firing of a group under self-test is held (R136). -/
def holdFiring (f : Firing) (s : State) : State := { s with whiskHeld := s.whiskHeld ++ [f] }

/-- Channel c fires: what is closed to it is withheld and counted; one whose group is under self-test is held until the slice's end,
else it reaches its destinations. A channel of a stopped group never fires (R124, R131, R136). Every firing is
delivered by itself, however near the last one (R128 'may'; DESIGN CHOICE, notes/assumptions/103.md). -/
def channelFire (c : Nat) (s : State) : State :=
  if bitOf (s.rd F.WHISK_GRPRET_RET) (c / 8) then s
  else
    let f := s.firing c
    let s1 := groupFired c (noteFiring f ((List.range (s.withheldOf c)).foldl (fun s _ => withheld s) s))
    if s.whiskTest = some (c / 8) then (holdFiring f s1).inc F.BIST_HOLD else deliver f s1

/-- The channels enabled on a source. -/
def State.channelsOf (s : State) (src : Nat) : List Nat :=
  (List.range 64).filter (fun c => s.on (F.WHISK_CFG_EN c) && s.rd (F.WHISK_CFG_SRC c) == src)

/-- The block of a source runs in Rest, for source 144 the lead of a window or slot: the others fire nothing there (R134, R254, R261). -/
def srcInRest (src : Nat) : Bool := src ≤ 15 || (32 ≤ src && src ≤ 87) || src == 144 || src == 171 || src == 172

/-- A source produces an event: every enabled channel that selects it fires, an open channel only if the source is not
secure (R122, R131). -/
def fireAs (secure : Bool) (src : Nat) (s : State) : State :=
  if s.inRest && !srcInRest src then s else
  let s0 := { s with fired := s.fired ++ [src] }
  let cs := s0.channelsOf src
  let go := cs.filter (fun c => s0.on (F.WHISK_CFG_SEC c) || !secure)
  let s1 := if go.length < cs.length then withheld s0 else s0
  go.foldl (fun s c => channelFire c s) s1

/-- A source produces an event, its security taken from the maps in force (R131). -/
def fire (src : Nat) (s : State) : State := fireAs (s.srcSecure src) src s

/-- An access error is recorded and source 2 fires (R26, R40, R123). -/
def accErr (f : Fld) (acc : Nat) (s : State) : State :=
  fire 2 ((s.set1 f).wr F.SYS_ACCERR_ACCESSOR acc)

/-! ### Commit of staged fields -/

/-- The staged fields of a block, as handles of their active copies. -/
def stagedFlds (page : Nat) : List Fld :=
  (RegMap.block page).flatMap fun r =>
    ((List.range r.count).map (fun i => r.addr + i * r.stride)).flatMap fun a =>
      if a / 0x1000 = page then (r.fields.filter (·.st)).map fun f => Fld.at (a + 0x800) f.lo f.w f.rst
      else []

/-- BLOCK_COMMIT.PEND and its neighbours, for the block at a page (R34). -/
def cmtFld (page lo w : Nat) : Fld := .at (0x1000 * page + 0x7F0) lo w 0
/-- BLOCK_CMTCNT.COUNT. -/
def cmtCount (page : Nat) : Fld := .at (0x1000 * page + 0x7F2) 0 16 0
/-- BLOCK_COMMIT.PEND. -/
def cmtPend (page : Nat) : Fld := cmtFld page 4 1
/-- BLOCK_COMMIT.DONE. -/
def cmtDone (page : Nat) : Fld := cmtFld page 5 1
/-- BLOCK_COMMIT.REJ. -/
def cmtRej (page : Nat) : Fld := cmtFld page 6 1
/-- BLOCK_COMMIT.REASON. -/
def cmtReason (page : Nat) : Fld := cmtFld page 8 4

/-- Every active copy of a block takes its staging copy (R18, R35). -/
def applyStaged (page : Nat) (s : State) : State :=
  (stagedFlds page).foldl (fun s f => s.wr f (s.rd f.stg)) s

/-- A block's commit event: source 1 fires and the block's bit of WHISK_CMTBLK sets (R133). -/
def fireCommit (page : Nat) (s : State) : State :=
  let k := page - 0x500
  fireAs (s.blkSecure k) 1 (s.setBit F.WHISK_CMTBLK_BLK k)

/-- A boundary reached with PEND set: the snapshot is checked, applied or rejected with the lowest failing code, PEND
clears and the commit event fires (R35). -/
def commitWith (page : Nat) (check : State → Nat) (s : State) : State :=
  if s.on (cmtPend page) then
    let code := check s
    let s1 := s.clr (cmtPend page)
    let s2 :=
      if code = 0 then ((applyStaged page s1).incW (cmtCount page)).set1 (cmtDone page)
      else (s1.set1 (cmtRej page)).wr (cmtReason page) code
    fireCommit page s2
  else s

/-- The commit of the block at a page is applied, not rejected, at this boundary. -/
def commitApplies (page : Nat) (check : State → Nat) (s : State) : Bool :=
  s.on (cmtPend page) && check s == 0

end Sys2Proof.Machine
end

