-- ==== Sys2Proof/Machine/Flags.lean ====
section
/-! DEFINITION. The Sweune's flags: how every operation computes them (R102), and the branch conditions (R109). -/

namespace Sys2Proof.Machine

/-- The flags of a burner (R69). -/
structure Flags where
  z : Bool
  n : Bool
  c : Bool
  v : Bool
  t : Bool
  deriving DecidableEq, Repr

/-- The flags from BRN_FLAGS: T in [4], V in [3], C in [2], N in [1], Z in [0]. -/
def Flags.ofNat (x : Nat) : Flags := ⟨bitOf x 0, bitOf x 1, bitOf x 2, bitOf x 3, bitOf x 4⟩

/-- The flags as BRN_FLAGS lays them out. -/
def Flags.toNat (f : Flags) : Nat := b2n f.z + 2 * b2n f.n + 4 * b2n f.c + 8 * b2n f.v + 16 * b2n f.t

/-- The flags of burner b. -/
def State.flags (s : State) (b : Nat) : Flags := .ofNat (s.rd (F.BRN_FLAGS_TVCNZ b))

/-- Burner b's flags take new values. -/
def State.setFlags (s : State) (b : Nat) (f : Flags) : State := s.wr (F.BRN_FLAGS_TVCNZ b) f.toNat

/-- Burner b's T takes a value. -/
def State.setT (s : State) (b : Nat) (t : Bool) : State := s.setFlags b { s.flags b with t := t }

/-- The top bit of a w-bit value. -/
def topBit (w x : Nat) : Bool := bitOf x (w - 1)

/-- Z and N of a w-bit result, the other flags kept. -/
def flagsZN (w r : Nat) (f : Flags) : Flags := { f with z := r == 0, n := topBit w r }

/-- A w-bit sum with carry in. -/
def addRes (w a b cin : Nat) : Nat := (a + b + cin) % 2 ^ w

/-- The flags of a w-bit addition (R102). -/
def addFlags (w a b cin : Nat) (f : Flags) : Flags :=
  let r := addRes w a b cin
  { z := r == 0, n := topBit w r, c := decide (2 ^ w ≤ a + b + cin),
    v := topBit w a == topBit w b && topBit w r != topBit w a, t := f.t }

/-- A w-bit difference with borrow in. -/
def subRes (w a b cin : Nat) : Nat := (a + 2 ^ (w + 1) - b - cin) % 2 ^ w

/-- The flags of a w-bit subtraction: C is the borrow (R102). -/
def subFlags (w a b cin : Nat) (f : Flags) : Flags :=
  let r := subRes w a b cin
  { z := r == 0, n := topBit w r, c := decide (a < b + cin),
    v := topBit w a != topBit w b && topBit w r != topBit w a, t := f.t }

/-- Z chained, as ADC, SBC and CMPC set it: Z and (r = 0) (R102). -/
def chainZ (old new : Flags) : Flags := { new with z := old.z && new.z }

/-- A branch condition holds (R109). -/
def condHolds (cc : Nat) (f : Flags) : Bool :=
  match cc with
  | 0 => f.z
  | 1 => !f.z
  | 2 => f.c
  | 3 => !f.c
  | 4 => f.n
  | 5 => !f.n
  | 6 => f.v
  | 7 => !f.v
  | 8 => !f.c && !f.z
  | 9 => f.c || f.z
  | 10 => f.n == f.v
  | 11 => f.n != f.v
  | 12 => !f.z && f.n == f.v
  | 13 => f.z || f.n != f.v
  | 14 => f.t
  | _ => !f.t

end Sys2Proof.Machine
end

