-- ==== Sys2Proof/Machine/Operands.lean ====
section
/-! DEFINITION. The operands of Sweune words: byte and pointer registers (R69), sign-extended immediates (R103), and the
24-bit word of each format, as EINFO records it (R95, R103, R112). -/

namespace Sys2Proof.Machine

/-- Byte register i of burner b. -/
def State.breg (s : State) (b i : Nat) : Nat := s.rd (F.BRN_B b i)

/-- Byte register i of burner b takes a value. -/
def State.setBreg (s : State) (b i v : Nat) : State := s.wr (F.BRN_B b i) v

/-- Pointer Pp of burner b: B(2p+1):B(2p) (R69). -/
def State.preg (s : State) (b p : Nat) : Nat := s.breg b (2 * p) + 256 * s.breg b (2 * p + 1)

/-- Pointer Pp of burner b takes a value, modulo 2^16 (R96). -/
def State.setPreg (s : State) (b p v : Nat) : State :=
  (s.setBreg b (2 * p) v).setBreg b (2 * p + 1) (v / 256)

/-- A w-bit immediate sign-extended to 16 bits (R103). -/
def simm16 (v w : Nat) : Nat := if bitOf v (w - 1) then v + 2 ^ 16 - 2 ^ w else v

/-- A pointer or window address plus an immediate, modulo 2^16 (R96). -/
def addP (a b : Nat) : Nat := (a + b) % 2 ^ 16

/-- A long operation: class in [22:18], body in [17:0]. -/
def longWord (cls body : Nat) : Nat := cls * 2 ^ 18 + body

/-- SYS: [17:12] function, [11:0] operands. -/
def sysWord (fn opd : Nat) : Nat := longWord 0 (fn * 2 ^ 12 + opd)

/-- ALU2: [17:12] function. -/
def alu2Word (fn : Nat) (f : Alu2) : Nat :=
  longWord 1 (fn * 2 ^ 12 + f.rsv.toNat * 2 ^ 8 + f.d.toNat * 2 ^ 4 + f.s.toNat)

/-- LDP: classes 00010b and 00011b. -/
def ldpWord (f : LdpF) : Nat := longWord (2 + f.p.toNat / 4) (f.p.toNat % 4 * 2 ^ 16 + f.imm.toNat)

/-- ALUI: [17:15] function. -/
def aluIWord (fn : Nat) (f : AluI) : Nat :=
  longWord 4 (fn * 2 ^ 15 + f.d.toNat * 2 ^ 11 + f.rsv.toNat * 2 ^ 8 + f.imm.toNat)

/-- ADDPI: [14:13] function. -/
def addpWord (fn : Nat) (f : AddpF) : Nat :=
  longWord 5 (f.p.toNat * 2 ^ 15 + fn * 2 ^ 13 + f.rsv.toNat * 2 ^ 12 + f.imm.toNat)

/-- LDB (class 6) and STB (class 7). -/
def memWord (cls : Nat) (f : MemF) : Nat :=
  longWord cls (f.r.toNat * 2 ^ 14 + f.p.toNat * 2 ^ 11 + f.mode.toNat * 2 ^ 9 + f.imm.toNat)

/-- ATOM: [17:15] function. -/
def atomWord (fn : Nat) (f : AtomF) : Nat :=
  longWord 8 (fn * 2 ^ 15 + f.d.toNat * 2 ^ 11 + f.s.toNat * 2 ^ 7 + f.p.toNat * 2 ^ 4 + f.rsv.toNat * 2 ^ 3
    + f.bit.toNat)

/-- BR. -/
def brWord (f : BrF) : Nat := longWord 9 (f.cond.toNat * 2 ^ 14 + f.off.toNat)

/-- JMP (class 10) and CALL (class 11). -/
def jmpWord (cls : Nat) (f : JmpF) : Nat := longWord cls (f.rsv.toNat * 2 ^ 16 + f.tgt.toNat)

/-- One half of a clause, 11 bits. -/
def halfWord (h : ClauseHalf) : Nat := h.op.toNat * 2 ^ 8 + h.d.toNat * 2 ^ 4 + h.s.toNat

/-- A clause. -/
def clauseWord (f : ClauseF) : Nat :=
  2 ^ 23 + f.hint.toNat * 2 ^ 22 + halfWord f.h1 * 2 ^ 11 + halfWord f.h2

/-- An adverb: kind 0 CX, 1 CRD, 2 CWR, 3 CSYNC; [17:15] the coprocessor. -/
def adverbWord (kind cp rest : Nat) : Nat := longWord (28 + kind) (cp * 2 ^ 15 + rest)

/-- A CX in the C0 layout: [14:10] function, [9:0] operand (R117). -/
def cxWord (cp fn opd : Nat) : Nat := adverbWord 0 cp (fn * 2 ^ 10 + opd)

/-- A CX to C3: [14:12] function (R120). -/
def c3Word (fn : Nat) (f : C3F) : Nat :=
  adverbWord 0 3 (fn * 2 ^ 12 + f.d.toNat * 2 ^ 8 + f.a.toNat * 2 ^ 4 + f.b.toNat)

/-- A CRD (kind 1) or CWR (kind 2). -/
def crWord (kind : Nat) (f : CrF) : Nat := adverbWord kind f.cp.toNat (f.r.toNat * 2 ^ 11 + f.cr.toNat)

end Sys2Proof.Machine
end

