-- ==== Sys2Proof/Machine/P256.lean ====
section
/-! DEFINITION. Arithmetic modulo a number and on the curve P-256, as C3 (R120, R498) and the boot ROM's signature check
use it. The constants are those of FIPS 186, which the spec names but does not print (notes/assumptions/7.md). -/

namespace Sys2Proof.Machine.P256

/-- The field prime. -/
def p : Nat := 0xFFFFFFFF00000001000000000000000000000000FFFFFFFFFFFFFFFFFFFFFFFF
/-- The group order. -/
def n : Nat := 0xFFFFFFFF00000000FFFFFFFFFFFFFFFFBCE6FAADA7179E84F3B9CAC2FC632551
/-- The curve's constant term. -/
def b : Nat := 0x5AC635D8AA3A93E7B3EBBD55769886BC651D06B0CC53B0F63BCE3C3E27D2604B
/-- The base point's x. -/
def gx : Nat := 0x6B17D1F2E12C4247F8BCE6E563A440F277037D812DEB33A0F4A13945D898C296
/-- The base point's y. -/
def gy : Nat := 0x4FE342E2FE1A7F9B8EE7EB4A7C0F9E162BCE33576B315ECECBB6406837BF51F5

/-- (a − b) mod m. -/
def subMod (a b m : Nat) : Nat := (a % m + m - b % m) % m

/-- Euclid's algorithm on (r0, r1), carrying the coefficients modulo m; fuel bounds the steps. -/
def euclid : Nat → Nat → Nat → Nat → Nat → Nat → Nat × Nat
  | 0, _, r0, _, t0, _ => (r0, t0)
  | k + 1, m, r0, r1, t0, t1 =>
    if r1 = 0 then (r0, t0)
    else euclid k m r1 (r0 % r1) t1 (subMod t0 (r0 / r1 % m * t1) m)

/-- The inverse of a modulo m, when a and m share no factor but 1. -/
def invMod (a m : Nat) : Option Nat :=
  let r := euclid 800 m m (a % m) 0 (1 % m)
  if r.1 = 1 then some (r.2 % m) else none

/-- y² = x³ − 3x + b modulo p. Coordinates of p or more are taken modulo p (DESIGN CHOICE, notes/assumptions/99.md). -/
def onCurve (x y : Nat) : Bool :=
  y * y % p == subMod (x * x % p * x + b) (3 * x) p

/-- The chord or tangent step with a given slope. -/
def chord (x1 y1 x2 l : Nat) : Nat × Nat :=
  let x3 := subMod (l * l) (x1 + x2) p
  (x3, subMod (l * subMod x1 x3 p) y1 p)

/-- The sum of two points; none is the point at infinity. -/
def add : Option (Nat × Nat) → Option (Nat × Nat) → Option (Nat × Nat)
  | none, q => q
  | some a, none => some a
  | some (x1, y1), some (x2, y2) =>
    let x1 := x1 % p
    let y1 := y1 % p
    let x2 := x2 % p
    let y2 := y2 % p
    if x1 = x2 then
      if (y1 + y2) % p = 0 then none
      else (invMod (2 * y1) p).map fun i => chord x1 y1 x2 (subMod (3 * x1 * x1) 3 p * i % p)
    else (invMod (subMod x2 x1 p) p).map fun i => chord x1 y1 x2 (subMod y2 y1 p * i % p)

/-- k times a point, over the low bits of k. -/
def mulGo : Nat → Nat → Option (Nat × Nat) → Option (Nat × Nat) → Option (Nat × Nat)
  | 0, _, _, acc => acc
  | j + 1, k, q, acc => mulGo j (k / 2) (add q q) (if k % 2 = 1 then add acc q else acc)

/-- k times a point, for a 256-bit k. -/
def mul (k : Nat) (q : Nat × Nat) : Option (Nat × Nat) := mulGo 256 k (some q) none

/-- An ECDSA signature (r, s) over a digest verifies under a public key (FIPS 186). -/
def verify (key : Nat × Nat) (digest r s : Nat) : Bool :=
  if r = 0 || n ≤ r || s = 0 || n ≤ s || !onCurve key.1 key.2 then false
  else
    match invMod s n with
    | none => false
    | some w =>
      match add (mul (digest % n * w % n) (gx, gy)) (mul (r * w % n) key) with
      | none => false
      | some (x, _) => x % n == r

end Sys2Proof.Machine.P256
end

