-- ==== Sys2Proof/Machine/Coproc.lean ====
section
/-! DEFINITION. The coprocessors C0 (R117), C1 (R118) and C3 (R120, R121, R498) of the Sweune, and CPRESENT (R113). -/

namespace Sys2Proof.Machine

/-- The hidden state of burner b. -/
def State.bx (s : State) (b : Nat) : BurnerX := s.brn.getD b {}

/-- Changes the hidden state of burner b. -/
def State.modBx (s : State) (b : Nat) (f : BurnerX → BurnerX) : State := { s with brn := modAt {} s.brn b f }

/-- CPRESENT: C0 to C3, without those whose self-test partition is retired (R113, R460, R320). -/
def State.cpresent (s : State) : Nat :=
  (if bitOf (s.rd F.BIST_RET_PART) 18 then 0 else 0b1011) + (if bitOf (s.rd F.BIST_RET_PART) 10 then 0 else 0b0100)

/-! ### C0 -/

/-- A result enters the accumulator: it wraps modulo 2^40, and OVF sets when it leaves the 40-bit range (R117). -/
def c0Store (isSigned : Bool) (r : Int) (x : BurnerX) : BurnerX :=
  let inRange := if isSigned then -(2 ^ 39) ≤ r && r < 2 ^ 39 else 0 ≤ r && r < 2 ^ 40
  { x with c0a := ofInt r 40, c0stat := if inRange then x.c0stat else orBit x.c0stat 0 }

/-- CLR: A := 0. -/
def c0Clr (x : BurnerX) : BurnerX := { x with c0a := 0 }
/-- X × Y, signed. -/
def c0Prod (x : BurnerX) : Int := signed x.c0x 16 * signed x.c0y 16
/-- MUL. -/
def c0Mul (x : BurnerX) : BurnerX := c0Store true (c0Prod x) x
/-- MAC. -/
def c0Mac (x : BurnerX) : BurnerX := c0Store true (signed x.c0a 40 + c0Prod x) x
/-- MSU. -/
def c0Msu (x : BurnerX) : BurnerX := c0Store true (signed x.c0a 40 - c0Prod x) x
/-- MULU. -/
def c0MulU (x : BurnerX) : BurnerX := c0Store false ((x.c0x * x.c0y : Nat) : Int) x
/-- MACU. -/
def c0MacU (x : BurnerX) : BurnerX := c0Store false ((x.c0a + x.c0x * x.c0y : Nat) : Int) x
/-- SHRA #n: an arithmetic shift right. -/
def c0ShrA (n : Nat) (x : BurnerX) : BurnerX := { x with c0a := ofInt (signed x.c0a 40 / 2 ^ n) 40 }
/-- SATA: A clamped to 16 bits, SAT set if A changed. -/
def c0SatA (x : BurnerX) : BurnerX :=
  let a := ofInt (clampInt (-0x8000) 0x7FFF (signed x.c0a 40)) 40
  { x with c0a := a, c0stat := if a = x.c0a then x.c0stat else orBit x.c0stat 1 }

/-- The byte of a C0 register, where it is defined. -/
def c0Read (x : BurnerX) (cr : Nat) : Option Nat :=
  if cr ≤ 1 then some (bitsOf x.c0x (8 * cr) 8)
  else if cr ≤ 3 then some (bitsOf x.c0y (8 * (cr - 2)) 8)
  else if cr ≤ 8 then some (bitsOf x.c0a (8 * (cr - 4)) 8)
  else if cr = 9 then some x.c0stat
  else none

/-- A write of a C0 register byte. -/
def c0Write (x : BurnerX) (cr v : Nat) : BurnerX :=
  if cr ≤ 1 then { x with c0x := setBits x.c0x (8 * cr) 8 v }
  else if cr ≤ 3 then { x with c0y := setBits x.c0y (8 * (cr - 2)) 8 v }
  else if cr ≤ 8 then { x with c0a := setBits x.c0a (8 * (cr - 4)) 8 v }
  else { x with c0stat := v % 4 }

/-! ### C1 -/

/-- The CRC width selected by CFG. -/
def crcWidth (cfg : Nat) : Nat := match cfg % 4 with | 0 => 8 | 1 => 16 | _ => 32

/-- The CRC polynomial selected by CFG. -/
def crcPoly (cfg : Nat) : Nat := match cfg % 4 with | 0 => 0x2F | 1 => 0x1021 | _ => 0x04C11DB7

/-- v with its w bits in reverse order. -/
def revBits (w v : Nat) : Nat := (List.range w).foldl (fun a i => a + (if bitOf v i then 2 ^ (w - 1 - i) else 0)) 0

/-- One bit step of a CRC that shifts left, k times. -/
def crcLeft (w poly : Nat) : Nat → Nat → Nat
  | 0, s => s
  | k + 1, s => crcLeft w poly k (if bitOf s (w - 1) then (2 * s % 2 ^ w) ^^^ poly else 2 * s % 2 ^ w)

/-- One bit step of a CRC that shifts right, k times. -/
def crcRight (poly : Nat) : Nat → Nat → Nat
  | 0, s => s
  | k + 1, s => crcRight poly k (if bitOf s 0 then (s / 2) ^^^ poly else s / 2)

/-- One byte passes through a CRC of width w: MSB first, shifting left (R118, REF = 0). -/
def crcByteL (w poly s byte : Nat) : Nat := crcLeft w poly 8 (s ^^^ (byte * 2 ^ (w - 8)))

/-- One byte passes through a CRC of width w: LSB first, shifting right, polynomial reflected (R118, REF = 1). -/
def crcByteR (w poly s byte : Nat) : Nat := crcRight (revBits w poly) 8 (s ^^^ byte)

/-- FEED: a byte passes through the CRC that CFG selects. -/
def c1Feed (v : Nat) (x : BurnerX) : BurnerX :=
  let w := crcWidth x.c1cfg
  let s := x.c1s % 2 ^ w
  { x with c1s := if bitOf x.c1cfg 2 then crcByteR w (crcPoly x.c1cfg) s v else crcByteL w (crcPoly x.c1cfg) s v }

/-- CRCINIT: S takes all ones of the width. -/
def c1Init (x : BurnerX) : BurnerX := { x with c1s := 2 ^ crcWidth x.c1cfg - 1 }
/-- CRCFIN: S xor all ones of the width. -/
def c1Fin (x : BurnerX) : BurnerX :=
  let w := crcWidth x.c1cfg
  { x with c1s := (x.c1s % 2 ^ w) ^^^ (2 ^ w - 1) }
/-- BFX #p,#w. -/
def c1Bfx (opd : Nat) (x : BurnerX) : BurnerX := { x with c1res := bitsOf x.c1src (opd / 32) (opd % 32 + 1) }
/-- BFI #p,#w: bits beyond bit 31 are dropped. -/
def c1Bfi (opd : Nat) (x : BurnerX) : BurnerX :=
  { x with c1res := setBits x.c1res (opd / 32) (opd % 32 + 1) x.c1src % 2 ^ 32 }
/-- BREV. -/
def c1Brev (x : BurnerX) : BurnerX := { x with c1res := revBits 32 x.c1src }
/-- POPC. -/
def c1Popc (x : BurnerX) : BurnerX := { x with c1res := popCount 32 x.c1src }

/-- The byte of a C1 register, where it is defined. -/
def c1Read (x : BurnerX) (cr : Nat) : Option Nat :=
  if cr ≤ 3 then some (bitsOf (x.c1s % 2 ^ crcWidth x.c1cfg) (8 * cr) 8)
  else if cr = 4 then some x.c1cfg
  else if cr = 5 then some 0
  else if 0x10 ≤ cr ∧ cr ≤ 0x13 then some (bitsOf x.c1src (8 * (cr - 0x10)) 8)
  else if 0x14 ≤ cr ∧ cr ≤ 0x17 then some (bitsOf x.c1res (8 * (cr - 0x14)) 8)
  else none

/-- A write of a C1 register byte; S takes none above the selected width (R118). A bit that a narrower W hides shows again once W is wider,
unless a FEED, CRCINIT or CRCFIN came between (DESIGN CHOICE, notes/assumptions/99.md). -/
def c1Write (x : BurnerX) (cr v : Nat) : BurnerX :=
  if cr ≤ 3 then (if 8 * cr < crcWidth x.c1cfg then { x with c1s := setBits x.c1s (8 * cr) 8 v } else x)
  else if cr = 4 then { x with c1cfg := v % 8 }
  else if cr = 5 then c1Feed v x
  else if cr ≤ 0x13 then { x with c1src := setBits x.c1src (8 * (cr - 0x10)) 8 v }
  else { x with c1res := setBits x.c1res (8 * (cr - 0x14)) 8 v }

/-! ### C3 -/

/-- Operand Vi, of 256 bits. -/
def C3State.vv (c : C3State) (i : Nat) : Nat := c.v.getD i 0 % 2 ^ 256

/-- The modulus MOD selects; none where an operation started with it sets ERR (R120, R498). -/
def C3State.modulus (c : C3State) : Option Nat :=
  match c.mod % 4 with
  | 0 => some P256.p
  | 1 => some P256.n
  | 2 => if c.vv 15 % 2 = 1 ∧ 3 ≤ c.vv 15 then some (c.vv 15) else none
  | _ => none

/-- The result of an operation: the values it writes, or none for ERR (R120, R498). -/
def C3State.result (c : C3State) (o : C3Op) : Option (List (Nat × Nat)) :=
  let pt (r : Option (Nat × Nat)) := r.map fun q => [(o.d, q.1), (o.d + 1, q.2)]
  match o.fn with
  | 0 => c.modulus.map fun m => [(o.d, (c.vv o.a + c.vv o.b) % m)]
  | 1 => c.modulus.map fun m => [(o.d, P256.subMod (c.vv o.a) (c.vv o.b) m)]
  | 2 => c.modulus.map fun m => [(o.d, c.vv o.a * c.vv o.b % m)]
  | 3 => (c.modulus.bind fun m => P256.invMod (c.vv o.a) m).map fun r => [(o.d, r)]
  | 4 =>
    if P256.onCurve (c.vv o.b) (c.vv (o.b + 1)) then pt (P256.mul (c.vv o.a) (c.vv o.b, c.vv (o.b + 1))) else none
  | 5 =>
    if P256.onCurve (c.vv o.b) (c.vv (o.b + 1)) then
      pt (P256.add (P256.mul (c.vv o.a) (P256.gx, P256.gy)) (P256.mul (c.vv (o.a + 1)) (c.vv o.b, c.vv (o.b + 1))))
    else none
  | _ => c.modulus.map fun m => [(o.d, c.vv o.a % m)]

/-- The operand combinations of a C3 function that are illegal: an odd place of a point, or an operand that MINV or MRED does
not use (R97, R120). -/
def c3Illegal (fn : Nat) (f : C3F) : Bool :=
  ((fn == 3 || fn == 6) && f.b.toNat != 0) ||
  (fn == 4 && (f.d.toNat % 2 == 1 || f.b.toNat % 2 == 1)) ||
  (fn == 5 && (f.d.toNat % 2 == 1 || f.b.toNat % 2 == 1 || f.a.toNat % 2 == 1))

/-- C3 is busy: with a burner's operation, or held by the update block (R115, R454). -/
def State.c3Busy (s : State) : Bool := s.c3.busy || s.upd.lock.isSome

/-- C3 as a burner finds it. -/
def State.c3Seen (s : State) : C3State := { s.c3 with busy := s.c3Busy }

/-- A CX to C3: accepted with T := 1, or T := 0 while it is busy (R115); its acceptance clears ERR and ABORT of the one before
(DESIGN CHOICE, notes/assumptions/99.md). -/
def c3Start (b fn : Nat) (f : C3F) (s : State) : State :=
  if s.c3Busy then s.setT b false
  else
    { s with c3 := { s.c3 with busy := true, err := false, abort := false, issuer := b,
                               op := some ⟨fn, f.d.toNat, f.a.toNat, f.b.toNat⟩ } }.setT b true

/-- A C3 operation ends: results or ERR are written, BUSY clears (R120, R498). -/
def C3State.finish (c : C3State) : C3State :=
  match c.op with
  | none => c
  | some o =>
    match c.result o with
    | some ws => { c with v := ws.foldl (fun v w => setAt 0 v w.1 w.2) c.v, busy := false, err := false, op := none }
    | none => { c with busy := false, err := true, op := none }

/-- The byte of a C3 register, where it is defined; operands and MOD read 0 while BUSY = 1 (R120). -/
def c3Read (c : C3State) (cr : Nat) : Option Nat :=
  if cr ≤ 0x1FF then some (if c.busy then 0 else bitsOf (c.vv (cr / 32)) (8 * (cr % 32)) 8)
  else if cr = 0x200 then some (b2n c.busy + 2 * b2n c.err + 4 * b2n c.abort + 16 * c.issuer)
  else if cr = 0x201 then some (if c.busy then 0 else c.mod)
  else none

/-- A write of a C3 register byte: ignored while BUSY = 1 and at STAT (R120, R498). -/
def c3Write (c : C3State) (cr v : Nat) : C3State :=
  if c.busy then c
  else if cr ≤ 0x1FF then { c with v := modAt 0 c.v (cr / 32) fun x => setBits x (8 * (cr % 32)) 8 v }
  else if cr = 0x201 then { c with mod := v % 4 }
  else c

end Sys2Proof.Machine
end

