-- ==== Sys2Proof/Machine/WhiskOps.lean ====
section
/-! DEFINITION. The Whisk's register-side operations: which accessor may write which channel (R129, R130), software
firing (R126), CLRALL (R135) and the delivery of firings held during a self-test slice (R136). -/

namespace Sys2Proof.Machine

/-- An accessor is in the secure world: a burner by WORLD, the host by HP_PERM.WORLD (R431), the debug port at level 2
(R464). -/
def State.accSecure (s : State) (acc : Nat) : Bool :=
  if acc < 16 then s.brnSecure acc
  else if acc = 16 then s.on F.HP_PERM_WORLD
  else s.rd F.DBG_STAT_LEVEL == 2

/-- An accessor may write channel c: a secure one always, an open one as owner of an open channel (R129). -/
def State.mayWriteChan (s : State) (acc c : Nat) : Bool :=
  s.accSecure acc || (acc < 17 && !s.on (F.WHISK_CFG_SEC c) && s.rd (F.WHISK_CFG_OWNER c) == acc)

/-- A refused Whisk write: DENY and the accessor are recorded (R129). -/
def whiskDeny (acc : Nat) (s : State) : State := (s.set1 F.WHISK_ERR_DENY).wr F.WHISK_ERR_ACCESSOR acc

/-- A write of WHISK_FIRE: each channel whose bit is 1 fires, and a bit the accessor may not write is ignored and
recorded (R126, R129). -/
def whiskFireBits (acc set : Nat) (s : State) : State :=
  (bitsSet 64 set).foldl (fun s c => if s.mayWriteChan acc c then channelFire c s else whiskDeny acc s) s

/-- WHISK_CTL.CLRALL: every channel, task entry, flag and counter returns to its reset value; stopped groups stay stopped
(R135, R136), and WHISK_ERR.ACCESSOR returns to 0 (DESIGN CHOICE, notes/assumptions/19.md). -/
def whiskClear (s : State) : State := (s.resetRange 0x502000 0x502426).resetRange 0x502428 0x502800

/-- A write of CLRALL: by an open accessor it only sets DENY (R135). -/
def whiskClrAll (acc : Nat) (s : State) : State := if s.accSecure acc then whiskClear s else whiskDeny acc s

/-- The firings held for a group under self-test are delivered at the slice's end (R136). -/
def whiskRelease (s : State) : State :=
  s.whiskHeld.foldl (fun s f => deliver f s) { s with whiskTest := none, whiskHeld := [] }

/-- An XK32 tick passes for the groups that count as busy (R136). -/
def whiskTick (s : State) : State := { s with whiskAge := s.whiskAge.map (· - 1) }

end Sys2Proof.Machine
end

