-- ==== Sys2Proof/Machine/BurnerOps.lean ====
section
/-! DEFINITION. Burner control (spec/03_burners.md): the burner states and their transitions (R70, R71), parking (R81),
waking (R79), taking an exception and returning from one (R87 to R89), and the reset of the core's burners (R93). -/

namespace Sys2Proof.Machine

/-- The states of a burner as BRN_STAT.STATE shows them (R70). -/
def stOff : Nat := 0
/-- RUN. -/
def stRun : Nat := 1
/-- WAIT. -/
def stWait : Nat := 2
/-- SLEEP. -/
def stSleep : Nat := 3
/-- PARKED. -/
def stParked : Nat := 4
/-- FAULTED. -/
def stFaulted : Nat := 5

/-- The state of burner b. -/
def State.bstate (s : State) (b : Nat) : Nat := s.rd (F.BRN_STAT_STATE b)

/-- Burner b takes a state. -/
def State.setBstate (s : State) (b st : Nat) : State := s.wr (F.BRN_STAT_STATE b) st

/-- Burner b's PC. -/
def State.pc (s : State) (b : Nat) : Nat := s.rd (F.BRN_PC_PC b)

/-- Burner b's PC takes a value, modulo 2^16 (R96). -/
def State.setPc (s : State) (b v : Nat) : State := s.wr (F.BRN_PC_PC b) v

/-- A refused burner-control write is recorded (R82, R83, R85, R93). -/
def brnErr (acc : Nat) (s : State) : State := (s.set1 F.BRN_ERR_WERR).wr F.BRN_ERR_ACCESSOR acc

/-- Burner 0 executes the boot ROM, so that STOP and PARK of it are refused (R93). -/
def State.bootHolds (s : State) (b : Nat) : Bool := b == 0 && !s.boot.handedOver

/-- START: an OFF burner runs at BRN_PC with EXC = 0; any other burner sets WERR (R71, R82). -/
def brnStartOp (acc b : Nat) (s : State) : State :=
  if s.bstate b = stOff then (s.setBstate b stRun).clr (F.BRN_STAT_EXC b) else brnErr acc s

/-- RESUME: a PARKED or FAULTED burner runs; from FAULTED EXC clears; any other burner sets WERR (R71, R82). -/
def brnResumeOp (acc b : Nat) (s : State) : State :=
  if s.bstate b = stParked then s.setBstate b stRun
  else if s.bstate b = stFaulted then (s.setBstate b stRun).clr (F.BRN_STAT_EXC b)
  else brnErr acc s

/-- An adverb of burner b, which stays in RUN, is in flight: it waits for the end of a slice (R114). -/
def State.inAdverb (s : State) (b : Nat) : Bool := s.bstate b == stRun && s.bist.adverbs.any fun x => x.1 == b

/-- A burner leaves the word at its PC: nothing holds it there any more. -/
def brnLeave (b : Nat) (s : State) : State := s.modBx b fun x => { x with csync := none, stopping := false, await := 64 }

/-- A burner stops at a word boundary (R71, R81). -/
def brnStopNow (b : Nat) (s : State) : State := brnLeave b ((s.setBstate b stOff).clr (F.BRN_STAT_PARKREQ b))

/-- STOP: the burner is OFF at its next word boundary; a command falls at one but where an adverb of the burner is in flight, whose end
the STOP awaits (R71, R81, R114). -/
def brnStopOp (acc b : Nat) (s : State) : State :=
  if s.bootHolds b then brnErr acc s
  else if s.inAdverb b then s.modBx b fun x => { x with stopping := true }
  else brnStopNow b s

/-- PARK: a burner in RUN, WAIT or SLEEP has PARKREQ set until its next word boundary (R71, R81); in
another state nothing happens (DESIGN CHOICE, notes/assumptions/99.md). -/
def brnParkOp (acc b : Nat) (s : State) : State :=
  if s.bootHolds b then brnErr acc s
  else if s.bstate b = stRun ∨ s.bstate b = stWait ∨ s.bstate b = stSleep then s.set1 (F.BRN_STAT_PARKREQ b)
  else s

/-- BRN_GSTART: each named burner starts or resumes; one in another state sets WERR for itself (R83). -/
def brnGstartOp (acc set : Nat) (s : State) : State :=
  (bitsSet 16 set).foldl (fun s b => if s.bstate b = stOff then brnStartOp acc b s else brnResumeOp acc b s) s

/-- BRN_GPARK: parking of each named burner is requested (R83). -/
def brnGparkOp (acc set : Nat) (s : State) : State :=
  (bitsSet 16 set).foldl (fun s b => brnParkOp acc b s) s

/-- A write of BRN_CTL: only the highest of STOP, PARK, RESUME and START acts (R91). -/
def brnCtlOp (acc b v : Nat) (s : State) : State :=
  if bitOf v 3 then brnStopOp acc b s
  else if bitOf v 1 then brnParkOp acc b s
  else if bitOf v 2 then brnResumeOp acc b s
  else if bitOf v 0 then brnStartOp acc b s
  else s

/-- A burner reaches PARKED: PARKF sets and its event fires (R81). -/
def park (b : Nat) (s : State) : State :=
  fire (16 + b) (brnLeave b (((s.setBstate b stParked).clr (F.BRN_STAT_PARKREQ b)).set1 (F.BRN_STAT_PARKF b)))

/-- A word boundary: a burner with PARKREQ set parks; one in WAIT or SLEEP or held by CSYNC parks at
that word (R81, R116), one with an adverb in flight once that has ended (R114). A request
that is pending when the word double-faults stays pending in FAULTED, and the burner parks at its first boundary after a RESUME
(DESIGN CHOICE, notes/assumptions/99.md). -/
def boundary (b : Nat) (s : State) : State :=
  if s.on (F.BRN_STAT_PARKREQ b) && !s.inAdverb b &&
      (s.bstate b == stRun || s.bstate b == stWait || s.bstate b == stSleep) then park b s
  else s

/-- The wake that burner b awaits is pending (R79). -/
def State.wakeReady (s : State) (b : Nat) : Bool :=
  let a := (s.bx b).await
  if a < 64 then bitOf (s.rd (F.BRN_WPEND_PEND b)) a else s.rd (F.BRN_WPEND_PEND b) != 0

/-- A wake: a burner in WAIT or SLEEP whose awaited bit is set runs on after its WAIT or SLEEP word, and the bit clears;
the any form clears none (R79). A burner whose parking is requested parks at that word instead, and the bit stays set (R81, R91). -/
def wakeOp (b : Nat) (s : State) : State :=
  if s.on (F.BRN_STAT_PARKREQ b) && (s.bstate b == stWait || s.bstate b == stSleep) then boundary b s
  else if (s.bstate b == stWait || s.bstate b == stSleep) && s.wakeReady b then
    let a := (s.bx b).await
    let s1 := if a < 64 then s.clrBit (F.BRN_WPEND_PEND b) a else s
    ((s1.setBstate b stRun).setPc b (s.pc b + 1)).modBx b fun x => { x with await := 64 }
  else s

/-- What a word that raises an exception records: the cause, the coprocessor, the address and the word (R87). -/
structure Exc where
  cause : Nat
  cp : Nat := 0
  addr : Nat := 0
  info : Nat
  deriving DecidableEq, Repr

/-- The exception registers are written (R87, R88). -/
def excRecord (b : Nat) (e : Exc) (dbl : Bool) (s : State) : State :=
  (((((((s.wr (F.BRN_EPC_EPC b) (s.pc b)).wr (F.BRN_EFLAGS_TVCNZ b) (s.rd (F.BRN_FLAGS_TVCNZ b))).wr
    (F.BRN_ECAUSE_CAUSE b) e.cause).wr (F.BRN_ECAUSE_CP b) e.cp).wrB (F.BRN_ECAUSE_DBL b) dbl).wr
    (F.BRN_EINFO_WORD b) e.info).wr (F.BRN_EADDR_ADDR b) e.addr)

/-- A SECURITY exception counts in BRN_SECVIOL (R88). -/
def secCount (e : Exc) (s : State) : State := if e.cause = 5 then s.inc F.BRN_SECVIOL else s

/-- Taking an exception: with EXC = 0 the burner enters its handler at BRN_EVEC; with EXC = 1 it is a double fault and the
burner is FAULTED with PC at the word (R88, R89). -/
def takeExc (b : Nat) (e : Exc) (s : State) : State :=
  if s.on (F.BRN_STAT_EXC b) then
    fire (16 + b)
      ((((secCount e (excRecord b e true s)).setBstate b stFaulted).set1 (F.BRN_STAT_FAULTF b)).inc F.BRN_DBLFLT)
  else
    let s1 := secCount e (excRecord b e false s)
    (s1.set1 (F.BRN_STAT_EXC b)).setPc b (s1.rd (F.BRN_EVEC_VEC b))

/-- The exception return: PC from EPC, the flags from EFLAGS, EXC clear (R88). -/
def excReturn (b : Nat) (s : State) : State :=
  ((s.setPc b (s.rd (F.BRN_EPC_EPC b))).wr (F.BRN_FLAGS_TVCNZ b) (s.rd (F.BRN_EFLAGS_TVCNZ b))).clr
    (F.BRN_STAT_EXC b)

/-- The line buffers of all burners empty (R78). -/
def emptyLines (s : State) : State := { s with brn := s.brn.map fun x => { x with line := none } }

/-- A burner that CSYNC holds for coprocessor cp runs on, T telling how its latest operation on it ended; one whose parking is requested
parks at the CSYNC word instead (R81, R116). -/
def csyncRelease (cp b : Nat) (bad : Bool) (s : State) : State :=
  if (s.bx b).csync = some cp then
    if s.on (F.BRN_STAT_PARKREQ b) && s.bstate b == stRun then park b s
    else ((s.setT b (!bad)).setPc b (s.pc b + 1)).modBx b fun x => { x with csync := none }
  else s

/-- C3_DONE: the operation in progress ends, its issuer's outcome is recorded, a held CSYNC of the issuer ends and source
175 fires (R116, R120). -/
def c3DoneOp (s : State) : State :=
  if s.c3.busy then
    let c := s.c3.finish
    let s1 := { s with c3 := c }.modBx c.issuer fun x => { x with c3bad := c.err }
    fire 175 (csyncRelease 3 c.issuer c.err s1)
  else s

/-- How the operation of a word ends: PC goes on, PC is set already, or an exception. -/
inductive WRes where
  | next (s : State)
  | here (s : State)
  | exc (e : Exc) (s : State)

/-- A word ends: PC advances unless the operation set it, the next boundary is reached (R81, R96); nothing follows a reset that
the word itself caused. -/
def wordEnd (b : Nat) (r : WRes) : State :=
  match r with
  | .next s => if s.boot.held then s else boundary b (s.setPc b (s.pc b + 1))
  | .here s => boundary b s
  | .exc e s => boundary b (takeExc b e s)

/-- A reset of the core domain sets all burner control fields, the coprocessors and the round-robin pointers to their reset
values, the round-robin pointers included, and no adverb is in flight; BRN_WPEND, which Rest keeps, is one of them (R92, R93, R121). -/
def burnerReset (s : State) : State :=
  { s.resetPage 0x503 with
    brn := List.replicate 16 {}, c3 := {}, rr := List.replicate 4 0, bist := { s.bist with adverbs := [] } }

end Sys2Proof.Machine
end

