-- ==== Sys2Proof/Machine/Chirp.lean ====
section
/-! DEFINITION. The chirp modem's air format (spec/06_chirp_modem.md): symbols, header and payload coding, whitening,
interleaving, Gray mapping (R140 to R150) and airtime (R151). -/

namespace Sys2Proof.Machine

/-- Bandwidth in hertz from its code (R140). -/
def bwHz (bw : Nat) : Nat := 62500 * 2 ^ (bw % 4)

/-- gray(m) = m xor (m >> 1) (R150). -/
def gray (m : Nat) : Nat := m ^^^ (m / 2)

/-- The shift m with gray(m) = w, for a word of n bits (R150). -/
def grayInv (n w : Nat) : Nat := (List.range n).foldl (fun a i => a ^^^ (w / 2 ^ i)) 0

/-- The bits of H[hi:lo], most significant first. -/
def msbBits (n v : Nat) : List Bool := (List.range n).map (fun i => bitOf v (n - 1 - i))

/-- The bits of a byte list, least significant bit of each byte first (R146). -/
def lsbBits (l : List Byte) : List Bool := l.flatMap fun b => (List.range 8).map fun i => bitOf b.toNat i

/-- The header fields H[23:8] from LEN, RATE and CHK, VER and the reserved bits 0 (R144). -/
def headerHi (len rate chk : Nat) : Nat := len * 2 ^ 8 + rate % 4 * 2 ^ 6 + chk % 4 * 2 ^ 4

/-- HCRC: CRC-8 of H[23:8], MSB first, initial FFh, no final inversion (R145). -/
def hcrc (hi : Nat) : Nat := crcByteL 8 0x2F (crcByteL 8 0x2F 0xFF (hi / 256 % 256)) (hi % 256)

/-- The whole header (R144). -/
def header (len rate chk : Nat) : Nat := headerHi len rate chk * 256 + hcrc (headerHi len rate chk)

/-- The output of one generator on the 7-bit encoder register (R148). -/
def parity7 (g reg : Nat) : Bool := popCount 7 (g &&& reg) % 2 == 1

/-- The encoder register takes an input bit in bit 6 (R148). -/
def encShift (reg : Nat) (b : Bool) : Nat := (reg % 128) / 2 + (if b then 64 else 0)

/-- The convolutional encoder from a register value: input bit k gives the outputs of the generators that are kept for it (R145,
R148). -/
def convEnc (keep : Nat → List Nat) : Nat → Nat → List Bool → List Bool
  | _, _, [] => []
  | k, reg, b :: t =>
    let r := encShift reg b
    (keep k).map (fun g => parity7 g r) ++ convEnc keep (k + 1) r t

/-- The n input bits whose coded bits these are, where there are such: every generator weighs the current bit, so the outputs kept for
it tell it. -/
def convDec (keep : Nat → List Nat) : Nat → Nat → Nat → List Bool → Option (List Bool)
  | 0, _, _, _ => some []
  | n + 1, k, reg, y =>
    let out := y.take (keep k).length
    let rest := fun b => (convDec keep n (k + 1) (encShift reg b) (y.drop (keep k).length)).map (b :: ·)
    if out = (keep k).map (fun g => parity7 g (encShift reg false)) then rest false
    else if out = (keep k).map (fun g => parity7 g (encShift reg true)) then rest true
    else none

/-- Generators 133, 171 and 165 octal. -/
def g133 : Nat := 0o133
/-- 171 octal. -/
def g171 : Nat := 0o171
/-- 165 octal. -/
def g165 : Nat := 0o165

/-- The header encoder keeps the outputs of all three generators (R145). -/
def headerKeep (_ : Nat) : List Nat := [g133, g171, g165]

/-- The outputs of the payload encoder kept for input bit k, in the order c0 then c1 (R148). -/
def payloadKeep (rate k : Nat) : List Nat :=
  match rate with
  | 0 => [g133, g171]
  | 1 => if k % 2 = 0 then [g133, g171] else [g133]
  | _ => if k % 3 = 0 then [g133, g171] else if k % 3 = 1 then [g133] else [g171]

/-- Six zero tail bits. -/
def tail6 : List Bool := List.replicate 6 false

/-- Bit i of a bit list, 0 beyond its end. -/
def bitAt (l : List Bool) (i : Nat) : Bool := l.getD i false

/-- The diagonal interleaver of `rows` rows and `cols` columns: symbol s takes bit b from row (s + b) mod rows (R145, R149). -/
def interleave (rows cols : Nat) (x : List Bool) (s : Nat) : Nat :=
  (List.range cols).foldl (fun w b => w + b2n (bitAt x ((s + b) % rows * cols + b)) * 2 ^ b) 0

/-- The n coded bits that the words of a block of `rows` symbols of `cols` bits carry. -/
def deinterleave (rows cols : Nat) (ws : List Nat) (n : Nat) : List Bool :=
  (List.range n).map fun i => bitOf (ws.getD ((i / cols + rows - i % cols) % rows) 0) (i % cols)

/-- The shifts of the 18 header symbols at order K (R145). -/
def headerSyms (k h : Nat) : List Nat :=
  let y := convEnc headerKeep 0 0 (msbBits 24 h ++ tail6)
  (List.range 18).map fun s => grayInv 5 (interleave 18 5 y s) * 2 ^ (k - 5)

/-- The shifts of the two network-mark symbols (R143). -/
def markSyms (k nid : Nat) : List Nat := [nid / 32 % 32 * 2 ^ (k - 5), nid % 32 * 2 ^ (k - 5)]

/-- The five bits a received network-mark or header shift stands for: the nearest multiple of 2^(K−5) (R143). -/
def markBits (k m : Nat) : Nat := roundDiv m (2 ^ (k - 5)) % 32

/-- A list of bits as a number, the first bit the most significant. -/
def msbNat (l : List Bool) : Nat := l.foldl (fun a b => 2 * a + b2n b) 0

/-- The header that 18 received shifts spell (R143, R145, R150); none where no header is sent so. -/
def headerOf (k : Nat) (shifts : List Nat) : Option Nat :=
  match convDec headerKeep 30 0 0 (deinterleave 18 5 (shifts.map fun m => gray (markBits k m)) 90) with
  | some bits => if bits.drop 24 = tail6 then some (msbNat (bits.take 24)) else none
  | none => none

/-- Whitening of payload bits from a register value (R147). -/
def whitenBits : Nat → List Bool → List Bool
  | _, [] => []
  | s, b :: t =>
    let out := bitOf s 0
    let fb := out != bitOf s 5
    (b != out) :: whitenBits (s / 2 + b2n fb * 256) t

/-- The shifts of the payload symbols (R146 to R150). -/
def payloadSyms (k rate : Nat) (payload : List Byte) : List Nat :=
  let x := convEnc (payloadKeep rate) 0 0 (whitenBits 0x1FF (lsbBits payload) ++ tail6)
  let blocks := ceilDiv x.length (16 * k)
  (List.range blocks).flatMap fun j =>
    let blk := (x.drop (16 * k * j)).take (16 * k)
    (List.range 16).map fun s => grayInv k (interleave 16 k blk s)

/-- The CRC-32 of a byte list: polynomial 04C11DB7h reflected, initial FFFF_FFFFh, final inversion (R146). -/
def crc32 (l : List Byte) : Nat :=
  (l.foldl (fun s b => crcByteR 32 0x04C11DB7 s b.toNat) 0xFFFFFFFF) ^^^ 0xFFFFFFFF

/-- A payload under CHK = 00b: its CRC-32 appended, least significant byte first (R146). -/
def withCrc (l : List Byte) : List Byte := l ++ leBytes 4 (crc32 l)

/-- The check field's length in bytes (R144). -/
def checkLen (chk : Nat) : Nat := match chk % 4 with | 0 => 4 | 1 => 4 | 2 => 8 | _ => 16

/-- N_cod of R151. -/
def codedBits (rate len : Nat) : Nat :=
  let n := 8 * len + 6
  match rate with
  | 0 => 2 * n
  | 1 => n + ceilDiv n 2
  | _ => n + ceilDiv n 3

/-- N_pl of R151. -/
def payloadCount (k rate len : Nat) : Nat := 16 * ceilDiv (codedBits rate len) (16 * k)

/-- N_sym of R151. -/
def airSymbols (k rate npre len : Nat) : Nat := npre + 22 + payloadCount k rate len

/-- The bytes whose bits these are, the least significant bit of each byte first (R146). -/
def lsbBytes : Nat → List Bool → List Byte
  | 0, _ => []
  | n + 1, l => BitVec.ofNat 8 (msbNat (l.take 8).reverse) :: lsbBytes n (l.drop 8)

/-- The len payload bytes that the received shifts spell (R147 to R150); none where no payload is sent so. -/
def payloadOf (k rate len : Nat) (shifts : List Nat) : Option (List Byte) :=
  let n := codedBits rate len
  let ws := shifts.map gray
  let y := ((List.range (payloadCount k rate len / 16)).flatMap fun j => deinterleave 16 k ((ws.drop (16 * j)).take 16) (16 * k)).take n
  match convDec (payloadKeep rate) (8 * len + 6) 0 0 y with
  | some bits => if bits.drop (8 * len) = tail6 then some (lsbBytes len (whitenBits 0x1FF (bits.take (8 * len)))) else none
  | none => none

/-- The symbols of a frame, in their order on the air: preamble, frame mark, network mark, header and payload (R142). -/
def frameSyms (k rate npre nid hdr : Nat) (payload : List Byte) : List Chirp :=
  List.replicate npre (.up 0) ++ [.down, .down] ++ (markSyms k nid ++ headerSyms k hdr ++ payloadSyms k rate payload).map .up

/-- T_air in µs rounded up (R151): N_sym × 2^K / BW. -/
def airUs (k bw rate npre len : Nat) : Nat := ceilDiv (airSymbols k rate npre len * 2 ^ k * 1000000) (bwHz bw)

/-- One symbol's time in µs, rounded up (R140). -/
def symUs (k bw : Nat) : Nat := ceilDiv (2 ^ k * 1000000) (bwHz bw)

/-- A header is invalid: RATE = 11b, VER not 0, H[9:8] not 0, or LEN below the check length plus 1 (R158). -/
def headerInvalid (h : Nat) : Bool :=
  bitsOf h 14 2 == 3 || bitsOf h 10 2 != 0 || bitsOf h 8 2 != 0 ||
    decide (bitsOf h 16 8 < checkLen (bitsOf h 12 2) + 1)

end Sys2Proof.Machine
end

