-- ==== Sys2Proof/Machine/LineCode.lean ====
section
/-! DEFINITION. What a column port puts on its line (spec/08_column_link.md): blocks (R204), the scrambler (R205), the PAM levels
(R206), the block types (R207), the blocks of a frame (R209), the Reed-Solomon code with its decoder (R211) and the INFO block
(R213). -/

namespace Sys2Proof.Machine

/-! ### Blocks and the scrambler (R204, R205) -/

/-- A block before its scrambler: its two header bits, the first sent the higher, and its 64 payload bits. -/
structure Block where
  hdr : Nat
  word : Nat
  deriving DecidableEq, Repr

/-- One bit passes the scrambler: the register holds the last 23 bits sent, the most recent in bit 0. -/
def scrambleBit (r b : Nat) : Nat × Nat :=
  let o := (b + r / 2 ^ 17 + r / 2 ^ 22) % 2
  (o, (2 * r + o) % 2 ^ 23)

/-- One bit passes the descrambler: the register holds the last 23 bits received. -/
def descrambleBit (r o : Nat) : Nat × Nat := ((o + r / 2 ^ 17 + r / 2 ^ 22) % 2, (2 * r + o) % 2 ^ 23)

/-- The low n bits of a word pass a bit-serial coder, bit 0 first: the word that comes out, and the register after it. -/
def serial (f : Nat → Nat → Nat × Nat) : Nat → Nat → Nat → Nat × Nat
  | 0, r, _ => (0, r)
  | n + 1, r, w =>
    let x := f r (w % 2)
    let y := serial f n x.2 (w / 2)
    (x.1 + 2 * y.1, y.2)

/-- A block as the line carries it, and the transmit register after it. -/
def Block.toLine (b : Block) (r : Nat) : LineBlock × Nat :=
  let x := serial scrambleBit 64 r b.word
  (⟨BitVec.ofNat 2 b.hdr, BitVec.ofNat 64 x.1⟩, x.2)

/-- A block from the line, and the receive register after it. -/
def fromLine (l : LineBlock) (r : Nat) : Block × Nat :=
  let x := serial descrambleBit 64 r l.bits.toNat
  (⟨l.hdr.toNat, x.1⟩, x.2)

/-! ### Levels (R206) -/

/-- The level of a PAM word of 1, 2 or 3 bits: the words lie in Gray order from the lowest level to the highest. -/
def pamLevel (bits w : Nat) : Int := 2 * (grayInv bits w : Int) - (2 ^ bits - 1)

/-- Bit i of the 66 bits of a block, header first. -/
def lineBit (l : LineBlock) (i : Nat) : Nat :=
  if i = 0 then l.hdr.toNat / 2 else if i = 1 then l.hdr.toNat % 2 else l.bits.toNat / 2 ^ (i - 2) % 2

/-- The symbols of a block at a PAM order: groups of 1, 2 or 3 bits, the first bit of a group the most significant. -/
def blockLevels (pam : Nat) (l : LineBlock) : List Int :=
  (List.range (66 / pam)).map fun k => pamLevel pam ((List.range pam).foldl (fun w j => 2 * w + lineBit l (pam * k + j)) 0)

/-! ### Block types (R207) -/

/-- What a received block is. -/
inductive BlockKind where
  | data (bytes : List Byte)
  | idle
  | info (word : Nat)
  | start (bytes : List Byte)
  | term (bytes : List Byte)
  | abort
  | invalid
  deriving DecidableEq, Repr

/-- n payload bytes of a block from byte i on. -/
def Block.bytes (b : Block) (i n : Nat) : List Byte := (leBytes 8 b.word).drop i |>.take n

/-- The kind of a control block, by its byte P0. -/
def Block.control (b : Block) : BlockKind :=
  let p0 := b.word % 256
  if p0 = 0x1E then .idle
  else if p0 = 0x4B then .info b.word
  else if p0 = 0x78 then .start (b.bytes 1 7)
  else if p0 = 0xE1 then .abort
  else if 0x80 ≤ p0 ∧ p0 ≤ 0x87 then .term (b.bytes 1 (p0 - 0x80))
  else .invalid

/-- The kind of a block that stands in no parity place: there a header of 0 0 or 1 1 is invalid. -/
def Block.kind (b : Block) : BlockKind :=
  if b.hdr = 1 then .data (b.bytes 0 8) else if b.hdr = 2 then b.control else .invalid

/-- A control block of a type with its bytes P1 on. -/
def ctrlBlock (typ : Nat) (l : List Byte) : Block := ⟨2, typ + 256 * leNat l⟩

/-- The IDLE block. -/
def idleBlock : Block := ctrlBlock 0x1E []

/-- The ABORT block. -/
def abortBlock : Block := ctrlBlock 0xE1 []

/-- The data blocks of a frame after its START block, and its TERMn block. -/
def tailBlocks : Nat → List Byte → List Block
  | 0, _ => []
  | k + 1, l => if l.length < 8 then [ctrlBlock (0x80 + l.length) l] else ⟨1, leNat (l.take 8)⟩ :: tailBlocks k (l.drop 8)

/-- The blocks of a frame: START, data, TERMn (R209). -/
def frameBlocks (f : List Byte) : List Block := ctrlBlock 0x78 (f.take 7) :: tailBlocks (f.length / 8 + 1) (f.drop 7)

/-- A frame as it is sent: the MAC frame and its CRC-32, least significant byte first (R209). -/
def withFcs (m : List Byte) : List Byte := m ++ leBytes 4 (crc32 m)

/-- A received frame is good: 10 to 1,536 bytes with a correct CRC-32 (R209, R210). -/
def frameGood (f : List Byte) : Bool :=
  10 ≤ f.length && f.length ≤ 1536 && crc32 (f.take (f.length - 4)) == leNat (f.drop (f.length - 4))

/-! ### The Reed-Solomon code (R211) -/

/-- Multiplication in GF(2^8) with x^8 + x^4 + x^3 + x^2 + 1. -/
def gfMul (a b : Nat) : Nat :=
  (List.range 8).foldl (fun acc i =>
    let acc := if bitOf acc 7 then (2 * acc % 256) ^^^ 0x1D else 2 * acc
    if bitOf b (7 - i) then acc ^^^ a else acc) 0

/-- α^i, α = 02h. -/
def gfPow (i : Nat) : Nat := (List.range (i % 255)).foldl (fun a _ => gfMul a 2) 1

/-- The inverse of an element that is not 0. -/
def gfInv (a : Nat) : Nat := (List.range 253).foldl (fun x _ => gfMul x a) a

/-- A polynomial, highest coefficient first, times (x + r). -/
def polyMulRoot (l : List Nat) (r : Nat) : List Nat :=
  (l ++ [0]).zipWith (fun a b => a ^^^ b) (0 :: l.map (gfMul r))

/-- The generator polynomial, with roots α^0 to α^7. -/
def rsGen : List Nat := (List.range 8).foldl (fun l i => polyMulRoot l (gfPow i)) [1]

/-- The 8 parity bytes over 120 bytes, the first sent being the highest coefficient. -/
def rsParity (data : List Nat) : List Nat :=
  data.foldl (fun (rem : List Nat) d =>
    let fb := d ^^^ rem.headD 0
    ((rem.drop 1) ++ [0]).zipWith (fun a g => a ^^^ gfMul fb g) (rsGen.drop 1)) (List.replicate 8 0)

/-- A polynomial, lowest coefficient first, at a point. -/
def gfEval (l : List Nat) (x : Nat) : Nat := l.foldr (fun c a => gfMul a x ^^^ c) 0

/-- The eight syndromes of a received word, the first byte the coefficient of the highest power. -/
def syndromes (w : List Nat) : List Nat := (List.range 8).map fun i => w.foldl (fun a c => gfMul a (gfPow i) ^^^ c) 0

/-- Two polynomials, lowest coefficient first, added. -/
def gfAdd (a b : List Nat) : List Nat :=
  (List.range (max a.length b.length)).map fun i => a.getD i 0 ^^^ b.getD i 0

/-- The search for the shortest error locator: the locator, its last change, the errors assumed, the steps since that change and its
discrepancy. -/
structure Locator where
  c : List Nat := [1]
  b : List Nat := [1]
  len : Nat := 0
  gap : Nat := 1
  disc : Nat := 1
  deriving DecidableEq, Repr

/-- One step of the search, over syndrome n. -/
def locatorStep (syn : List Nat) (x : Locator) (n : Nat) : Locator :=
  let d := (List.range (x.len + 1)).foldl (fun a i => a ^^^ gfMul (x.c.getD i 0) (syn.getD (n - i) 0)) 0
  let k := gfMul d (gfInv x.disc)
  let c' := gfAdd x.c (List.replicate x.gap 0 ++ x.b.map (gfMul k))
  if d = 0 then { x with gap := x.gap + 1 }
  else if 2 * x.len ≤ n then { c := c', b := x.c, len := n + 1 - x.len, gap := 1, disc := d }
  else { x with c := c', gap := x.gap + 1 }

/-- The value of the error at a power of x, from the locator and the syndromes. -/
def errorValue (syn c : List Nat) (pow : Nat) : Nat :=
  let inv := gfPow (255 - pow % 255)
  let omega := (List.range 8).map fun n => (List.range (n + 1)).foldl (fun a i => a ^^^ gfMul (c.getD i 0) (syn.getD (n - i) 0)) 0
  let slope := (List.range c.length).map fun i => if i % 2 = 0 then c.getD (i + 1) 0 else 0
  gfMul (gfPow pow) (gfMul (gfEval omega inv) (gfInv (gfEval slope inv)))

/-- The decoder over a word of 128 bytes: the word with up to 4 errors corrected and how many there were; none for one it cannot
correct. -/
def rsDecode (w : List Nat) : Option (List Nat × Nat) :=
  let syn := syndromes w
  if syn.all (· == 0) then some (w, 0)
  else
    let x := (List.range 8).foldl (locatorStep syn) {}
    let bad := (List.range 128).filter fun k => gfEval x.c (gfPow (255 - (127 - k))) == 0
    let fixed := bad.foldl (fun l k => setAt 0 l k (l.getD k 0 ^^^ errorValue syn x.c (127 - k))) w
    if x.len ≤ 4 && bad.length == x.len && (syndromes fixed).all (· == 0) then some (fixed, bad.length) else none

/-! ### INFO blocks (R213) -/

/-- Byte i of an INFO block. -/
def infoByte (blk i : Nat) : Nat := bitsOf blk (8 * i) 8

/-- The CRC-16 over P0 to P5. -/
def infoCrc (blk : Nat) : Nat := (List.range 6).foldl (fun c i => crcByteL 16 0x1021 c (infoByte blk i)) 0xFFFF

/-- An INFO block is good: type 4Bh, its CRC-16 and its fixed bits. -/
def infoOk (blk : Nat) : Bool :=
  infoByte blk 0 == 0x4B && infoByte blk 6 == infoCrc blk % 256 && infoByte blk 7 == infoCrc blk / 256 &&
    bitsOf (infoByte blk 1) 6 2 == 0 && bitsOf (infoByte blk 5) 6 2 == 0

/-- An INFO block's field STAGE. -/
def infoStage (b : Nat) : Nat := bitsOf (infoByte b 1) 0 3
/-- ROLE: true for a leader. -/
def infoRole (b : Nat) : Bool := bitOf (infoByte b 1) 3
/-- WARM. -/
def infoWarm (b : Nat) : Bool := bitOf (infoByte b 1) 4
/-- BAUD. -/
def infoBaud (b : Nat) : Nat := bitsOf (infoByte b 1) 5 1
/-- COUNT. -/
def infoCount (b : Nat) : Nat := infoByte b 2 + 256 * infoByte b 3
/-- SNR. -/
def infoSnr (b : Nat) : Nat := infoByte b 4
/-- MAXPAM. -/
def infoMaxPam (b : Nat) : Nat := bitsOf (infoByte b 5) 0 2
/-- CHOSEN. -/
def infoChosen (b : Nat) : Nat := bitsOf (infoByte b 5) 2 2
/-- RSCAP. -/
def infoRsCap (b : Nat) : Bool := bitOf (infoByte b 5) 4
/-- RSON. -/
def infoRsOn (b : Nat) : Bool := bitOf (infoByte b 5) 5

/-- The fields of an INFO block. -/
structure Info where
  stage : Nat
  role : Bool
  warm : Bool
  baud : Nat
  count : Nat
  snr : Nat
  maxPam : Nat
  chosen : Nat
  rsCap : Bool
  rsOn : Bool
  deriving DecidableEq, Repr

/-- The payload of an INFO block with given fields: P0 to P5, then their CRC. -/
def Info.word (x : Info) : Nat :=
  let w := 0x4B + 2 ^ 8 * (x.stage % 8 + 8 * b2n x.role + 16 * b2n x.warm + 32 * (x.baud % 2)) + 2 ^ 16 * (x.count % 2 ^ 16) +
    2 ^ 32 * (x.snr % 256) + 2 ^ 40 * (x.maxPam % 4 + 4 * (x.chosen % 4) + 16 * b2n x.rsCap + 32 * b2n x.rsOn)
  w + 2 ^ 48 * (infoCrc w % 2 ^ 16)

/-- The INFO block with given fields. -/
def Info.block (x : Info) : Block := ⟨2, x.word⟩

end Sys2Proof.Machine
end

