-- ==== Sys2Proof/Machine/TimebaseOps.lean ====
section
/-! DEFINITION. The mains-phase timebase (spec/02_phase_timebase.md): counting, steps, the cycle strobe and its order
(R53), zero crossings and the lock loop (R49 to R62), offset learning (R63), comparators (R65), announcements (R57,
R58), and the system-control commit that the strobe also bounds (R48). -/

namespace Sys2Proof.Machine

/-- TB_STAT.STATE codes. -/
def tbVirtual : Nat := 0
/-- SEEK. -/
def tbSeek : Nat := 1
/-- GRID. -/
def tbGrid : Nat := 2

/-- Network time as a 48-bit number (R10). -/
def State.now (s : State) : Nat := s.rd F.TB_NOW_MCN * 2 ^ 16 + s.rd F.TB_NOW_FRAC

/-- Network time takes a value. -/
def State.setNow (s : State) (t : Nat) : State := (s.wr F.TB_NOW_MCN (t / 2 ^ 16)).wr F.TB_NOW_FRAC t

/-- A difference of fractions wrapped into −8000h to +7FFFh (R59, R61). -/
def wrapFrac (d : Int) : Int := (d + 0x8000) % 0x10000 - 0x8000

/-- The role is CONCENTRATOR (R23). -/
def State.isConcentrator (s : State) : Bool := s.rd F.SYS_ROLE_ROLE == 2

/-- The nominal frequency in Hz. -/
def State.hz (s : State) : Nat := if s.on F.TB_CFG_HZ then 60 else 50

/-- The compensated nominal increment: the nominal one scaled by C cycles in the 2^20 cycles of a compensation window
(R46, R380). -/
def State.tbNominal (s : State) : Nat :=
  let nom : Int := if s.on F.TB_CFG_HZ then 0x78000000 else 0x64000000
  ofInt (nom + nom / 2 ^ 20 * signed (s.rd F.RTC_COMPNOW_C) 11) 32

/-- Partition 14, the timebase loop, is retired (R460). -/
def State.tbRetired (s : State) : Bool := bitOf (s.rd F.BIST_RET_PART) 14

/-- ZC_IN is sampled (R49, R62, R460). -/
def State.zcSampled (s : State) : Bool :=
  s.on F.TB_CFG_ZCEN && s.on F.SYS_CLK_XORDY && !s.inRest && !s.tbRetired

/-- TB_UNC: PPM × SYNCAGE / 16, saturating at FFFFh (R60). -/
def State.tbUnc (s : State) : Nat := min 0xFFFF (s.rd F.TB_DRIFT_PPM * s.rd F.TB_SYNCAGE_AGE / 16)

/-- The offset counts as valid (R63). -/
def State.tbOfsOk (s : State) : Bool := s.on F.TB_OFS_VAL || s.isConcentrator

/-- STATE, HOLD and AMBIG take values; event 34 fires when one of them changes. -/
def tbSet (st : Nat) (hold ambig : Bool) (s : State) : State :=
  let same := s.rd F.TB_STAT_STATE == st && s.on F.TB_STAT_HOLD == hold && s.on F.TB_STAT_AMBIG == ambig
  let s1 := ((s.wr F.TB_STAT_STATE st).wrB F.TB_STAT_HOLD hold).wrB F.TB_STAT_AMBIG ambig
  if same then s1 else fire 34 s1

/-- HOLD entry: event 36 fires and TB_INC keeps its value (R62). The eight candidates out of the window that end HOLD (R52) are counted
from here on (DESIGN CHOICE, notes/assumptions/82.md). -/
def tbEnterHold (s : State) : State :=
  fire 36 (tbSet (s.rd F.TB_STAT_STATE) true (s.on F.TB_STAT_AMBIG) { s with tb := { s.tb with outWin := 0 } })

/-- ZC_IN stops being sampled: ZCOK clears, and GRID enters HOLD at once (R51, R52). -/
def zcStop (s : State) : State :=
  let s1 := { s with tb := { s.tb with run := 0, fresh := true } }.clr F.TB_STAT_ZCOK
  if s1.rd F.TB_STAT_STATE = tbGrid ∧ !s1.on F.TB_STAT_HOLD then tbEnterHold s1 else s1

/-- The state becomes VIRTUAL or SEEK: TB_INC returns to the compensated nominal value without a step (R46, R52). A slew in progress ends
with it, and leaving SEEK for VIRTUAL ends the wait of an unresolved cycle with AMBIG (DESIGN CHOICE, notes/assumptions/82.md). -/
def tbGo (st : Nat) (s : State) : State :=
  let s1 := { s with tb := { s.tb with slew := 0, slewTicks := 0, misses := 0, ambigWait := st == tbSeek && s.tb.ambigWait } }.wr
    F.TB_INC_INC s.tbNominal
  tbSet st false (st == tbSeek && s.on F.TB_STAT_AMBIG) s1

/-- A switch or a TB_CMD request: 1 re-anchors to SEEK, 2 goes VIRTUAL (R52). A retired timebase loop leaves VIRTUAL no more (R460). -/
def tbSwitch (mode : Nat) (s : State) : State :=
  let st := s.rd F.TB_STAT_STATE
  if mode = 1 ∧ st ≠ tbSeek ∧ !s.tbRetired then tbGo tbSeek s
  else if mode = 2 ∧ st ≠ tbVirtual then tbGo tbVirtual s
  else s

/-- The consistency rules of a timebase commit, lowest failing code first (TB_ZCFG, TB_LOOP, TB_CFG). -/
def tbCheck (s : State) : Nat :=
  if s.rd F.TB_ZCFG_MISS.stg = 0 ∨ (s.rd F.TB_ZCFG_WIN.stg = 0 ∧ s.on F.TB_CFG_ZCEN.stg) then 1
  else if s.rd F.TB_LOOP_KI.stg < s.rd F.TB_LOOP_KP.stg then 2
  else if s.rd F.TB_CFG_HZ.stg ≠ s.rd F.TB_CFG_HZ ∧ s.rd F.TB_STAT_STATE ≠ tbVirtual then 3
  else 0

/-- The timebase's commit; a change of HZ sets the increment, and one that stops sampling acts as R52 states. -/
def tbCommit (s : State) : State :=
  let was := s.zcSampled
  let s1 := commitWith 0x504 tbCheck s
  let s2 := if s1.rd F.TB_STAT_STATE ≠ tbGrid then s1.wr F.TB_INC_INC s1.tbNominal else s1
  if was && !s2.zcSampled then zcStop s2 else s2

/-- The consistency rule of a system-control commit: ROLE = 11b is rejected with REASON 1. -/
def sysCheck (s : State) : Nat := if s.rd F.SYS_ROLE_ROLE.stg = 3 then 1 else 0

/-- System control commits at the cycle strobe. -/
def sysCommit (s : State) : State := commitWith 0x500 sysCheck s

/-- MCN value a is later than b (R11). -/
def mcnLater (a b : Nat) : Bool := later48 (a * 2 ^ 16) (b * 2 ^ 16)

/-- An armed announcement that has reached its cycle, or was armed late, is applied (R53, R58). -/
def tbAnnounced (s : State) : State :=
  let mode := s.rd F.TB_SWCTL_MODE
  if (mode = 1 ∨ mode = 2) ∧ (s.tb.annLate || !mcnLater (s.rd F.TB_SWMCN_MCN) (s.rd F.TB_NOW_MCN)) then
    let s1 := if s.tb.annLate then s.set1 F.TB_FLAGS_ANNLATE else s
    tbSwitch mode ({ s1 with tb := { s1.tb with annLate := false } }.clr F.TB_SWCTL_MODE)
  else s

/-- A TB_CMD request is applied. -/
def tbCommanded (s : State) : State :=
  tbSwitch s.tb.cmd { s with tb := { s.tb with cmd := 0 } }

/-- GRID without a valid offset goes to SEEK, and a retired timebase loop to VIRTUAL, at the boundary (R52, R460): what counts is whether
the offset is valid at the boundary (DESIGN CHOICE, notes/assumptions/82.md). -/
def tbForced (s : State) : State :=
  if s.tbRetired then tbSwitch 2 s
  else if s.rd F.TB_STAT_STATE = tbGrid ∧ !s.tbOfsOk then tbGo tbSeek s
  else s

/-- Event 32 fires when MCN is a multiple of 2^DIV. -/
def tbCycleEvent (s : State) : State :=
  if s.rd F.TB_NOW_MCN % 2 ^ s.rd F.TB_CYCDIV_DIV = 0 then fire 32 s else s

/-- The cycle-boundary strobe: switch, command, commit in that order (R48, R53); SYNCAGE counts unless the boundary was
crossed by a step (R55, R60). -/
def cycleStrobe (count : Bool) (s : State) : State :=
  let s0 := if count then s.inc F.TB_SYNCAGE_AGE else s
  tbCycleEvent (sysCommit (tbCommit (tbForced (tbCommanded (tbAnnounced s0)))))

/-- CMPCTL.EN of comparator i. -/
def cmpEn (i : Nat) : Fld := if i = 0 then F.TB_CMPCTL_EN0 else F.TB_CMPCTL_EN1
/-- CMPCTL.LATE of comparator i. -/
def cmpLate (i : Nat) : Fld := if i = 0 then F.TB_CMPCTL_LATE0 else F.TB_CMPCTL_LATE1

/-- The value of comparator i. -/
def State.cmpVal (s : State) (i : Nat) : Nat := s.rd (F.TB_CMP_MCN i) * 2 ^ 16 + s.rd (F.TB_CMP_FRAC i)

/-- The timebase's partition counts as busy for the next 50 µs, two ticks (R457; notes/assumptions/97.md). -/
def tbBusyNow (s : State) : State := { s with tb := { s.tb with busyAge := 2 } }

/-- A comparator fires: its event, LATE and TB_LATE_FIRE after a step, then its repeat or its disabling (R65). -/
def cmpFire (i : Nat) (late : Bool) (s : State) : State :=
  let s1 := if late then (s.set1 (cmpLate i)).inc F.TB_LATE_FIRE else s
  let s2 := fire (37 + i) (tbBusyNow s1)
  let per := s2.rd (F.TB_CMPPER_PER i)
  if per = 0 then s2.clr (cmpEn i)
  else
    let d := (s2.now + 2 ^ 48 - s2.cmpVal i) % 2 ^ 48
    s2.wr (F.TB_CMP_MCN i) (s2.rd (F.TB_CMP_MCN i) + (d / (per * 2 ^ 16) + 1) * per)

/-- Comparator i is enabled and its instant lies after `old` and not after network time: one enabled at or after its instant waits until
time comes to that instant again (DESIGN CHOICE, notes/assumptions/82.md). -/
def State.cmpPassed (s : State) (old i : Nat) : Bool :=
  s.on (cmpEn i) && !s.tbRetired && later48 (s.cmpVal i) old && !later48 (s.cmpVal i) s.now

/-- Comparator i fires if network time has passed it since `old`. -/
def cmpMeet (old : Nat) (late : Bool) (i : Nat) (s : State) : State := if s.cmpPassed old i then cmpFire i late s else s

/-- The comparators that network time has passed since `old` fire, the earlier instant first. -/
def cmpScan (old : Nat) (late : Bool) (s : State) : State :=
  let first := b2n (s.cmpPassed old 0 && s.cmpPassed old 1 && later48 (s.cmpVal 0) (s.cmpVal 1))
  cmpMeet old late (1 - first) (cmpMeet old late first s)

/-- A step of network time into a state of the timebase: event 35, TB_STEPS, SYNCAGE 0, AMBIG clear, the slew ended; forward, the
comparators passed over fire late and a boundary crossed fires the strobe once (R48, R55, R59, R65), in this order; the
sub-fraction below the step's 48 bits becomes 0 (DESIGN CHOICE, notes/assumptions/82.md). The other blocks meet the step when settle runs. -/
def tbStepTo (st : Nat) (hold : Bool) (t : Nat) (s : State) : State :=
  let old := s.now
  let nt := t % 2 ^ 48
  let s1 := { s with tb := { s.tb with slew := 0, slewTicks := 0, ambigWait := false, sub := 0,
                                       steps := s.tb.steps ++ [TbStep.mk old nt s.tbUnc] } }.setNow nt
  let s2 := tbSet st hold false (fire 35 ((s1.clr F.TB_SYNCAGE_AGE).inc F.TB_STEPS))
  if later48 nt old then
    let s3 := cmpScan old true s2
    if nt / 2 ^ 16 = old / 2 ^ 16 then s3 else cycleStrobe false s3
  else s2

/-- A step of network time that leaves the state as it is (R55). -/
def tbStep (t : Nat) (s : State) : State := tbStepTo (s.rd F.TB_STAT_STATE) (s.on F.TB_STAT_HOLD) t s

/-! ### Counting (R46, R47, R61) -/

/-- Time is interpolated on XO32, in steps of one fraction (R47, R66). -/
def State.tbFine (s : State) : Bool := s.on F.SYS_CLK_XORDY && !s.inRest

/-- Network time with its sub-fraction, in 2^-24 fractions. -/
def State.tbPos (s : State) : Nat := s.now * 2 ^ 24 + s.tb.sub

/-- What a slew spread evenly over n ticks has moved time by after k of them (R61). -/
def slewDone (slew : Int) (n k : Nat) : Int := if n ≤ k then slew else Int.tdiv (slew * k) n

/-- Network time k ticks after the last one, in 2^-24 fractions (R46, R61). -/
def TbLine.at (c : TbLine) (k : Nat) : Int := c.base + k * c.inc + slewDone c.slew c.slewTicks k

/-- The first tick at which network time reaches or passes a value ahead (R47). -/
def TbLine.ticksTo (c : TbLine) (p : Int) : Nat :=
  let inc := max 1 c.inc
  let n := c.slewTicks
  let k :=
    if p ≤ c.at n then ceilDiv ((p - c.base).toNat * n) (max 1 ((inc * n : Nat) + c.slew).toNat)
    else n + ceilDiv (p - c.at n).toNat inc
  if c.at k < p then k + 1 else if 1 ≤ k ∧ p ≤ c.at (k - 1) then k - 1 else k

/-- When network time, interpolated evenly between the ticks, comes to a value, in 1/65,536 of a tick after the last one (R47). -/
def TbLine.when (c : TbLine) (p : Int) : Nat :=
  match c.ticksTo p with
  | 0 => 0
  | k + 1 => k * 65536 + ((p - c.at k) * 65536 / max 1 (c.at (k + 1) - c.at k)).toNat

/-- Network time, interpolated evenly between the ticks, some 1/65,536 of a tick after the last one (R47). -/
def TbLine.pos (c : TbLine) (t : Nat) : Int :=
  let k := t / 65536
  c.at k + (c.at (k + 1) - c.at k) * (t % 65536) / 65536

/-- How network time counts now. -/
def State.tbLine (s : State) : TbLine := ⟨(s.tbPos : Int) - s.tb.ahead, s.rd F.TB_INC_INC, s.tb.slew, s.tb.slewTicks⟩

/-- Network time k ticks after the last one. -/
def State.tbAt (s : State) (k : Nat) : Int := s.tbLine.at k

/-- The first tick at which network time reaches or passes a value ahead. -/
def State.ticksTo (s : State) (p : Int) : Nat := s.tbLine.ticksTo p

/-- The time an advance of network time takes, in 1/65,536 of an XK32 tick. -/
def TbAdv.time (a : TbAdv) : Nat :=
  match a with
  | .fine c start stop => c.when stop - c.when start
  | .ticks _ _ k => k * 65536

/-- Network time some 1/65,536 of a tick after an advance began, in 2^-24 fractions: interpolated, or as the last tick left it (R47). -/
def TbAdv.pos (a : TbAdv) (t : Nat) : Int :=
  match a with
  | .fine c start _ => c.pos (c.when start + t)
  | .ticks c start _ => max start (c.at (t / 65536))

/-- A value in 2^-24 fractions as network time. -/
def phaseOf (p : Int) : Nat := (p / 2 ^ 24 % 2 ^ 48).toNat

/-- k ticks pass: the slew they have moved time by is spent, and the time since the last crossing grows (R61, R63). -/
def tbSpend (k : Nat) (s : State) : State :=
  { s with tb := { s.tb with slew := s.tb.slew - slewDone s.tb.slew s.tb.slewTicks k, slewTicks := s.tb.slewTicks - k,
                             sinceX := s.tb.sinceX + k, busyAge := s.tb.busyAge - k } }

/-- Network time takes a value in 2^-24 fractions. -/
def State.setPos (s : State) (p : Nat) : State := { s with tb := { s.tb with sub := p % 2 ^ 24 } }.setNow (p / 2 ^ 24 % 2 ^ 48)

/-- Network time counts on to a later value, not past the second boundary ahead: the comparators it passes fire, and a boundary it
crosses fires the strobe; in steps of one fraction the strobe comes before what lies past the boundary (R47, R48, R65). A coarse
advance over both fires the comparators before the strobe (DESIGN CHOICE, notes/assumptions/82.md). -/
def tbReach (fine : Bool) (p : Nat) (s : State) : State :=
  let old := s.now
  let edge := (old / 2 ^ 16 + 1) * 2 ^ 40
  if p < edge then cmpScan old false (s.setPos p)
  else if fine then
    cmpScan (edge / 2 ^ 24 % 2 ^ 48) false ((cycleStrobe true (cmpScan old false (s.setPos edge))).setPos p)
  else cycleStrobe true (cmpScan old false (s.setPos p))

/-- One XK32 tick: the counter adds TB_INC and its share of a slew; what has been interpolated since the last tick is part of it
(R46, R47, R61). -/
def tbTick (s : State) : State :=
  let p := max s.tbPos (s.tbAt 1).toNat
  let adv := if s.tbFine then TbAdv.fine s.tbLine s.tbPos p else .ticks s.tbLine s.tbPos 1
  let s1 := tbSpend 1 s
  tbReach s.tbFine p { s1 with tb := { s1.tb with ahead := 0, adv := s1.tb.adv ++ [adv] } }

/-- Network time runs on to a value ahead in its cycle or at its end: exactly to it in steps of one fraction, else to the first tick
at which time reaches or passes it (R47). -/
def tbRunTo (p : Nat) (s : State) : State :=
  let k := s.ticksTo p
  if s.tbFine then
    let w := if s.tbAt k ≤ p then k else k - 1
    let s1 := tbSpend w s
    tbReach true p { s1 with tb := { s1.tb with ahead := (p - s.tbAt w).toNat, adv := s1.tb.adv ++ [.fine s.tbLine s.tbPos p] } }
  else
    let s1 := tbSpend k s
    tbReach false (max p (s.tbAt k).toNat) { s1 with tb := { s1.tb with
      ahead := 0
      adv := s1.tb.adv ++ [.ticks s.tbLine s.tbPos k] } }

/-- Network time runs on to the next cycle boundary (R47, R48). -/
def tbBoundary (s : State) : State := tbRunTo ((s.rd F.TB_NOW_MCN + 1) * 2 ^ 40) s

/-- TB_SET: a step, and VALID sets (R56). -/
def tbSetTime (t : Nat) (s : State) : State := (tbStep t s).set1 F.TB_STAT_VALID

/-! ### Zero crossings -/

/-- A rejected candidate: TB_ZCSPUR counts and ZCOK clears (R50, R51). -/
def zcReject (s : State) : State :=
  ({ s with tb := { s.tb with run := 0 } }.clr F.TB_STAT_ZCOK).inc F.TB_ZCSPUR

/-- FREQERR, XKFAIL, OFSLOST or AMBIG sets: event 39 fires at every occurrence (R123). -/
def tbFlag39 (f : Fld) (s : State) : State := fire 39 (s.set1 f)

/-- The lock loop: e / 2^KP is slewed over the next cycle and TB_INC changes by e / 2^KI fractions per cycle (R61). Both quotients are
rounded toward zero (DESIGN CHOICE, notes/assumptions/82.md). -/
def tbLoop (e : Int) (s : State) : State :=
  let inc := s.rd F.TB_INC_INC
  let dInc := Int.tdiv (e * inc) (2 ^ (16 + s.rd F.TB_LOOP_KI))
  let slew := Int.tdiv (-e * 2 ^ 24) (2 ^ s.rd F.TB_LOOP_KP)
  { s with tb := { s.tb with slew := slew, slewTicks := ceilDiv (2 ^ 40) (max 1 inc) } }.wr F.TB_INC_INC
    (ofInt ((inc : Int) - dInc) 32)

/-- The cycle test of SEEK: with ZCOK and a valid offset, time steps by s and the state becomes GRID, or AMBIG sets and the
device waits for a step (R59). -/
def tbResolve (frac : Nat) (s : State) : State :=
  if s.tb.ambigWait || !s.on F.TB_STAT_ZCOK || !s.tbOfsOk then s
  else
    let d := wrapFrac ((s.rd F.TB_OFS_OFS : Int) - frac)
    let u : Int := s.tbUnc
    if s.isConcentrator || (u < 0x4000 && d.natAbs ≤ 0x8000 - u) then
      tbStepTo tbGrid false (ofInt ((s.now : Int) + d) 48) { s with tb := { s.tb with misses := 0 } }
    else
      fire 39 ((tbSet tbSeek false true { s with tb := { s.tb with ambigWait := true } }).inc F.TB_AMBIG)

/-- An accepted crossing: event 33; ZCOK after 8 in a row; SEEK tests the cycle; GRID ends HOLD and steers (R51, R59 to R62). The
eighth crossing, which sets ZCOK, is itself one accepted with ZCOK = 1 (DESIGN CHOICE, notes/assumptions/82.md). -/
def zcAccept (frac : Nat) (s : State) : State :=
  let run := s.tb.run + 1
  let s1 := { s with tb := { s.tb with run := run, outWin := 0, fresh := false, lastFrac := some frac, sinceX := 0 } }
  let s2 := fire 33 (if 8 ≤ run then s1.set1 F.TB_STAT_ZCOK else s1)
  if s2.rd F.TB_STAT_STATE = tbSeek then tbResolve frac s2
  else if s2.rd F.TB_STAT_STATE = tbGrid then
    let s3 := if s2.on F.TB_STAT_HOLD then tbSet tbGrid false (s2.on F.TB_STAT_AMBIG) s2 else s2
    tbLoop (wrapFrac ((frac : Int) - s3.rd F.TB_OFS_OFS))
      ({ s3 with tb := { s3.tb with misses := 0 } }.clr F.TB_SYNCAGE_AGE)
  else s2

/-- The period test: ±5 % of the nominal period, for an elapsed time in nanoseconds (R50). -/
def State.periodOk (s : State) (elapsedNs : Nat) : Bool :=
  19 * 10 ^ 9 ≤ 20 * s.hz * elapsedNs && 20 * s.hz * elapsedNs ≤ 21 * 10 ^ 9

/-- A ZC_IN edge at a network time, its level held for some µs, some ns after the previous accepted crossing (R49 to R52). -/
def zcCandidate (edge heldUs elapsedNs : Nat) (s : State) : State :=
  if !s.zcSampled || heldUs < s.rd F.TB_ZCFG_GLITCH then s
  else
    let frac := ofInt ((edge : Int) - signed (s.rd F.TB_ZCDLY_DLY) 16) 16
    if !s.tb.fresh && !s.periodOk elapsedNs then
      tbFlag39 F.TB_FLAGS_FREQERR (zcReject { s with tb := { s.tb with outWin := 0 } })
    else
      let e := wrapFrac ((frac : Int) - s.rd F.TB_OFS_OFS)
      if s.rd F.TB_STAT_STATE = tbGrid ∧ s.rd F.TB_ZCFG_WIN * 0x40 < e.natAbs then
        let s1 := zcReject { s with tb := { s.tb with outWin := s.tb.outWin + 1, fresh := false } }
        if s1.on F.TB_STAT_HOLD && 8 ≤ s1.tb.outWin then tbGo tbSeek s1 else s1
      else zcAccept frac s

/-- No crossing within 1.05 nominal periods of the last: ZCOK clears (R51). -/
def zcAbsent (s : State) : State := { s with tb := { s.tb with run := 0 } }.clr F.TB_STAT_ZCOK

/-- A predicted crossing passes its window in GRID: TB_ZCMISS counts, and MISS of them in a row enter HOLD (R52, R62). -/
def zcMiss (s : State) : State :=
  if s.zcSampled && s.rd F.TB_STAT_STATE == tbGrid then
    let m := s.tb.misses + 1
    let s1 := { s with tb := { s.tb with misses := m } }.inc F.TB_ZCMISS
    if !s1.on F.TB_STAT_HOLD && s1.rd F.TB_ZCFG_MISS ≤ m then tbEnterHold s1 else s1
  else s

/-! ### Announcements and commands -/

/-- TB_CMD: SEEK or VIRT is requested for the next boundary; both together have no effect (R53). Of two requests before one boundary the
later replaces the earlier (DESIGN CHOICE, notes/assumptions/82.md). -/
def tbCmdOp (v : Nat) (s : State) : State :=
  if v % 4 = 1 ∨ v % 4 = 2 then { s with tb := { s.tb with cmd := v % 4 } } else s

/-- An announcement is armed, replaced or cancelled; one whose cycle is not later than MCN is late (R57, R58). MODE = 11b, treated as 00b,
also reads as 00b (DESIGN CHOICE, notes/assumptions/82.md). -/
def tbArm (mode : Nat) (byMac : Bool) (s : State) : State :=
  let m := if mode % 4 = 3 then 0 else mode % 4
  let late := m != 0 && !mcnLater (s.rd F.TB_SWMCN_MCN) (s.rd F.TB_NOW_MCN)
  ({ s with tb := { s.tb with annLate := late } }.wr F.TB_SWCTL_MODE m).wrB F.TB_SWCTL_BYMAC byMac

/-- An announcement the MAC receives: armed while AUTOANN = 1, and event 143 fires (R57, R259). -/
def tbAnnounceMac (mcn mode : Nat) (s : State) : State :=
  if (mode = 1 ∨ mode = 2) ∧ s.on F.TB_CFG_AUTOANN then fire 143 (tbArm mode true (s.wr F.TB_SWMCN_MCN mcn)) else s

/-- A write of TB_OFS: the offset and its validity; an invalid one takes GRID to SEEK at the next boundary (R52, R63). The rejections in a
row start anew and the stored samples stay (DESIGN CHOICE, notes/assumptions/82.md). -/
def tbOfsOp (val : Bool) (ofs : Nat) (s : State) : State :=
  ({ s with tb := { s.tb with rej := 0 } }.wr F.TB_OFS_OFS ofs).wrB F.TB_OFS_VAL val

/-! ### Beacons and learning -/

/-- The circular mean of fractions, formed from their wrapped differences to the first one, halves rounded upward (DESIGN CHOICE,
notes/assumptions/10.md and 82.md). -/
def circMean : List Nat → Nat
  | [] => 0
  | x :: t =>
    let n : Int := t.length + 1
    let sum : Int := t.foldl (fun a (y : Nat) => a + wrapFrac ((y : Int) - x)) 0
    ofInt ((x : Int) + (2 * sum + n) / (2 * n)) 16

/-- A learning sample while the offset is invalid: with N samples within SPREAD of their mean, the offset is set (R63). -/
def learnFirst (sample : Nat) (s : State) : State :=
  let n := if s.rd F.TB_LEARN_N = 0 then 16 else s.rd F.TB_LEARN_N
  let all := (s.tb.samples ++ [sample])
  let keep := all.drop (all.length - n)
  let s1 := { s with tb := { s.tb with samples := keep } }
  let m := circMean keep
  if keep.length = n && keep.all (fun x => (wrapFrac ((x : Int) - m)).natAbs ≤ s.rd F.TB_LEARN_SPREAD * 0x10) then
    tbOfsOp true m s1
  else s1

/-- A learning sample while the offset is valid: it moves the offset by 1/16 of the difference, or is rejected, and REJMAX
rejections in a row invalidate the offset (R63). -/
def learnNext (sample : Nat) (s : State) : State :=
  let d := wrapFrac ((sample : Int) - s.rd F.TB_OFS_OFS)
  if d.natAbs ≤ s.rd F.TB_LEARN_SPREAD * 0x10 then
    tbOfsOp true (ofInt ((s.rd F.TB_OFS_OFS : Int) + Int.tdiv d 16) 16) s
  else
    let r := s.tb.rej + 1
    let s1 := { s with tb := { s.tb with rej := r } }.inc F.TB_LEARNREJ
    let rm := s.rd F.TB_LEARN_REJMAX
    if rm ≠ 0 ∧ rm ≤ r then
      tbFlag39 F.TB_FLAGS_OFSLOST ({ s1 with tb := { s1.tb with rej := 0, samples := [] } }.clr F.TB_OFS_VAL)
    else s1

/-- A beacon's learning sample, formed from a crossing at most 4 nominal periods old (R63). -/
def tbLearn (carried : Nat) (s : State) : State :=
  if !s.on F.TB_CFG_AUTOLEARN || s.isConcentrator || s.tbRetired then s
  else
    match s.tb.lastFrac with
    | none => s
    | some frac =>
      if 4 * 32768 < s.tb.sinceX * s.hz then s
      else
        let sample := ofInt ((frac : Int) + carried - s.now) 16
        if s.on F.TB_OFS_VAL then learnNext sample s else learnFirst sample s

/-- A delivered beacon: event 141; learning first; then, outside the CONCENTRATOR role, a step in VIRTUAL, SEEK and HOLD
(R54, R63). -/
def tbBeacon (carried : Nat) (s : State) : State :=
  let s0 := fire 141 s
  if s0.isConcentrator then s0
  else
    let s1 := tbLearn carried s0
    if s1.rd F.TB_STAT_STATE ≠ tbGrid ∨ s1.on F.TB_STAT_HOLD then tbSetTime carried s1 else s1

/-- A held beacon reaches the timebase: its carried value is brought from its time stamp to now, and its announcement is armed, in that
order: a late test sees the MCN that the beacon's own step has set (R258, R259; the order is a DESIGN CHOICE,
notes/assumptions/82.md). -/
def tbDeliver (b : HeldBeacon) (s : State) : State :=
  tbBusyNow (tbAnnounceMac b.mcn b.mode (tbBeacon ((b.nt + s.now + 2 ^ 48 - b.ts) % 2 ^ 48) s))

/-- The MAC delivers a beacon; one that comes during a slice of the timebase's partition is held to its end (R457). -/
def tbBeaconRx (b : HeldBeacon) (s : State) : State :=
  if s.bistPart = some 14 then
    let s1 := s.inc F.BIST_HOLD
    { s1 with tb := { s1.tb with beacons := s1.tb.beacons ++ [b] } }
  else tbDeliver b s

/-- The end of a slice of the timebase's partition: the beacons held are delivered (R457). -/
def tbSliceEnd (s : State) : State :=
  s.tb.beacons.foldl (fun s b => tbDeliver b s) { s with tb := { s.tb with beacons := [] } }

/-! ### Faults and reset -/

/-- XK32 gives no tick for 64 µs: XKFAIL, VALID clear, event 39. -/
def xkFail (s : State) : State := if s.inRest then s else tbFlag39 F.TB_FLAGS_XKFAIL (s.clr F.TB_STAT_VALID)

/-- TB_PHASE.CODE (R64). -/
def State.tbPhaseCode (s : State) : Nat := roundDiv (s.rd F.TB_OFS_OFS * 12) 65536 % 12

/-- TB_PHASE.RESID: the offset minus the fraction nearest CODE × 30° (R12, R64). -/
def State.tbPhaseResid (s : State) : Nat :=
  ofInt (wrapFrac ((s.rd F.TB_OFS_OFS : Int) - roundDiv (s.tbPhaseCode * 30 * 65536) 360)) 16

/-- The reset of the always-on domain resets the timebase (R67); TB_INC is compensated from the next boundary on (DESIGN CHOICE,
notes/assumptions/82.md). -/
def tbReset (s : State) : State := { s.resetPage 0x504 with tb := {} }

/-- Retirement of partition 14: ZC_IN is ignored, learning stops and the offset is invalid (R460). -/
def tbRetire (s : State) : State := zcStop (s.clr F.TB_OFS_VAL)

end Sys2Proof.Machine
end

