-- ==== Sys2Proof/Machine/ModemOps.lean ====
section
/-! DEFINITION. The chirp modem's lanes (spec/06_chirp_modem.md): detection, the slot states and their endings (R154 to
R160), the LO pull (R161 to R163), retirement (R172) and the modem's commit (R167, R168); with the channel fault
statistics of the front end that lane endings feed (R195). -/

namespace Sys2Proof.Machine

/-! ### Frequencies, scaled by 2^24 so that FE_LO is exact (R176) -/

/-- A frequency in hertz. -/
def hzScaled (hz : Int) : Int := hz * 2 ^ 24

/-- The programmed LO of active FE_LO (R176). -/
def State.loScaled (s : State) : Int := 32000000 * ((s.rd F.FE_LO_INT * 2 ^ 24 + s.rd F.FE_LO_FRAC : Nat) : Int)

/-- LO plus a signed 16-bit offset in 50 Hz units (R152, R189). -/
def State.centre (s : State) (ofs : Nat) : Int := s.loScaled + hzScaled (50 * signed ofs 16)

/-- A fault event of kind `bit` at a channel centre adds 1 to every matching channel entry (R195). -/
def chanFault (bit : Nat) (centre : Int) (s : State) : State :=
  if bitOf (s.rd F.FE_CHMASK_MASK) bit then
    (List.range 16).foldl (fun s k =>
      let d := centre - hzScaled (50 * s.rd (F.FE_CHF_FREQ k))
      if s.on (F.FE_CHF_EN k) && d.natAbs * 4 ≤ bwHz (s.rd (F.FE_CHF_BW k)) * 2 ^ 24 then s.inc (F.FE_CHST_CUR k)
      else s) s
  else s

/-! ### Lanes and slots -/

/-- A slot of a lane. -/
def State.slot (s : State) (n j : Nat) : Slot := s.mod.slots.getD (2 * n + j) {}

/-- A slot takes a value. -/
def State.setSlot (s : State) (n j : Nat) (x : Slot) : State :=
  { s with mod := { s.mod with slots := setAt {} s.mod.slots (2 * n + j) x } }

/-- The code of a slot's state in LANE_STAT. -/
def SlotSt.code : SlotSt → Nat
  | .idle => 0 | .sync => 1 | .mark => 2 | .hdr => 3 | .pay => 4 | .lost => 5

/-- A slot is out of IDLE. -/
def Slot.busy (x : Slot) : Bool := x.st != .idle

/-- A slot holds a reception: the span from DET to END (R156). -/
def Slot.receiving (x : Slot) : Bool := x.st == .hdr || x.st == .pay || x.st == .lost

/-- The slots out of IDLE on the chip. -/
def State.demCount (s : State) : Nat := (s.mod.slots.filter (·.busy)).length

/-- Lane n is retired (R172). -/
def State.laneRetired (s : State) (n : Nat) : Bool := bitOf (s.rd F.MOD_RET_RET) n

/-- The staged channel of lane n differs from its active one (R167). -/
def State.laneStaged (s : State) (n : Nat) : Bool :=
  [F.LANE_CFG_EN n, F.LANE_CFG_NIDANY n, F.LANE_CFG_BW n, F.LANE_CFG_ORD n, F.LANE_OFS_OFS n].any
    fun f => s.rd f != s.rd f.stg

/-- Lane n is held for a commit (R167). -/
def State.laneHeld (s : State) (n : Nat) : Bool := s.on F.MOD_COMMIT_PEND && s.laneStaged n

/-- Lane n would be live but for a commit hold (R154). -/
def State.laneReady (s : State) (n : Nat) : Bool :=
  s.on F.MOD_CTL_EN && s.on (F.LANE_CFG_EN n) && s.on (F.LANE_CTL_SRCH n) && !s.laneRetired n &&
    s.rd F.FE_STAT_STATE == 3 && s.bistPart != some n

/-- Lane n is live (R154). -/
def State.laneLive (s : State) (n : Nat) : Bool := s.laneReady n && !s.laneHeld n

/-- A signed OFS lies in the range an enabled lane may have (R152). -/
def ofsOk (ofs : Nat) : Bool := let a := (signed ofs 16).natAbs; 600 ≤ a && a ≤ 18000

/-- The consistency rules of a modem commit (R168). -/
def modCheck (s : State) : Nat :=
  let lanes := (List.range 8).filter fun n => s.on (F.LANE_CFG_EN n).stg
  let md := s.rd F.MOD_CFG_MAXDEM.stg
  let pm := s.rd F.MOD_CFG_PREMAX.stg
  if lanes.any fun n => !ofsOk (s.rd (F.LANE_OFS_OFS n).stg) then 1
  else if lanes.any fun n => s.rd (F.LANE_CFG_ORD n).stg == 0 then 2
  else if md = 0 ∨ 16 < md then 3
  else if pm < 8 ∨ 64 < pm then 4
  else 0

/-- The modem's commit boundary: every lane with a changed channel has both slots idle, or the modem is off (R167). -/
def State.modBoundary (s : State) : Bool :=
  !s.on F.MOD_CTL_EN ||
    (List.range 8).all fun n => !s.laneStaged n || (!(s.slot n 0).busy && !(s.slot n 1).busy)

/-- The modem commits at its boundary. -/
def modCommit (s : State) : State := if s.modBoundary then commitWith 0x509 modCheck s else s

/-- FE_LOACT takes the programmed LO plus the pull in force (R179). -/
def loAct (s : State) : State :=
  let base : Int := ((s.rd F.FE_LO_INT * 2 ^ 24 + s.rd F.FE_LO_FRAC : Nat) : Int)
  s.wr F.FE_LOACT_LO (ofInt (base + (if s.on F.MOD_PULL_ACTIVE then signed (s.rd F.MOD_PULL_STEPS) 24 else 0)) 32)

/-- The LO returns to its programmed frequency (R163). MOD_PULL.LANE keeps the lane of the last pull (DESIGN CHOICE,
notes/assumptions/100.md). -/
def pullRelease (s : State) : State :=
  loAct (({ s with mod := { s.mod with pullSlot := none } }.clr F.MOD_PULL_ACTIVE).clr F.MOD_PULL_STEPS)

/-- A slot becomes IDLE: a pull it holds is released, after a mark of another network too (DESIGN CHOICE, notes/assumptions/100.md), and
a waiting commit may find its boundary (R163, R167). -/
def slotFree (n j : Nat) (s : State) : State :=
  let s1 := s.setSlot n j {}
  modCommit (if s1.mod.pullSlot = some (2 * n + j) then pullRelease s1 else s1)

/-- The counter a reception's ending adds to (R173). -/
def endCounter (n status : Nat) : Option Fld :=
  match status with
  | 0 => some (F.LANE_GOOD n)
  | 1 => some (F.LANE_GOOD n)
  | 2 => some (F.LANE_CRCBAD n)
  | 3 => some (F.LANE_HDRBAD n)
  | 4 => some (F.LANE_HDRBAD n)
  | 5 => some (F.LANE_LOST n)
  | 6 => some (F.RX_ABORT_TX n)
  | 7 => some (F.RX_ABORT_FE n)
  | _ => none

/-- LANE_RES, LANE_META and LANE_TS take the values of the reception that ends (R159); LEN, RATE and CHK show 0 where it ends before its
header is decoded (DESIGN CHOICE, notes/assumptions/100.md). -/
def laneRecord (n j status : Nat) (x : Slot) (s : State) : State :=
  ((((((((((((s.wr (F.LANE_RES_NID n) x.nid).wr (F.LANE_RES_SLOT n) j).wr (F.LANE_RES_STATUS n) status).wr
    (F.LANE_RES_CHK n) (bitsOf x.hdr 12 2)).wr (F.LANE_RES_RATE n) (bitsOf x.hdr 14 2)).wr (F.LANE_RES_K n) x.k).wr
    (F.LANE_RES_LEN n) (bitsOf x.hdr 16 8)).wr (F.LANE_META_FOFS n) x.fofs).wr (F.LANE_META_SNR n) x.snr).wr
    (F.LANE_META_RSSI n) x.rssi).wr (F.LANE_TS_MCN n) (x.ts / 2 ^ 16)).wr (F.LANE_TS_FRAC n) x.ts)

/-- A lane ending that is a channel fault counts against matching channel entries (R195). -/
def endFault (n status : Nat) (s : State) : State :=
  let c := s.centre (s.rd (F.LANE_OFS_OFS n))
  if status = 2 ∨ status = 3 ∨ status = 4 then chanFault 1 c s
  else if status = 5 then chanFault 2 c s
  else s

/-- A reception ends with a status: its record, its counter, its END event, its slot free; a slot in SYNC or MARK is freed
silently (R156). -/
def slotEnd (n j status : Nat) (s : State) : State :=
  let x := s.slot n j
  if x.receiving then
    let s1 := laneRecord n j status x s
    let s2 := match endCounter n status with
      | some f => s1.inc f
      | none => s1
    fire (98 + 3 * n) (slotFree n j (endFault n status s2))
  else if x.busy then slotFree n j s
  else s

/-- Every slot of lane n ends with a status. -/
def laneEnd (n status : Nat) (s : State) : State := slotEnd n 1 status (slotEnd n 0 status s)

/-- Every slot on the chip ends with a status. -/
def allEnd (status : Nat) (s : State) : State := (List.range 8).foldl (fun s n => laneEnd n status s) s

/-- SRCH of lane n is written or driven; during the lane's slice the request counts (R154, R171). -/
def laneSearch (n : Nat) (on : Bool) (s : State) : State := (bistHold n s).wrB (F.LANE_CTL_SRCH n) on

/-- A preamble of order k on lane n (R155, R156, R162, R167). A held lane counts first, then one of an order already received (DESIGN
CHOICE, notes/assumptions/100.md). -/
def preambleDetect (n k snr : Nat) (s : State) : State :=
  if !s.laneReady n || k < 5 || 12 < k || !bitOf (s.rd (F.LANE_CFG_ORD n)) (k - 5) then s
  else if s.laneHeld n then s.inc F.MOD_CMTHOLD
  else
    let a := s.slot n 0
    let b := s.slot n 1
    if (a.busy && a.k == k) || (b.busy && b.k == k) then s.inc (F.LANE_SAMEORD n)
    else if (a.busy && b.busy) || s.rd F.MOD_CFG_MAXDEM ≤ s.demCount then s.inc F.DEMOD_FULL
    else
      let j := if a.busy then 1 else 0
      let s1 := s.setSlot n j { st := .sync, k := k, snr := snr }
      if s.on F.MOD_PULL_ACTIVE then s1.inc F.LO_PULL_HELD else s1

/-- A preamble found on a lane, of an order, with its signed SNR in 0.25 dB (R155). -/
structure Preamble where
  lane : Nat
  k : Nat
  snr : Int
  deriving DecidableEq, Repr

/-- The preambles whose lanes, orders and SNRs these are. -/
def preambles (lanes : List (Fin 8)) (ks : List (BitVec 4)) (snrs : List (BitVec 16)) : List Preamble :=
  (lanes.zip (ks.zip snrs)).map fun x => ⟨x.1, x.2.1.toNat, x.2.2.toInt⟩

/-- Of the preambles found in one symbol period p is served before q: by the higher SNR, then the lower lane, then the lower K (R155). -/
def preambleBefore (p q : Preamble) : Bool :=
  q.snr < p.snr || (q.snr == p.snr && (p.lane < q.lane || (p.lane == q.lane && p.k ≤ q.k)))

/-- A list of preambles in the order in which they are served takes one more. -/
def rankPreamble (p : Preamble) : List Preamble → List Preamble
  | [] => [p]
  | q :: t => if preambleBefore p q then p :: q :: t else q :: rankPreamble p t

/-- The preambles found in one symbol period compete for the free slots (R155). -/
def preamblesDetect (found : List Preamble) (s : State) : State :=
  (found.foldr rankPreamble []).foldl (fun s p => preambleDetect p.lane p.k (ofInt p.snr 16) s) s

/-- A frequency offset in hertz as whole steps of 32 MHz / 2^24, nearest (R161). -/
def pullSteps (fofs : Nat) : Int :=
  let x := signed fofs 24 * 2 ^ 24
  (2 * x + 32000000) / (2 * 32000000)

/-- The LO is pulled by the measured offset when LOPULL = 1 and every other slot is IDLE (R161). -/
def loPull (n j fofs : Nat) (s : State) : State :=
  if s.on F.MOD_CTL_LOPULL && s.demCount == 1 && !s.on F.MOD_PULL_ACTIVE then
    loAct ((({ s with mod := { s.mod with pullSlot := some (2 * n + j) } }.set1 F.MOD_PULL_ACTIVE).wr
      F.MOD_PULL_LANE n).wr F.MOD_PULL_STEPS (ofInt (pullSteps fofs) 24))
  else s

/-- Two down-chirps are found: SYNC becomes MARK and the pull is decided (R156, R161). -/
def frameMark (n j fofs : Nat) (s : State) : State :=
  let x := s.slot n j
  if x.st = .sync then loPull n j fofs (s.setSlot n j { x with st := .mark, fofs := fofs }) else s

/-- No frame mark within PREMAX symbols: the slot is freed and LANE_NOMARK counts (R156). -/
def nomarkTimeout (n j : Nat) (s : State) : State :=
  if (s.slot n j).st = .sync then slotFree n j (s.inc (F.LANE_NOMARK n)) else s

/-- The pull in force, in hertz scaled by 2^24 (R161). -/
def State.pull (s : State) : Int := if s.on F.MOD_PULL_ACTIVE then 32000000 * signed (s.rd F.MOD_PULL_STEPS) 24 else 0

/-- The frequency of lane n's NCO against the LO: its OFS, less the pull in force where another lane's reception holds it (R152, R162). -/
def State.laneNco (s : State) (n : Nat) : Int :=
  hzScaled (50 * signed (s.rd (F.LANE_OFS_OFS n)) 16) - (if s.rd F.MOD_PULL_LANE = n then 0 else s.pull)

/-- What the reception in slot j of lane n corrects digitally on top of the lane's NCO: its measured offset, less a pull that moves the
lane with it (R161, R162). -/
def State.slotCorr (s : State) (n j : Nat) : Int :=
  hzScaled (signed (s.slot n j).fofs 24) - (if s.rd F.MOD_PULL_LANE = n then s.pull else 0)

/-- The two network-mark shifts: a match enters HDR with DET, a mismatch frees the slot; the time stamp is the network time of the
mark's end, `ago` fractions back (R143, R156, R160). -/
def networkMark (n j m1 m2 rssi ago : Nat) (s : State) : State :=
  let x := s.slot n j
  if x.st = .mark then
    let nid := markBits x.k m1 * 32 + markBits x.k m2
    if s.on (F.LANE_CFG_NIDANY n) || nid == s.rd F.MOD_NID_NID then
      fire (96 + 3 * n) (s.setSlot n j { x with st := .hdr, nid := nid, rssi := rssi, ts := (s.now + 2 ^ 48 - ago) % 2 ^ 48 })
    else slotFree n j (s.inc (F.LANE_NIDMISS n))
  else s

/-- The decoded header: good and valid enters PAY, otherwise the reception ends HDRBAD or HDRINV (R145, R156, R158). -/
def headerDecode (n j h : Nat) (s : State) : State :=
  let x := s.slot n j
  if x.st = .hdr then
    let s1 := s.setSlot n j { x with hdr := h }
    if hcrc (h / 256) ≠ h % 256 then slotEnd n j 3 s1
    else if headerInvalid h then slotEnd n j 4 s1
    else fire (97 + 3 * n) (s1.setSlot n j { x with st := .pay, hdr := h })
  else s

/-- The 18 header symbols have come: shifts that no header is sent as may be decoded as any (R143, R145, notes/assumptions/87.md). -/
def headerEnd (n j : Nat) (shifts : List Nat) (s : State) : State :=
  let x := s.slot n j
  if x.st = .hdr then
    match headerOf x.k shifts with
    | some h => headerDecode n j h s
    | none => headerDecode n j (s.free.1 % 2 ^ 24) s.free.2
  else s

/-- The frame a slot delivers (R159). -/
def Slot.frame (x : Slot) (n j bw : Nat) (payload : List Byte) : RxFrame :=
  { lane := n, slot := j, k := x.k, bw := bw, rate := bitsOf x.hdr 14 2, chk := bitsOf x.hdr 12 2, nid := x.nid,
    rssi := x.rssi, snr := x.snr, fofs := x.fofs, ts := x.ts, payload := payload }

/-- The status of a decoded payload: TAGGED with a tag, GOOD or CRCBAD by its CRC-32 (R146, R159). -/
def payloadStatus (chk : Nat) (payload : List Byte) : Nat :=
  if chk ≠ 0 then 1
  else if crc32 (payload.take (payload.length - 4)) = leNat (payload.drop (payload.length - 4)) then 0
  else 2

/-- The payload is decoded: the reception ends GOOD, TAGGED or CRCBAD, and a good one is delivered to the MAC (R156, R159). -/
def payloadDecoded (n j : Nat) (payload : List Byte) (s : State) : State :=
  let x := s.slot n j
  let status := payloadStatus (bitsOf x.hdr 12 2) payload
  let s1 := slotEnd n j status s
  if status = 2 || x.gone then s1
  else { s1 with mod := { s1.mod with rxq := s1.mod.rxq ++ [x.frame n j (s.rd (F.LANE_CFG_BW n)) payload] } }

/-- The last payload symbol has come (R156): shifts that no payload is sent as may be decoded as any (R150, notes/assumptions/87.md). -/
def payloadEnd (n j : Nat) (shifts : List Nat) (s : State) : State :=
  let x := s.slot n j
  let rate := bitsOf x.hdr 14 2
  let len := bitsOf x.hdr 16 8
  if x.st = .pay ∧ shifts.length = payloadCount x.k rate len then
    match payloadOf x.k rate len shifts with
    | some l => payloadDecoded n j l s
    | none => payloadDecoded n j (s.freeBytes len).1 (s.freeBytes len).2
  else s

/-- Four weak payload symbols: PAY becomes LOST (R157). -/
def lostEntry (n j : Nat) (s : State) : State :=
  let x := s.slot n j
  if x.st = .pay then s.setSlot n j { x with st := .lost } else s

/-- Two strong symbols: LOST becomes PAY (R156). -/
def lostRecover (n j : Nat) (s : State) : State :=
  let x := s.slot n j
  if x.st = .lost then s.setSlot n j { x with st := .pay } else s

/-- The expected end plus 4 symbols: a LOST slot ends with LOST (R157). -/
def lostExpire (n j : Nat) (s : State) : State := if (s.slot n j).st = .lost then slotEnd n j 5 s else s

/-- Retires lane n: its receptions end with a status and its MOD_RET bit sets (R172; which status, DESIGN CHOICE,
notes/assumptions/100.md). -/
def retireLane (n status : Nat) (s : State) : State := laneEnd n status (s.setBit F.MOD_RET_RET n)

/-- A write of MOD_RET: each bit written 1 retires its lane (R172). -/
def laneRetireBits (set : Nat) (s : State) : State := (bitsSet 8 set).foldl (fun s n => retireLane n 8 s) s

/-- An internal parity error ends the reception it struck with INTERR and counts; in the time with EN = 1 the window notes it (R172). -/
def laneParity (n j : Nat) (s : State) : State :=
  let s1 := slotEnd n j 9 (s.inc (F.LANE_INTERR n))
  if s.on F.MOD_CTL_EN then { s1 with mod := { s1.mod with errNow := orBit s1.mod.errNow n } } else s1

/-- A 60 s window of time with EN = 1 ends: a lane with an error in each of 4 windows in a row is retired (R172). -/
def interrWindow (s : State) : State :=
  if s.on F.MOD_CTL_EN then
    let runs := (List.range 8).map fun n => if bitOf s.mod.errNow n then s.mod.errRuns.getD n 0 + 1 else 0
    let s1 := { s with mod := { s.mod with errNow := 0, errRuns := runs } }
    (List.range 8).foldl (fun s n => if 4 ≤ runs.getD n 0 then retireLane n 9 s else s) s1
  else s

/-- MOD_CTL.EN cleared ends receptions with ABORTSW (R156); a transmission goes on (R165; DESIGN CHOICE,
notes/assumptions/100.md). -/
def modDisable (s : State) : State := allEnd 8 s

/-- The modem loses everything but MOD_RET, at Rest entry and at a reset of the core domain (R169, R170). -/
def modReset (s : State) : State :=
  let ret := s.rd F.MOD_RET_RET
  { s.resetPage 0x509 with mod := {} }.wr F.MOD_RET_RET ret

/-- A reset of the always-on domain also clears MOD_RET (R170). -/
def modResetAon (s : State) : State := { s.resetPage 0x509 with mod := {} }

end Sys2Proof.Machine
end

