-- ==== Sys2Proof/Machine/RadioOps.lean ====
section
/-! DEFINITION. The radio front end (spec/07_radio_frontend.md): its states (R186), the receive gain (R180), admission of a
transmission (R182, R189, R190), airtime accounting (R191 to R194), channel retirement (R196), its commit (R197). -/

namespace Sys2Proof.Machine

/-- FE_STAT.STATE codes: OFF. -/
def feOff : Nat := 0
/-- STBY. -/
def feStby : Nat := 1
/-- SYNTH. -/
def feSynth : Nat := 2
/-- RX. -/
def feRx : Nat := 3
/-- RAMPUP. -/
def feRampup : Nat := 4
/-- TX. -/
def feTx : Nat := 5
/-- RAMPDN. -/
def feRampdn : Nat := 6
/-- CAL. -/
def feCalSt : Nat := 7

/-- The front end's state. -/
def State.fe_st (s : State) : Nat := s.rd F.FE_STAT_STATE

/-- The positions of the T/R switch at RFIO (R175). -/
inductive SwitchPos where
  | receive | transmit
  deriving DecidableEq, Repr

/-- The T/R switch: in transmit in RAMPUP, TX and RAMPDN, in receive in every other state; an unpowered radio domain is in OFF (R175). -/
def State.trSwitch (s : State) : SwitchPos :=
  if s.fe_st = feRampup ∨ s.fe_st = feTx ∨ s.fe_st = feRampdn then .transmit else .receive

/-- The band edges BAND names, in hertz (R174). -/
def bandLo (band : Nat) : Int := if band = 0 then 410000000 else 862000000
/-- The upper band edge. -/
def bandHi (band : Nat) : Int := if band = 0 then 510000000 else 928000000

/-- The consistency rules of a front-end commit (R176, R197). -/
def feCheck (s : State) : Nat :=
  let band := s.rd F.FE_CFG_BAND.stg
  let lo : Int := 32000000 * ((s.rd F.FE_LO_INT.stg * 2 ^ 24 + s.rd F.FE_LO_FRAC.stg : Nat) : Int)
  let sbs := (List.range 8).filter fun i => s.on (F.FE_SBLO_EN i).stg
  let edge (k : Nat) : Bool := bandLo band ≤ 1000 * (k : Int) && 1000 * (k : Int) ≤ bandHi band
  if band < 2 && (lo < hzScaled (bandLo band) || hzScaled (bandHi band) < lo) then 1
  else if 2 ≤ band then 2
  else if sbs.any fun i =>
      let l := s.rd (F.FE_SBLO_KHZ i).stg
      let h := s.rd (F.FE_SBHI_KHZ i).stg
      h ≤ l || !edge l || !edge h then 3
  else if sbs.any fun i =>
      let w := s.rd (F.FE_SBWIN_WIN i).stg
      let m := s.rd (F.FE_SBLIM_LIMIT i).stg
      w == 0 || m == 0 || w * 1000 < m then 4
  else 0

/-- The airtime buckets of sub-band i. -/
def State.bucketsOf (s : State) (i : Nat) : List Nat := s.fe.buckets.getD i []

/-- FE_SBUSEDi: the sum of the current bucket and the 32 before it (R192). -/
def State.sbUsed (s : State) (i : Nat) : Nat := (s.bucketsOf i).foldl (· + ·) 0

/-- Changes the buckets of sub-band i. -/
def State.modBuckets (s : State) (i : Nat) (f : List Nat → List Nat) : State :=
  { s with fe := { s.fe with buckets := modAt [] s.fe.buckets i f } }

/-- The bucket of sub-band i in which a transmission's reservation lies is the one f says, of the buckets before the current one. -/
def State.moveReserved (s : State) (i : Nat) (f : Nat → Nat) : State :=
  { s with fe := { s.fe with tx := s.fe.tx.map fun t => { t with sbs := t.sbs.map fun e => if e.1 = i then (i, f e.2) else e } } }

/-- The whole USED of sub-band i, a reservation with it, moves into its current bucket (R194). -/
def sbGatherOne (i : Nat) (s : State) : State :=
  (s.modBuckets i fun _ => s.sbUsed i :: List.replicate 32 0).moveReserved i fun n => if n ≤ 32 then 0 else n

/-- A commit that changes the edges, LIMIT or WIN of a sub-band moves its whole USED into its current bucket (R194). -/
def sbGather (s : State) : State :=
  (List.range 8).foldl (fun s i =>
    if [F.FE_SBLO_KHZ i, F.FE_SBHI_KHZ i, F.FE_SBLIM_LIMIT i, F.FE_SBWIN_WIN i].any fun f => s.rd f != s.rd f.stg then sbGatherOne i s
    else s) s

/-- The front end commits. -/
def feCommitNow (s : State) : State :=
  commitWith 0x508 feCheck (if commitApplies 0x508 feCheck s then sbGather s else s)

/-- The front end's commit boundary: OFF, STBY, or not enabled (R37, R197). -/
def feCommit (s : State) : State :=
  if s.fe_st = feOff ∨ s.fe_st = feStby ∨ !s.on F.FE_CTL_EN then feCommitNow s else s

/-- The last average power of every lane, an open value, stands when RX is left (R160; notes/assumptions/5.md). -/
def lanePwrKeep (s : State) : State := (List.range 8).foldl (fun s n => s.wrFree (F.LANE_PWR_PWR n)) s

/-- STATE changes: event 88; DCOK is of one RX entry, and STBY has the synthesiser off; OFF, STBY and the entry to SYNTH are commit
boundaries (R181, R186, R197). -/
def feGo (st : Nat) (s : State) : State :=
  if s.fe_st = st then s
  else
    let s0 := if s.fe_st = feRx then (lanePwrKeep s).clr F.FE_STAT_DCOK else s
    let s1 := (if st = feStby then s0.clr F.FE_STAT_LOCK else s0).wr F.FE_STAT_STATE st
    let s2 := fire 88 s1
    if st = feOff ∨ st = feStby ∨ st = feSynth then feCommitNow s2 else s2

/-- Entry to SYNTH: the LO in force is the programmed one, and lock is sought for the first time (R177, R179). -/
def feSynthGo (s : State) : State :=
  let s1 := feGo feSynth s
  loAct (({ s1 with fe := { s1.fe with dcRun := false, dcAfterTx := false, retry := false } }.clr F.FE_STAT_LOCK).clr F.FE_STAT_DCOK)

/-- The front end leaves RX for a reason other than a TX start: receptions end with ABORTFE (R156). -/
def feLeaveRx (s : State) : State :=
  let s1 := if s.fe_st = feRx then allEnd 7 s else s
  if s1.on F.MOD_PULL_ACTIVE then pullRelease s1 else s1

/-- STBY with RXREQ standing or a TX accepted goes on to SYNTH; during a slice of the front end's partition the request waits
and counts in BIST_HOLD (R185, R186, R200). -/
def feSeek (s : State) : State :=
  if s.fe_st = feStby ∧ (s.on F.FE_STAT_RXREQ ∨ s.fe.tx.isSome) then
    if s.bistPart = some 13 then s.inc F.BIST_HOLD else feSynthGo s
  else s

/-- The AGC's next valid entry from g, downward in gain (upward in index), or upward in gain. -/
def nextEntry (s : State) (less : Bool) (g : Nat) : Option Nat :=
  if less then ((List.range 24).filter fun i => g < i && s.on (F.FE_GAINTAB_VALID i)).head?
  else ((List.range 24).reverse.filter fun i => i < g && s.on (F.FE_GAINTAB_VALID i)).head?

/-- The gain entry in force is shown, and a change of it counts; no valid entry shows 1Fh and gain 0 (R180). -/
def agcShow (g : Option Nat) (s : State) : State :=
  let i := g.getD 0x1F
  let s1 := if s.rd F.FE_AGCSTAT_IDX = i then s else (s.wr F.FE_AGCSTAT_IDX i).inc F.FE_AGCSTEP
  s1.wr F.FE_AGCSTAT_GAIN (match g with | some i => s.rd (F.FE_GAINTAB_GAIN i) | none => 0)

/-- The valid entry nearest to g: g itself, else toward less gain, else toward more (R180). -/
def nearestEntry (s : State) (g : Nat) : Option Nat :=
  if g < 24 && s.on (F.FE_GAINTAB_VALID g) then some g
  else match nextEntry s true g with
    | some i => some i
    | none => nextEntry s false g

/-- The entry in force before the AGC moves: FIX's entry, or the one in force. Where none was valid the AGC starts from the one nearest to
entry 23, and one that a table write made invalid gives way to its nearest valid entry (R180; DESIGN CHOICE,
notes/assumptions/100.md). -/
def agcSettle (s : State) : State :=
  let want := if s.on F.FE_AGC_FIX then min (s.rd F.FE_AGC_IDX) 23 else min (s.rd F.FE_AGCSTAT_IDX) 23
  agcShow (nearestEntry s want) s

/-- A 16 µs AGC period ends with a peak in dBFS, signed 8 bits (R180). -/
def agcPeriod (peak : Nat) (s : State) : State :=
  if s.fe_st ≠ feRx then s
  else
    let s1 := agcSettle s
    if s.on F.FE_AGC_FIX || s1.rd F.FE_AGCSTAT_IDX == 0x1F then s1
    else
      let g := s1.rd F.FE_AGCSTAT_IDX
      let p := signed peak 8
      let tgt : Int := s.rd F.FE_AGC_TGT
      let hyst : Int := s.rd F.FE_AGC_HYST
      let mv : Option Nat :=
        if -tgt + hyst < p then nextEntry s true g
        else if p < -tgt - hyst && s.demCount == 0 then nextEntry s false g
        else none
      match mv with
      | some i => agcShow (some i) s1
      | none => s1

/-- RX is entered: DC calibration done, the modem's lanes may be live (R181, R186). -/
def feEnterRx (dacI dacQ : Nat) (s : State) : State :=
  let s1 := { s with fe := { s.fe with dcRun := false, dcAfterTx := false } }
  agcSettle (feGo feRx (((s1.set1 F.FE_STAT_DCOK).wr F.FE_DC_DACI dacI).wr F.FE_DC_DACQ dacQ))

/-- OFF to STBY when EN, XORDY and no retirement hold (R186). -/
def feStbyReady (s : State) : State :=
  if s.fe_st = feOff ∧ s.on F.FE_CTL_EN ∧ s.on F.SYS_CLK_XORDY ∧ !s.on F.FE_STAT_RET ∧ !s.inRest then
    feSeek (feGo feStby s)
  else s

/-- The RX request is set (R185). -/
def feRxReq (s : State) : State := feSeek (s.set1 F.FE_STAT_RXREQ)

/-- Software or task 64 sets the RX request: one that the MAC had not set is not the MAC's (R185). -/
def feRxAsk (s : State) : State :=
  feRxReq (if s.on F.FE_STAT_RXREQ then s else { s with mac := { s.mac with rxOwn := false } })

/-- The RX request is cleared: SYNTH without a TX, and RX, return to STBY (R185 to R187). -/
def feRxRel (s : State) : State :=
  let s1 := s.clr F.FE_STAT_RXREQ
  if s.fe_st = feRx then feGo feStby (feLeaveRx s1)
  else if s.fe_st = feSynth ∧ s.fe.tx.isNone then feGo feStby s1
  else if s.fe_st = feRampdn ∧ s.fe.dcAfterTx then
    feGo feStby { s1 with fe := { s1.fe with dcAfterTx := false } }
  else s1

/-- RETUNE: RX goes to SYNTH, applying a waiting commit; elsewhere CMDERR (R187, R197). -/
def feRetune (s : State) : State :=
  if s.fe_st = feRx then feSynthGo (feLeaveRx s) else s.set1 F.FE_STAT_CMDERR

/-- A request waits for the end of the slice, counted once (R42, R200). -/
def feHold (w : FeWait) (s : State) : State := { s with fe := { s.fe with held := s.fe.held ++ [w] } }.inc F.BIST_HOLD

/-- CAL starts from STBY, after a slice that runs; elsewhere CMDERR (R187, R188, R200). -/
def feCalGo (s : State) : State :=
  if s.fe_st ≠ feStby then s.set1 F.FE_STAT_CMDERR
  else if s.bistPart = some 13 then feHold .cal s
  else feGo feCalSt s

/-- The selected calibrations complete: event 92, STBY (R188). -/
def feCalEnd (s : State) : State := if s.fe_st = feCalSt then feSeek (feGo feStby (fire 92 s)) else s

/-- The transmission in progress is marked aborted; a lock loss or trip counts against the channel (R195). -/
def txMarkAborted (faulty : Bool) (s : State) : State :=
  { s with fe := { s.fe with tx := s.fe.tx.map fun t => { t with aborted := true, faulty := t.faulty || faulty } } }

/-- A transmission ramps down (R186). -/
def feRampDown (s : State) : State :=
  if s.fe_st = feRampup ∨ s.fe_st = feTx then feGo feRampdn s else s

/-- ABORTTX: a transmission ramps down at once (R186). -/
def feAbortTx (s : State) : State :=
  if s.fe_st = feRampup ∨ s.fe_st = feTx then feRampDown (txMarkAborted false s) else s

/-- FE_CMD: only the first of ABORTTX, RXREL, RETUNE, CAL and RXREQ acts (R187). -/
def feCmdOp (v : Nat) (s : State) : State :=
  if bitOf v 4 then feAbortTx s
  else if bitOf v 1 then feRxRel s
  else if bitOf v 3 then feRetune s
  else if bitOf v 2 then feCalGo s
  else if bitOf v 0 then feRxAsk s
  else s

/-- The synthesiser locks: event 89; an accepted TX ramps up, else the DC calibration runs (R186). -/
def synthLock (s : State) : State :=
  if s.fe_st = feSynth ∧ !s.on F.FE_STAT_LOCK then
    let s1 := fire 89 ({ s with fe := { s.fe with retry := false } }.set1 F.FE_STAT_LOCK)
    if s1.fe.tx.isSome then feGo feRampup s1
    else { s1 with fe := { s1.fe with dcRun := true } }
  else s

/-- The reservation of a transmission is replaced by its actual time in every sub-band it belongs to and whose window still holds it
(R191, R192). -/
def txSettle (t : TxRun) (air : Nat) (s : State) : State :=
  t.sbs.foldl (fun s e => if e.2 ≤ 32 then s.modBuckets e.1 fun l => modAt 0 l e.2 fun x => x - t.charge + air else s) s

/-- The MAC is told of a transmission's end. -/
def feReport (r : TxReport) (s : State) : State := { s with fe := { s.fe with report := some r } }

/-- A transmission is over: its record, its charge, the trips in a row, the channel's fault, the report (R184, R191, R195). A clear of
TXINH leaves the run of tripped transmissions (DESIGN CHOICE, notes/assumptions/100.md). -/
def txOver (air : Nat) (s : State) : State :=
  match s.fe.tx with
  | none => s
  | some t =>
    let trips := if t.tripped then s.fe.trips + 1 else 0
    let mx := s.rd F.FE_REFLCFG_REFLMAX
    let s1 := txSettle t air { s with fe := { s.fe with tx := none, trips := trips } }
    let s2 := (s1.wr F.FE_TXSTAT_AIR air).wrB F.FE_TXSTAT_ABORTED t.aborted
    let s3 := if mx ≠ 0 ∧ mx ≤ trips then s2.set1 F.FE_STAT_TXINH else s2
    let s4 := if t.faulty then chanFault 0 (s.centre t.req.ofs) s3 else s3
    feReport (if t.aborted then .aborted t.req.kind else .ended t.req.kind) s4

/-- A lock failure after 200 µs: once the VCO is recalibrated and the lock retried; twice, STBY with LOCKFAIL (R177). The reservation of
a transmission that never ramped up is replaced by no time at all (DESIGN CHOICE, notes/assumptions/100.md). -/
def synthTimeout (s : State) : State :=
  if s.fe_st ≠ feSynth ∨ s.on F.FE_STAT_LOCK then s
  else if !s.fe.retry then { s with fe := { s.fe with retry := true } }
  else
    let s1 := { s with fe := { s.fe with retry := false } }
    let s2 := match s1.fe.tx with
      | some t => feReport (.aborted t.req.kind) (txSettle t 0 { s1 with fe := { s1.fe with tx := none } })
      | none => s1
    fire 90 (feGo feStby (((s2.clr F.FE_STAT_RXREQ).set1 F.FE_STAT_LOCKFAIL).inc F.FE_UNLOCKS))

/-- The 8 µs DC calibration ends and RX is entered, from SYNTH or after a down-ramp (R181, R186), after a loss of lock in the transmission
too, without a relock (DESIGN CHOICE, notes/assumptions/100.md). -/
def dcCalEnd (dacI dacQ : Nat) (s : State) : State :=
  if (s.fe_st = feSynth ∧ s.fe.dcRun) ∨ (s.fe_st = feRampdn ∧ s.fe.dcAfterTx) then
    if s.on F.FE_STAT_RXREQ then feEnterRx dacI dacQ s
    else feGo feStby { s with fe := { s.fe with dcRun := false, dcAfterTx := false } }
  else s

/-- Loss of lock in RX, RAMPUP or TX (R178). A transmission ends; how the lock is regained before an RX that follows is open: LOCK stays 0
(DESIGN CHOICE, notes/assumptions/100.md). -/
def lockLoss (s : State) : State :=
  let s1 := fire 90 ((s.clr F.FE_STAT_LOCK).inc F.FE_UNLOCKS)
  if s.fe_st = feRx then feSynthGo (feLeaveRx s1)
  else if s.fe_st = feRampup ∨ s.fe_st = feTx then feRampDown (txMarkAborted true s1)
  else s

/-! ### Admission -/

/-- The power index used: the smallest of the requested one, MAXIDX and, on VBAT, BATMAX (R182). -/
def State.powerIdx (s : State) (want : Nat) : Nat :=
  let a := min want (s.rd F.FE_TXCFG_MAXIDX)
  if s.on F.PWR_STAT_ONBAT then min a (s.rd F.FE_TXCFG_BATMAX) else a

/-- The ramp time in µs (R183). -/
def State.rampUs (s : State) : Nat := 2 * (s.rd F.FE_TXCFG_RAMP + 1)

/-- The charge of a request: T_air plus twice the ramp time (R191). -/
def State.txCharge (s : State) (r : TxReq) : Nat :=
  airUs r.k r.bw r.rate r.npre r.payload.length + 2 * s.rampUs

/-- The lower and upper edge of a request's channel (R189). -/
def State.txEdges (s : State) (r : TxReq) : Int × Int :=
  let c := s.centre r.ofs
  (c - hzScaled (bwHz r.bw) / 2, c + hzScaled (bwHz r.bw) / 2)

/-- The enabled sub-bands a request's channel belongs to (R189). -/
def State.txSbs (s : State) (r : TxReq) : List Nat :=
  let e := s.txEdges r
  (List.range 8).filter fun i =>
    s.on (F.FE_SBLO_EN i) && hzScaled (1000 * s.rd (F.FE_SBLO_KHZ i)) ≤ e.1 && e.2 ≤ hzScaled (1000 * s.rd (F.FE_SBHI_KHZ i))

/-- The request's channel lies within a retired channel (R190, R196; notes/assumptions/12.md). -/
def State.txInRetired (s : State) (r : TxReq) : Bool :=
  let e := s.txEdges r
  (List.range 16).any fun k =>
    let c := hzScaled (50 * s.rd (F.FE_CHF_FREQ k))
    let h := hzScaled (bwHz (s.rd (F.FE_CHF_BW k))) / 2
    bitOf (s.rd F.FE_CHRET_RET) k && c - h ≤ e.1 && e.2 ≤ c + h

/-- The charge exceeds a sub-band's MAXTX (R190). -/
def State.overMaxTx (s : State) (c i : Nat) : Bool :=
  let m := s.rd (F.FE_SBLIM_MAXTX i)
  m != 0 && decide (m * 100000 < c)

/-- The charge does not fit a sub-band's remaining budget (R192). -/
def State.overBudget (s : State) (c i : Nat) : Bool := decide (s.rd (F.FE_SBLIM_LIMIT i) * 1000 < s.sbUsed i + c)

/-- The reason a request is refused, 0 for none: the first check that fails (R190). One that comes while an accepted transmission still
waits for its up-ramp fails the second (R165: one frame at a time), and an offset beyond ±900 kHz is no reason (DESIGN CHOICE,
notes/assumptions/100.md). -/
def State.txReason (s : State) (r : TxReq) : Nat :=
  let sbs := s.txSbs r
  let c := s.txCharge r
  if s.on F.PWR_STAT_HOLD then 1
  else if !(s.fe_st == feStby || s.fe_st == feSynth || s.fe_st == feRx) || s.on F.FE_STAT_RET || s.fe.tx.isSome then 2
  else if s.on F.FE_STAT_TXINH then 3
  else if !s.on (F.FE_PWRTAB_VALID (s.powerIdx r.idx)) then 4
  else if s.txInRetired r then 5
  else if sbs.isEmpty then 6
  else if sbs.any (s.overMaxTx c) then 7
  else if sbs.any (s.overBudget c) then 8
  else 0

/-- A sub-band that lacked room is exhausted and waits for the refused charge; event 94 at each bit that sets (R193). -/
def sbExhaust (c i : Nat) (s : State) : State :=
  let s1 := { s with fe := { s.fe with exhWait := setAt 0 s.fe.exhWait i c } }
  if bitOf (s.rd F.FE_SBEXH_EXH) i then s1 else fire 94 (s1.setBit F.FE_SBEXH_EXH i)

/-- A refusal: the reason, the counters, the report to the MAC (R190, R193). -/
def txRefuse (r : TxReq) (reason : Nat) (s : State) : State :=
  let c := s.txCharge r
  let bad := if reason = 7 then (s.txSbs r).filter (s.overMaxTx c)
    else if reason = 8 then (s.txSbs r).filter (s.overBudget c) else []
  let s1 := (((s.set1 F.FE_TXREF_REFUSED).wr F.FE_TXREF_REASON reason).inc F.FE_TXREFCNT).whenB (reason == 1)
    (fun s => s.inc F.HOLD_BLOCKED)
  let s2 := bad.foldl (fun s i => s.inc (F.FE_SBREF i)) s1
  let s3 := if reason = 8 then bad.foldl (fun s i => sbExhaust c i s) s2 else s2
  feReport (.refused r.kind reason) { s3 with fe := { s3.fe with req := none } }

/-- The symbols of a transmission are formed (R142). -/
def txForm (r : TxReq) (s : State) : State :=
  { s with mod := { s.mod with
    txSyms := frameSyms r.k r.rate r.npre r.nid (header r.payload.length r.rate r.chk) r.payload } }

/-- MOD_TXP and MOD_TXAIR show the transmission; its symbols are formed (R142, R165). -/
def txShow (r : TxReq) (s : State) : State :=
  let s1 := txForm r s
  ((((((((s1.wr F.MOD_TXP_OFS r.ofs).wr F.MOD_TXP_NID r.nid).wr F.MOD_TXP_NPRE r.npre).wr F.MOD_TXP_CHK r.chk).wr
    F.MOD_TXP_RATE r.rate).wr F.MOD_TXP_BW r.bw).wr F.MOD_TXP_K r.k).wr F.MOD_TXP_LEN r.payload.length).wr
    F.MOD_TXAIR_US (airUs r.k r.bw r.rate r.npre r.payload.length)

/-- A transmission is accepted: its charge is reserved, the power index clamped, receptions end with ABORTTX and the front
end leaves RX, or a SYNTH that has its lock (R165, R182, R186, R190, R191). -/
def txAccept (r : TxReq) (s : State) : State :=
  let c := s.txCharge r
  let sbs := s.txSbs r
  let idx := s.powerIdx r.idx
  let locked := s.fe_st = feRx ∨ (s.fe_st = feSynth ∧ s.on F.FE_STAT_LOCK)
  let s1 := allEnd 6 { s with fe := { s.fe with req := none } }
  let s2 := if s1.on F.MOD_PULL_ACTIVE then pullRelease s1 else s1
  let s3 := sbs.foldl (fun s i => s.modBuckets i fun l => modAt 0 l 0 (· + c)) s2
  let s4 := ((s3.wr F.FE_TXSTAT_SB (sbs.headD 0)).wr F.FE_TXSTAT_IDX idx).wrB F.FE_TXSTAT_CLAMP (idx < r.idx)
  let s5 := if idx < r.idx then s4.inc F.FE_PWRCLAMP else s4
  let s6 := txShow r { s5 with fe := { s5.fe with tx := some { req := r, charge := c, sbs := sbs.map fun i => (i, 0) } } }
  if locked then feGo feRampup { s6 with fe := { s6.fe with dcRun := false } } else feSeek s6

/-- The decision on the MAC's TX request; outside HOLD the modem refuses it with MOD_CTL.EN = 0, as REASON 2 (R165, R190, R357;
notes/assumptions/13.md). -/
def txDecide (s : State) : State :=
  match s.fe.req with
  | none => s
  | some r =>
    let reason := s.txReason r
    if !s.on F.MOD_CTL_EN && reason ≠ 1 then feReport (.refused r.kind 2) { s with fe := { s.fe with req := none } }
    else if reason = 0 then txAccept r s else txRefuse r reason s

/-- The MAC's TX request is decided, after a slice that runs (R190, R200). -/
def txAdmitOp (s : State) : State :=
  if s.fe.req.isSome && s.bistPart == some 13 then (if s.fe.held.contains .tx then s else feHold .tx s) else txDecide s

/-- A request that waited for a slice goes on. -/
def feHeldGo (s : State) (w : FeWait) : State :=
  match w with
  | .cal => feCalGo s
  | .tx => txDecide s

/-- A slice of the front end's partition has ended: what waited for it goes on, in the order in which it came (R42, R200). -/
def feSliceEnd (s : State) : State := feSeek (s.fe.held.foldl feHeldGo { s with fe := { s.fe with held := [] } })

/-- A measurement of the return loss in 0.25 dB: below THR it is a trip (R184). -/
def reflMeasure (rl : Nat) (s : State) : State :=
  if s.fe_st = feTx then
    let s1 := s.wr F.FE_REFLMEAS_RL rl
    if rl < 4 * max (s.rd F.FE_REFLCFG_THR) 2 then
      let s2 := fire 93 (s1.inc F.FE_REFLTRIP)
      let s3 := { s2 with fe := { s2.fe with tx := s2.fe.tx.map fun t => { t with tripped := true } } }
      if s3.on F.FE_REFLCFG_ACT then feRampDown (txMarkAborted true s3) else s3
    else s1
  else s

/-- The first preamble symbol starts: a beacon's time is latched NPRE + 4 symbols on (R258). -/
def markBegin (s : State) : State :=
  { s with fe := { s.fe with tx := s.fe.tx.map fun t =>
      if t.req.bcn.isSome then
        { t with mark := some ((t.req.npre + 4) * 2 ^ t.req.k * 2 ^ 31 / bwHz t.req.bw) }
      else t } }

/-- The up-ramp completes: TX, and the first measurement (R184, R186). -/
def rampupEnd (rl : Nat) (s : State) : State :=
  if s.fe_st = feRampup then reflMeasure rl (markBegin (feGo feTx s)) else s

/-- The last payload symbol of a transmission ends: the front end ramps down (R165). -/
def modemTxEnd (s : State) : State := if s.fe_st = feTx then feRampDown s else s

/-- The down-ramp ends after `air` µs in all: event 91, the record, then RX after the calibration, or STBY (R186, R191). -/
def rampdnEnd (air : Nat) (s : State) : State :=
  if s.fe_st = feRampdn ∧ !s.fe.dcAfterTx then
    let s1 := fire 91 (txOver air s)
    if s1.on F.FE_STAT_RXREQ then { s1 with fe := { s1.fe with dcAfterTx := true } }
    else feSeek (feGo feStby s1)
  else s

/-- The front end goes to OFF from any state; a transmission ends aborted after a 2 µs ramp, its actual time a free value, and one that
had not ramped up is charged no time (R186; DESIGN CHOICE, notes/assumptions/100.md). -/
def feOffGo (s : State) : State :=
  if s.fe_st = feOff then s
  else
    let s1 := feLeaveRx s
    let s2 := if s.fe_st = feRampup ∨ s.fe_st = feTx ∨ (s.fe_st = feRampdn ∧ !s.fe.dcAfterTx) then
        let f := s1.free
        fire 91 (txOver (f.1 % 2 ^ 32) (txMarkAborted false f.2))
      else match s1.fe.tx with
        | some t => feReport (.aborted t.req.kind) (txSettle t 0 { s1 with fe := { s1.fe with tx := none } })
        | none => s1
    feGo feOff (({ s2 with fe := { s2.fe with dcRun := false, dcAfterTx := false, retry := false, held := s2.fe.held.filter (· == FeWait.tx) } }.clr
      F.FE_STAT_LOCK).clr F.FE_STAT_DCOK)

/-- Loss of XORDY: OFF with a reference fault (R187). -/
def feRefFault (s : State) : State := feOffGo (s.set1 F.FE_STAT_REFF)

/-- A sub-band's airtime bucket ends: the window moves on, and EXH clears when the refused charge would fit (R192, R193). -/
def bucketBoundary (i : Nat) (s : State) : State :=
  let s1 := s.modBuckets i fun l => 0 :: l.take 32
  let s2 := s1.moveReserved i (· + 1)
  if bitOf (s2.rd F.FE_SBEXH_EXH) i && !s2.overBudget (s2.fe.exhWait.getD i 0) i then s2.clrBit F.FE_SBEXH_EXH i else s2

/-- One channel entry closes its window (R196). -/
def chanClose (k : Nat) (s : State) : State :=
  if s.on (F.FE_CHF_EN k) then
    let bad := decide (s.rd F.FE_CHCFG_THR < s.rd (F.FE_CHST_CUR k))
    let h := (2 * s.rd (F.FE_CHST_HIST k) + b2n bad) % 2 ^ 16
    let s1 := (s.wr (F.FE_CHST_HIST k) h).clr (F.FE_CHST_CUR k)
    if 12 ≤ popCount 16 h && !bitOf (s1.rd F.FE_CHRET_RET) k then
      fire 95 (s1.setBit F.FE_CHRET_RET k)
    else s1
  else s

/-- A channel window closes in every enabled entry (R196). -/
def chanWindow (s : State) : State :=
  if s.rd F.FE_CHCFG_WIN = 0 then s else (List.range 16).foldl (fun s k => chanClose k s) s

/-- Writing 1 to FE_CHRET bits reinstates the channels and clears their statistics (R196). -/
def chretReinstate (set : Nat) (s : State) : State :=
  (bitsSet 16 set).foldl (fun s k =>
    ((s.clrBit F.FE_CHRET_RET k).clr (F.FE_CHST_HIST k)).clr (F.FE_CHST_CUR k)) s

/-- Retirement of the front end's partition (R200). -/
def feRetire (s : State) : State := feOffGo (s.set1 F.FE_STAT_RET)

/-- Rest entry: OFF, RXREQ clear, the measured fields at their reset values (R198). -/
def feRest (s : State) : State :=
  (((((feOffGo s).clr F.FE_STAT_RXREQ).clr F.FE_LOACT_LO).resetRange 0x508014 0x508016).resetRange 0x508012
    0x508014).resetRange 0x50801A 0x50801B

/-- A reset of the core domain: OFF and EN clear; the rest, the accounting included, stays (R199). -/
def feResetCore (s : State) : State :=
  let s1 := (feOffGo s).clr F.FE_CTL_EN
  { s1 with latches := s1.latches.filter (fun l => l.page ≠ 0x508), holds := s1.holds.filter (fun l => l.page ≠ 0x508),
            fe := { s1.fe with req := none, held := [], tx := none, report := none } }

/-- A reset of the always-on domain returns every field to its reset value and clears the accounting (R199). -/
def feResetAon (s : State) : State := { s.resetPage 0x508 with fe := {} }

end Sys2Proof.Machine
end

