-- ==== Sys2Proof/Machine/ColumnOps.lean ====
section
/-! DEFINITION. The column ports (spec/08_column_link.md): what a port sends (R204, R205, R209, R211), the rate choice (R214),
training and the port states (R212 to R219), snapshots (R217), retirement (R220), the reflection profile (R223) and the counts of
received frames (R210). Port 0 is CPA, port 1 is CPB. -/

namespace Sys2Proof.Machine

/-! ### States -/

/-- CP_STAT.STATE codes: OFF. -/
def cpOff : Nat := 0
/-- QUIET. -/
def cpQuiet : Nat := 1
/-- LISTEN. -/
def cpListen : Nat := 2
/-- TRAIN. -/
def cpTrain : Nat := 3
/-- DATA. -/
def cpData : Nat := 4
/-- PROBE. -/
def cpProbe : Nat := 5
/-- RETIRED. -/
def cpRetired : Nat := 6

/-- The hidden state of port p. -/
def State.cpx (s : State) (p : Nat) : CpState := s.cp.getD p {}

/-- Changes the hidden state of port p. -/
def State.modCp (s : State) (p : Nat) (f : CpState → CpState) : State := { s with cp := modAt {} s.cp p f }

/-- The state of port p. -/
def State.cpSt (s : State) (p : Nat) : Nat := s.rd (F.CP_STAT_STATE p)

/-- The port is a leader. -/
def State.cpLeader (s : State) (p : Nat) : Bool := s.on (F.CP_CFG_ROLE p)

/-- QUIET for a leader, LISTEN for a follower (R218). -/
def State.cpBase (s : State) (p : Nat) : Nat := if s.cpLeader p then cpQuiet else cpListen

/-- The port's page number. -/
def cpPage (p : Nat) : Nat := 0x50A + p

/-- The consistency rules of a port's commit (R227). -/
def cpCheck (p : Nat) (s : State) : Nat :=
  if s.rd (F.CP_CFG_MAXPAM p).stg = 0 then 1 else if s.rd (F.CP_LOS_THR p).stg = 0 then 2 else 0

/-- The baud at which a port starts: the configured one, or the fallback (R214). -/
def State.cpBaud (s : State) (p : Nat) : Nat := if (s.cpx p).fellBack then 1 else s.rd (F.CP_CFG_BAUD p)

/-- CP_STAT.BAUD takes the starting baud (R202). -/
def cpBaudSet (p : Nat) (s : State) : State := s.wr (F.CP_STAT_BAUD p) (s.cpBaud p)

/-- The port commits in OFF, QUIET, LISTEN and RETIRED (R227); a follower in LISTEN takes the committed baud (R202). -/
def cpCommit (p : Nat) (s : State) : State :=
  let st := s.cpSt p
  if st = cpOff ∨ st = cpQuiet ∨ st = cpListen ∨ st = cpRetired then
    let s1 := commitWith (cpPage p) (cpCheck p) s
    if st = cpListen && commitApplies (cpPage p) (cpCheck p) s then
      s1.wr (F.CP_STAT_BAUD p) (s1.rd (F.CP_CFG_BAUD p))
    else s1
  else s

/-- The link or the training works: the port is in the state and has not fallen silent (R218). -/
def State.cpUp (s : State) (p : Nat) : Bool := s.cpSt p == cpData && (s.cpx p).silence == .no

/-- The link sends frames: it is up, and the device is not in HOLD, where a DATA link stops transmitting (R218). -/
def State.cpSends (s : State) (p : Nat) : Bool := s.cpUp p && !s.on F.PWR_STAT_HOLD

/-- The port trains and has not fallen silent. -/
def State.cpTrains (s : State) (p : Nat) : Bool := s.cpSt p == cpTrain && (s.cpx p).silence == .no

/-! ### Sending (R204, R205, R211) -/

/-- A start of transmission from silence loads the scrambler (R205). -/
def CpState.fromSilence (x : CpState) : CpState := { x with txScr := 2 ^ 23 - 1, txWord := [] }

/-- One block is scrambled and sent. -/
def CpState.put (x : CpState) (b : Block) : CpState :=
  let l := b.toLine x.txScr
  { x with line := x.line ++ [l.1], txScr := l.2 }

/-- One block is sent, with RS on as a part of its codeword: after 15 blocks their parity block follows (R211). -/
def CpState.putRs (rs : Bool) (x : CpState) (b : Block) : CpState :=
  let y := x.put b
  if !rs then y
  else
    let w := x.txWord ++ natBytes (leBytes 8 b.word)
    if w.length < 120 then { y with txWord := w }
    else { y with txWord := [] }.put ⟨3, leNat (toBytes (rsParity w))⟩

/-- The port sends blocks at a PAM order, one after the other, and after what it has sent. -/
def CpState.send (pam : Nat) (rs : Bool) (l : List Block) (x : CpState) : CpState :=
  l.foldl (CpState.putRs rs) { x with linePam := pam }

/-- The port sends blocks of a link, at its order and with its code; none in HOLD (R204, R218). -/
def linkSend (p : Nat) (l : List Block) (s : State) : State :=
  if s.on F.PWR_STAT_HOLD then s
  else s.modCp p (CpState.send (s.rd (F.CP_STAT_PAM p)) (s.on (F.CP_STAT_RSON p)) l)

/-- The symbols of what the port sent last (R206). -/
def State.lineLevels (s : State) (p : Nat) : List Int := (s.cpx p).line.flatMap (blockLevels (s.cpx p).linePam)

/-- RTC time in 1/32,768 s. -/
def State.rtcTicks (s : State) : Nat := s.rd F.RTC_SECCNT * 32768 + s.rd F.RTC_CAL_SUB

/-! ### Snapshots (R217) -/

/-- Where the port's snapshot stands in context RAM. -/
def State.snapAddr (s : State) (p : Nat) : Nat := 0x480000 + s.rd (F.CP_SNAP_OFS p) * 0x200

/-- The port writes its snapshot: its head as R217 lays it out, the coefficients free values. -/
def cpSnapshot (p : Nat) (s : State) : State :=
  if s.on (F.CP_SNAP_EN p) then
    let f := s.freeBytes 496
    let head := leBytes 4 (s.rd F.RTC_SECCNT) ++ leBytes 2 (s.rd F.PWR_TEMP_DEG) ++
      [BitVec.ofNat 8 (s.rd (F.CP_STAT_BAUD p) + 2 * s.rd (F.CP_STAT_PAM p) + 8 * s.rd (F.CP_STAT_RSON p)), 0]
    f.2.setBytes (s.snapAddr p) (head ++ leBytes 4 (crc32 (head ++ f.1)) ++ leBytes 4 0 ++ f.1)
  else s

/-- The snapshot is valid and recent enough for a warm start (R216). -/
def State.warmOk (s : State) (p : Nat) : Bool :=
  let a := s.snapAddr p
  let good := s.leAt (a + 8) 4 == crc32 (s.bytes a 8 ++ s.bytes (a + 16) 496)
  let age := (s.rd F.RTC_SECCNT + 2 ^ 32 - s.leAt a 4) % 2 ^ 32
  let dt := (signed (s.leAt (a + 4) 2) 16 - signed (s.rd F.PWR_TEMP_DEG) 16).natAbs
  s.on (F.CP_CFG_WARM p) && good && bitsOf (s.leAt (a + 6) 1) 0 1 == s.rd (F.CP_STAT_BAUD p) &&
    decide (age < 600) && decide (dt < 20)

/-! ### Blocks of a training (R204, R212, R213, R215) -/

/-- The INFO block the port sends, with a STAGE and a COUNT: its SNR from S4 on, its offers, and what it has computed (R213). -/
def State.infoTx (s : State) (p stage count : Nat) : Info :=
  let x := s.cpx p
  { stage := stage, role := s.cpLeader p, warm := x.warm, baud := s.rd (F.CP_STAT_BAUD p), count := count,
    snr := if 4 ≤ stage then s.rd (F.CP_SNR_OWN p) else 0, maxPam := s.rd (F.CP_CFG_MAXPAM p), chosen := x.chosen,
    rsCap := s.on (F.CP_CFG_RS p), rsOn := x.rson }

/-- The port itself counts the blocks of the stage in progress: the leader's COUNT governs but in S2 (R212). -/
def State.cpCounts (s : State) (p : Nat) : Bool := s.cpLeader p == (s.rd (F.CP_STAT_STAGE p) != 2)

/-- The port trains and sends in the stage in progress: the leader alone in S1, the follower alone in S2, both from S3 on (R212). -/
def State.cpSendsIn (s : State) (p : Nat) : Bool := s.cpTrains p && (s.cpCounts p || decide (3 ≤ s.rd (F.CP_STAT_STAGE p)))

/-- The INFO block with which a follower in S3 and S4 copies the leader's STAGE and last received COUNT (R212); before a block of S3
has come it carries its own STAGE (notes/assumptions/98.md). -/
def State.infoCopy (s : State) (p : Nat) : Info :=
  let far := (s.cpx p).far.getD 0
  s.infoTx p (if infoStage far < 3 then s.rd (F.CP_STAT_STAGE p) else infoStage far) (infoCount far)

/-- The next n blocks of the stage in progress: IDLE blocks in S5, of which the code makes every sixteenth a parity block, else INFO
blocks, counted or copied (R212, R215). -/
def State.stageBlocks (s : State) (p n : Nat) : List Block :=
  if s.rd (F.CP_STAT_STAGE p) = 5 then List.replicate (if (s.cpx p).rson then n - n / 16 else n) idleBlock
  else if s.cpCounts p then
    (List.range n).map fun i => (s.infoTx p (s.rd (F.CP_STAT_STAGE p)) ((s.cpx p).left - 1 - i)).block
  else List.replicate n (s.infoCopy p).block

/-- The port sends the next n blocks of the stage in progress: at PAM-2 without the code, in S5 as it has chosen (R212, R215). -/
def cpSendStage (p n : Nat) (s : State) : State :=
  let five := s.rd (F.CP_STAT_STAGE p) == 5
  s.modCp p fun x =>
    { x.send (if five then x.chosen else 1) (five && x.rson) (s.stageBlocks p n) with left := x.left - n }

/-- Both ends send without gaps in S3 and S4: for each block time the port sends a block, a leader until its COUNT is at its end
(R204, R212). -/
def cpSendOne (p : Nat) (s : State) : State :=
  if s.cpCounts p && (s.cpx p).left == 0 then s else cpSendStage p 1 s

/-- In PROBE the port sends IDLE blocks at PAM-2 from silence (R223). -/
def cpSendProbe (p n : Nat) (s : State) : State := s.modCp p fun x => x.fromSilence.send 1 false (List.replicate n idleBlock)

/-- The whole blocks of the 20 ms of a PROBE (R223). -/
def State.probeLen (s : State) (p : Nat) : Nat := if s.rd (F.CP_CFG_BAUD p) = 0 then 3787 else 946

/-- A training or a PROBE that is cut off has sent a part of its stage, or of its 20 ms, that is open (R204). -/
def cpSendPart (p : Nat) (s : State) : State :=
  if s.cpSendsIn p && (s.cpx p).left != 0 then cpSendStage p (s.free.1 % ((s.cpx p).left + 1)) s.free.2
  else if s.cpSt p = cpProbe then cpSendProbe p (s.free.1 % (s.probeLen p + 1)) s.free.2
  else s

/-! ### Changes of state (R217 to R219) -/

/-- STATE and STAGE take values: a snapshot is written at an exit from DATA; TRAIN fires at a change, UP on entering DATA, DOWN on
leaving it; no event in Rest (R217, R218, R224). -/
def cpGo (p st stage : Nat) (s : State) : State :=
  let old := s.cpSt p
  let same := old == st && s.rd (F.CP_STAT_STAGE p) == stage
  let s0 := if old = cpData ∧ st ≠ cpData then cpSnapshot p s else s
  let s1 := (s0.wr (F.CP_STAT_STATE p) st).wr (F.CP_STAT_STAGE p) stage
  let s2 := if same || s1.inRest then s1
    else
      let a := fire (123 + 8 * p) s1
      let b := if st = cpData ∧ old ≠ cpData then fire (120 + 8 * p) a else a
      if old = cpData ∧ st ≠ cpData then fire (121 + 8 * p) b else b
  cpCommit p s2

/-- The port is retired: RET sets, RETIRE fires, the port is silent at once (R218, R220). -/
def cpRetire (p : Nat) (s : State) : State :=
  let s1 := cpGo p cpRetired 0 (((cpSendPart p s).set1 (F.CP_STAT_RET p)).modCp p fun x => { x with silence := .no, rx := none, far := none })
  if s1.inRest then s1 else fire (127 + 8 * p) s1

/-- The port stops its transmitter for 4 ms; what follows then, and the wait after it (R218). -/
def cpSilent (p : Nat) (next : Silence) (waitMs : Nat) (s : State) : State :=
  (cpSendPart p s).modCp p fun x => { x with silence := next, waitMs := waitMs, far := none, warm := false, rxSync := false }

/-- A failure is counted, recorded and stamped; the port falls silent, or the eighth failure within 600 s of the one seven before
retires it (R219, R220). The next training starts at the configured baud. -/
def cpFailure (p code : Nat) (s : State) : State :=
  let now := s.rd F.RTC_SECCNT
  let rec' := (now :: (s.cpx p).fails).take 8
  let s1 := (((s.wr (F.CP_TRFAIL_REASON p) code).wr (F.CP_TRFAIL_STAGE p) (s.rd (F.CP_STAT_STAGE p))).inc
    (F.CP_TRFAILS p)).modCp p fun x => { x with fails := rec', fellBack := false }
  if rec'.length = 8 ∧ (now + 2 ^ 32 - rec'.getD 7 0) % 2 ^ 32 ≤ 600 then cpRetire p s1
  else cpSilent p .base (if s.cpLeader p then 10 * s.rd (F.CP_RETRY_WAIT p) else 0) s1

/-! A secured frame enters cells of the frame buffer as it comes in (R302). -/

/-- The address of byte i of a frame's cells, of 512 (R267). -/
def cellAddr (cells : List Nat) (i : Nat) : Nat := 0x490000 + 256 * (cells.getD (i / 256) 0 % 512) + i % 256

/-- Bytes are written into a frame's cells from position i on. -/
def writeCells (cells : List Nat) : Nat → List Byte → State → State
  | _, [], s => s
  | i, b :: t, s => writeCells cells (i + 1) t (s.setByte (cellAddr cells i) b)

/-- The secured frame that comes in at a column port, its cells taken and its tag not yet checked. -/
def State.frameComing (s : State) (port : Nat) : Option FwdFrame :=
  if port = 1 ∨ port = 2 then s.fwd.frames.find? fun f => f.coming && f.port == port else none

/-- A frame that came in is not kept: 00h over its bytes, and its cells are free (R302). -/
def comingOver (port : Nat) (s : State) : State :=
  match s.frameComing port with
  | none => s
  | some f =>
    let s1 := writeCells f.cells 0 (List.replicate f.len 0) s
    { s1 with fwd := { s1.fwd with frames := s1.fwd.frames.filter fun g => g.num ≠ f.num } }

/-- The frame that comes in at a port, if it cuts through, has ended bad after some bytes: the egress is to send ABORT, and what
it left in cells is zeroed (R210, R287, R302). -/
def cutBad (port : Nat) (got : List Byte) (s : State) : State :=
  comingOver port { s with fwd := { s.fwd with cuts := s.fwd.cuts.map fun c =>
      if c.ingress = port ∧ !c.bad then { c with bad := true, got := got } else c } }

/-- What a link that goes down cuts short: the frame being received, and what forwarding sends on the port (R210). -/
def cpCut (p : Nat) (s : State) : State :=
  let s1 := match (s.cpx p).rx with
    | some l => cutBad (p + 1) l (s.inc (F.CP_RXABORT p))
    | none => s
  (s1.modCp p fun x => { x with rx := none, txCut := true }).clr (F.CP_STAT_BLK p)

/-- The link comes to its end: its frames are cut, a failure is recorded where there is one, and the port falls silent. -/
def cpEnd (p : Nat) (code : Option Nat) (s : State) : State :=
  match code with
  | some c => cpFailure p c (cpCut p s)
  | none => cpSilent p .base 0 (cpCut p s)

/-- The link goes down; within 1 s of UP that is a FLAP (R218, R219). -/
def cpLinkDown (p : Nat) (s : State) : State :=
  if s.cpUp p then
    cpEnd p (if (s.rtcTicks + 2 ^ 47 - (s.cpx p).upAt) % 2 ^ 47 < 32768 then some 7 else none) s
  else s

/-- A training fails with a code (R219). -/
def cpTrainFail (p code : Nat) (s : State) : State := if s.cpTrains p then cpFailure p code s else s

/-- Loss of signal: LOS fires and counts in TRAIN and DATA; a link goes down, a training that has decoded an INFO block fails
(R218, R219). Where the port listens on, what comes next comes after silence (R205). -/
def cpLoss (p : Nat) (s : State) : State :=
  if s.cpSt p = cpData then cpLinkDown p (fire (122 + 8 * p) (s.inc (F.CP_LOSCNT p)))
  else if s.cpSt p = cpTrain then
    let s1 := fire (122 + 8 * p) (s.inc (F.CP_LOSCNT p))
    if (s.cpx p).far.isSome then cpTrainFail p 6 s1 else s1.modCp p fun x => { x with rxSync := false }
  else if s.cpSt p = cpListen then s.modCp p fun x => { x with rxSync := false }
  else s

/-! ### Enabling (R218, R226) -/

/-- The port leaves OFF when EN, XORDY and no retirement hold; during a slice of its partition the request waits. -/
def cpSeek (p : Nat) (s : State) : State :=
  if s.cpSt p = cpOff ∧ s.on (F.CP_CTL_EN p) ∧ s.on F.SYS_CLK_XORDY ∧ !s.on (F.CP_STAT_RET p) ∧ !s.inRest then
    if s.bistPart = some (8 + p) then s.inc F.BIST_HOLD
    else
      (cpGo p (s.cpBase p) 0 (s.wr (F.CP_STAT_BAUD p) (s.rd (F.CP_CFG_BAUD p)))).modCp p
        fun x => { x with silence := .no, waitMs := 2, fellBack := false, rxSync := false }
  else s

/-- A write of EN or its task waits for the end of a slice of the port's partition, counted; the latest takes effect (R42, R226). -/
def cpEnHold (p : Nat) (v : Bool) (s : State) : State := (s.modCp p fun x => { x with enHeld := some v }).inc F.BIST_HOLD

/-- CP_CTL.EN = 1 or task 88 + 4p. -/
def cpEnableOp (p : Nat) (s : State) : State :=
  if s.bistPart = some (8 + p) then cpEnHold p true s else cpSeek p (s.set1 (F.CP_CTL_EN p))

/-- The port goes to OFF from any state but RETIRED. -/
def cpOffBare (p : Nat) (s : State) : State :=
  if s.cpSt p = cpRetired ∨ s.cpSt p = cpOff then s
  else cpGo p cpOff 0 ((cpSendPart p s).modCp p fun x => { x with silence := .no, rx := none, far := none })

/-- The port goes to OFF; a link that goes down with it cuts its frames (R210, R218). -/
def cpOffGo (p : Nat) (s : State) : State :=
  if s.cpSt p = cpRetired ∨ s.cpSt p = cpOff then s
  else (cpOffBare p (if s.cpSt p = cpData then cpCut p s else s)).clr (F.CP_STAT_BLK p)

/-- CP_CTL.EN = 0 or task 89 + 4p. -/
def cpDisableOp (p : Nat) (s : State) : State :=
  if s.bistPart = some (8 + p) then cpEnHold p false s else cpOffGo p (s.clr (F.CP_CTL_EN p))

/-- A slice of the port's partition has ended: what waited for it takes effect (R226). -/
def cpSliceEnd (p : Nat) (s : State) : State :=
  let s1 := s.modCp p fun x => { x with enHeld := none }
  match (s.cpx p).enHeld with
  | some true => cpEnableOp p s1
  | some false => cpDisableOp p s1
  | none => cpSeek p s

/-! ### Training (R212 to R216) -/

/-- The length of a stage in blocks. -/
def stageLen (baud stage : Nat) (warm : Bool) : Nat :=
  let n := if baud = 0 then [7500, 7500, 3750, 1875, 1875] else [1875, 1875, 938, 469, 469]
  if warm then (if baud = 0 then 900 else 225) else n.getD (stage - 1) 0

/-- A port enters a stage. It starts to send from silence in S1 as a leader, in S2 as a follower, and in S3; it hears a new
transmission from S2 and S3 on, but for a warm S3, which the leader began; S5 begins a new codeword. -/
def cpStage (p stage : Nat) (s : State) : State :=
  let fresh := stage = 3 ∨ stage = (if s.cpLeader p then 1 else 2)
  (cpGo p cpTrain stage s).modCp p fun x =>
    let y := if fresh then x.fromSilence else x
    { y with
      left := stageLen (s.rd (F.CP_STAT_BAUD p)) stage x.warm
      rxSync := x.rxSync && stage != 2 && (stage != 3 || x.warm)
      txWord := [], rxWord := [] }

/-- A training begins at a stage. -/
def cpTrainGo (p stage : Nat) (warm : Bool) (s : State) : State :=
  cpStage p stage ((s.wrB (F.CP_STAT_WARMUSED p) warm).modCp p fun x =>
    { x with warm := warm, far := none, chosen := 0, rson := false, silence := .no })

/-- A leader in QUIET whose waits are over starts training, warm at S3 or cold at S1; never in HOLD (R42, R216, R218). -/
def trainStart (p : Nat) (s : State) : State :=
  if s.cpSt p = cpQuiet then
    if s.on F.PWR_STAT_HOLD then s.inc F.HOLD_BLOCKED
    else
      let s1 := cpBaudSet p s
      if s1.warmOk p then cpTrainGo p 3 true s1 else cpTrainGo p 1 false s1
  else s

/-- The SNR a PAM order requires, in dB (R214). -/
def reqSnr (rs : Bool) (pam : Nat) : Nat :=
  (match pam with | 1 => 14 | 2 => 21 | _ => 27) - (if rs then 2 else 0)

/-- The highest order no higher than a cap whose requirement plus a margin is met by an SNR in 0.25 dB; 0 for none (R214). -/
def chooseRate (rs : Bool) (cap margin snr : Nat) : Nat :=
  ([3, 2, 1].filter fun pam => pam ≤ cap && decide (4 * (reqSnr rs pam + margin) ≤ snr)).headD 0

/-- The settings an end computes from both ends' SNR and offers (R214; a follower's MARGIN: notes/assumptions/88.md). -/
def State.cpChoice (s : State) (p far : Nat) : Nat × Bool :=
  let rs := s.on (F.CP_CFG_RS p) && infoRsCap far
  (chooseRate rs (min (s.rd (F.CP_CFG_MAXPAM p)) (infoMaxPam far)) (s.rd (F.CP_CFG_MARGIN p))
    (min (s.rd (F.CP_SNR_OWN p)) (infoSnr far)), rs)

/-- In S4 an end that has heard the far end's SNR computes the settings (R214). -/
def cpCompute (p blk : Nat) (s : State) : State :=
  if s.rd (F.CP_STAT_STAGE p) = 4 ∧ infoStage blk = 4 ∧ infoSnr blk ≠ 0 then
    let c := s.cpChoice p blk
    s.modCp p fun x => { x with chosen := c.1, rson := c.2 }
  else s

/-- The far end's block is kept. -/
def cpFar (p blk : Nat) (s : State) : State :=
  (s.wr (F.CP_SNR_FAR p) (infoSnr blk)).modCp p fun x => { x with far := some blk }

/-- A fallback explains a block at the other baud: the port may fall back and starts at 12.5 Mbaud (R214, R219). -/
def State.cpFallsBack (s : State) (p : Nat) : Bool := s.on (F.CP_CFG_FALLBACK p) && s.rd (F.CP_CFG_BAUD p) == 0

/-- A received INFO block: a follower in LISTEN joins a leader's S1, or its warm S3 with a valid snapshot, and in HOLD counts what it
does not join; a training port checks ROLE and BAUD, keeps the fields and computes the settings (R42, R212 to R214, R216, R219). -/
def infoRx (p blk : Nat) (s : State) : State :=
  if !infoOk blk then s
  else if s.cpSt p = cpListen then
    let warm := infoStage blk != 1
    if infoRole blk ∧ infoBaud blk = s.rd (F.CP_STAT_BAUD p) ∧ (warm → infoStage blk = 3 ∧ infoWarm blk ∧ s.warmOk p) then
      if s.on F.PWR_STAT_HOLD then s.inc F.HOLD_BLOCKED else cpFar p blk (cpTrainGo p (infoStage blk) warm s)
    else s
  else if s.cpTrains p then
    if infoRole blk = s.cpLeader p then cpTrainFail p 2 s
    else if infoBaud blk ≠ s.rd (F.CP_STAT_BAUD p) then (if s.cpFallsBack p then s else cpTrainFail p 8 s)
    else cpCompute p blk (cpFar p blk s)
  else s

/-- No order qualifies: both ends fall silent and train at 3.125 Mbaud where the leader's FALLBACK permits it, else NORATE; what the
leader permits is no field of its blocks, so that a follower's outcome is open (R214, notes/assumptions/88.md). -/
def cpNoRate (p : Nat) (s : State) : State :=
  let lead := s.cpLeader p
  let allowed := if lead then s.on (F.CP_CFG_FALLBACK p) else s.free.1 % 2 == 1
  let s1 := if lead then s else s.free.2
  if s.rd (F.CP_STAT_BAUD p) = 0 ∧ allowed then
    (cpSilent p (if lead then .coldS1 else .base) 0 s1).modCp p fun x => { x with fellBack := true }
  else cpTrainFail p 3 s1

/-- The end of S4: the settings are computed, and at either end those of the far end's last block must equal them (R214, R215). -/
def cpS4End (p far : Nat) (s : State) : State :=
  let c := s.cpChoice p far
  if c.1 = 0 then cpNoRate p s
  else if infoChosen far ≠ c.1 ∨ infoRsOn far ≠ c.2 then cpTrainFail p 4 s
  else
    cpStage p 5 (((s.wr (F.CP_STAT_PAM p) c.1).wrB (F.CP_STAT_RSON p) c.2).modCp p
      fun x => { x with chosen := c.1, rson := c.2 })

/-- From the first block of DATA on the port sends IDLE blocks at the chosen order, in codewords of their own, until its first frame;
how many is open; in HOLD it sends none (R204, R211, R218). -/
def cpSendFill (p : Nat) (s : State) : State :=
  let s1 := s.modCp p fun x => { x with txWord := [] }
  if s.on F.PWR_STAT_HOLD then s1
  else s1.free.2.modCp p fun x => (List.replicate s1.free.1 idleBlock).foldl (CpState.putRs x.rson) x

/-- An end that fails S5 sends 64 ABORT blocks (R215). -/
def cpSendAborts (p : Nat) (s : State) : State :=
  s.modCp p fun x => { x with txWord := [] }.send x.chosen x.rson (List.replicate 64 abortBlock)

/-- The end of S5: DATA where 256 blocks kept block lock and the SNR meets the order without the margin, else VERIFY (R215). -/
def cpS5End (p snr : Nat) (lock : Bool) (us : Nat) (s : State) : State :=
  let x := s.cpx p
  let s1 := s.wr (F.CP_SNR_OWN p) snr
  if lock && decide (4 * reqSnr x.rson x.chosen ≤ snr) then
    cpSendFill p ((cpGo p cpData 0 (s1.wr (F.CP_TRTIME_US p) us)).modCp p fun x =>
      { x with upAt := s.rtcTicks, fellBack := false, errs := 0, errFired := false, young := true, rxWord := [] })
  else cpTrainFail p 5 (cpSendAborts p s1)

/-- A block of the far end with the stage in progress has been decoded: its COUNT tells when the stage ends, whatever becomes of the
blocks after it. -/
def State.farTells (s : State) (p : Nat) : Bool :=
  match (s.cpx p).far with
  | some b => infoStage b == s.rd (F.CP_STAT_STAGE p)
  | none => false

/-- The stage in progress can end: in S1, S3 and S4 the leader's COUNT governs, in S2 the follower's, which the other end must have
decoded; S5 has a length alone (R212). -/
def State.stageOver (s : State) (p : Nat) : Bool :=
  let stage := s.rd (F.CP_STAT_STAGE p)
  stage == 5 || (s.cpLeader p == (stage != 2)) || s.farTells p

/-- A training stage completes, the rest of its blocks sent: the next stage, or DATA after S5 (R212, R215); `snr` is the SNR measured in
the stage, `lock` tells 256 blocks of block lock, `us` the training's time so far. -/
def trainStageEnd (p snr : Nat) (lock : Bool) (us : Nat) (s : State) : State :=
  if !s.cpTrains p || !s.stageOver p then s
  else
    let s1 := if s.cpCounts p || s.rd (F.CP_STAT_STAGE p) == 5 then cpSendStage p (s.cpx p).left s else s
    match s.rd (F.CP_STAT_STAGE p) with
    | 1 => cpStage p 2 s1
    | 2 => cpStage p 3 s1
    | 3 => cpStage p 4 (s1.wr (F.CP_SNR_OWN p) snr)
    | 4 =>
      match (s.cpx p).far with
      | some far => cpS4End p far s1
      | none => cpTrainFail p 1 s1
    | _ => cpS5End p snr lock us s1

/-- TIMEOUT can strike: in S3 to S5 once an INFO block of the far end has been decoded in the training, or a leader in S2 that has no
follower signal; a warm-starting leader that has decoded none follows R216 (R219). -/
def State.canTimeOut (s : State) (p : Nat) : Bool :=
  let stage := s.rd (F.CP_STAT_STAGE p)
  (decide (3 ≤ stage) && (s.cpx p).far.isSome) || (s.cpLeader p && stage == 2 && (s.cpx p).far.isNone && !(s.cpx p).rxSync)

/-- No valid INFO block, or no follower signal, in time: TIMEOUT (R219). -/
def trainTimeout (p : Nat) (s : State) : State := if s.canTimeOut p then cpTrainFail p 1 s else s

/-- A warm-starting leader without a follower's INFO block within 5 ms: silence, then a cold S1 (R216). -/
def warmTimeout (p : Nat) (s : State) : State :=
  if s.cpTrains p ∧ s.cpLeader p ∧ (s.cpx p).warm ∧ (s.cpx p).far = none then cpSilent p .coldS1 0 s else s

/-- The port goes to QUIET or LISTEN once its silence is over (R218); a follower listens at its starting baud (R202). -/
def cpToBase (p : Nat) (s : State) : State :=
  let s1 := (cpGo p (s.cpBase p) 0 s).modCp p fun x => { x with waitMs := max x.waitMs 2 }
  if s1.cpSt p = cpListen then cpBaudSet p s1 else s1

/-- The 4 ms of silence end (R218). -/
def silenceEnd (p : Nat) (s : State) : State :=
  let s1 := s.modCp p fun x => { x with silence := .no }
  if s.cpSt p ≠ cpTrain ∧ s.cpSt p ≠ cpData then s1
  else
    match (s.cpx p).silence with
    | .no => s
    | .base => cpToBase p s1
    | .coldS1 =>
      if s.on F.PWR_STAT_HOLD then cpToBase p (s1.inc F.HOLD_BLOCKED) else cpTrainGo p 1 false (cpBaudSet p s1)

/-- Block lock (R208). -/
def blockLock (p : Nat) (s : State) : State :=
  if s.cpTrains p || s.cpUp p || s.cpSt p == cpListen then s.set1 (F.CP_STAT_BLK p) else s

/-- Loss of block lock counts as loss of signal (R208). -/
def blockLockLoss (p : Nat) (s : State) : State := cpLoss p (s.clr (F.CP_STAT_BLK p))

/-- A follower in LISTEN with FALLBACK = 1 switches the baud it listens at (R214). -/
def listenAlternate (p : Nat) (s : State) : State :=
  if s.cpSt p = cpListen ∧ s.on (F.CP_CFG_FALLBACK p) then s.wr (F.CP_STAT_BAUD p) (1 - s.rd (F.CP_STAT_BAUD p)) else s

/-- Far-end energy in QUIET restarts the 2 ms wait (R218). -/
def farEndEnergy (p : Nat) (s : State) : State :=
  if s.cpSt p = cpQuiet then s.modCp p fun x => { x with waitMs := max x.waitMs 2 } else s

/-! ### Commands -/

/-- REINST: a port retired by failures comes back with an empty record (R220). -/
def cpReinstOp (p : Nat) (s : State) : State :=
  if s.on (F.CP_STAT_RET p) ∧ !s.on (F.CP_STAT_PRET p) then
    cpSeek p (cpGo p cpOff 0 ((s.clr (F.CP_STAT_RET p)).modCp p fun x => { x with fails := [] }))
  else s

/-- RETRAIN: the link goes down, a waiting commit is applied, and the port trains again (R218, R227). -/
def cpRetrainOp (p : Nat) (s : State) : State := cpLinkDown p s

/-- SNAP in DATA writes a snapshot; elsewhere CMDERR (R217). -/
def cpSnapOp (p : Nat) (s : State) : State :=
  if s.cpSt p = cpData then cpSnapshot p s else s.set1 (F.CP_STAT_CMDERR p)

/-- The tap of largest magnitude from index `skip` on: its index and value. -/
def peakTap (skip : Nat) (taps : List Nat) : Nat × Int :=
  ((List.range 160).filter (fun k => skip ≤ k)).foldl (fun (b : Nat × Int) k =>
    let t := signed (taps.getD k 0) 16
    if b.2.natAbs < t.natAbs then (k, t) else b) (skip, 0)

/-- The peak's position in sixteenths of a tap, refined over its two neighbours (R223); none where the spec gives no
refinement. -/
def refineTap (taps : List Nat) (k : Nat) : Option Nat :=
  let y (i : Nat) : Int := signed (taps.getD i 0) 16
  if k = 0 ∨ 159 ≤ k then none
  else
    let den : Int := 2 * (y (k - 1) - 2 * y k + y (k + 1))
    let num : Int := 16 * (y (k - 1) - y (k + 1))
    if den = 0 then none
    else
      let n := if den < 0 then -num else num
      let d := den.natAbs
      some (16 * (k : Int) + (2 * n + d) / (2 * d)).toNat

/-- The distance of a position in sixteenths of a tap, in 0.1 m (R223). -/
def tapDist (vf baud k16 : Nat) : Nat :=
  let vf := min (max vf 50) 100
  roundDiv (k16 * vf * 2997924580) (16 * (if baud = 0 then 2500 else 625) * 1000000)

/-- A capture: the taps are copied and the fault located (R223). -/
def cpCapture (p baud : Nat) (taps : List Nat) (s : State) : State :=
  let s1 := (List.range 160).foldl (fun s k => s.wr (F.CP_REFLT_TAP p k) (taps.getD k 0)) s
  let pk := peakTap (s.rd (F.CP_REFLCFG_SKIP p)) taps
  let s2 := ((s1.wr (F.CP_FAULT_MAG p) (ofInt pk.2 16)).wrB (F.CP_FAULT_SIGN p) (decide (pk.2 < 0))).set1
    (F.CP_FAULT_VALID p)
  match refineTap taps pk.1 with
  | some k16 => s2.wr (F.CP_FAULT_DIST p) (tapDist (s.rd (F.CP_REFLCFG_VF p)) baud k16)
  | none => s2.wrFree (F.CP_FAULT_DIST p)

/-- REFL: a capture in DATA, PROBE from QUIET or LISTEN outside HOLD, elsewhere CMDERR (R218, R223). -/
def cpReflOp (p : Nat) (taps : List Nat) (s : State) : State :=
  if s.cpSt p = cpData then cpCapture p (s.rd (F.CP_STAT_BAUD p)) taps s
  else if s.cpSt p = cpQuiet ∨ s.cpSt p = cpListen then
    if s.on F.PWR_STAT_HOLD then s.inc F.HOLD_BLOCKED else cpGo p cpProbe 0 s
  else s.set1 (F.CP_STAT_CMDERR p)

/-- PROBE ends after 20 ms: the capture, then the base state (R223). -/
def probeEnd (p : Nat) (taps : List Nat) (s : State) : State :=
  if s.cpSt p = cpProbe then
    cpToBase p (cpCapture p (s.rd (F.CP_CFG_BAUD p)) taps (cpSendProbe p (s.probeLen p) s))
  else s

/-- 160 free taps, where a capture is asked through a register or a task. -/
def freeTaps (s : State) : List Nat × State :=
  ((List.range 160).map (fun i => Config.free (s.freeSeq + i) % 2 ^ 16), { s with freeSeq := s.freeSeq + 160 })

/-- REFL asked through CP_CMD or task 91 + 4p: the measured taps are free values. -/
def cpReflFree (p : Nat) (s : State) : State :=
  let f := freeTaps s
  cpReflOp p f.1 f.2

/-- CP_CMD: only the first of REINST, DOWN, RETRAIN, REFL and SNAP acts. -/
def cpCmdOp (p v : Nat) (s : State) : State :=
  if bitOf v 4 then cpReinstOp p s
  else if bitOf v 0 then cpLinkDown p s
  else if bitOf v 1 then cpRetrainOp p s
  else if bitOf v 3 then cpReflFree p s
  else if bitOf v 2 then cpSnapOp p s
  else s

/-! ### Errors and received frames (R210, R221) -/

/-- An error in DATA: at THR in a second ERR fires once, and with ACT = 1 the link retrains (R221). -/
def cpError (p : Nat) (s : State) : State :=
  if s.cpUp p then
    let n := (s.cpx p).errs + 1
    let thr := s.rd (F.CP_ERRCFG_THR p)
    let s1 := s.modCp p fun x => { x with errs := n }
    if thr ≠ 0 ∧ thr ≤ n ∧ !(s.cpx p).errFired then
      let s2 := fire (126 + 8 * p) (s1.modCp p fun x => { x with errFired := true })
      if s2.on (F.CP_ERRCFG_ACT p) then cpLinkDown p s2 else s2
    else s1
  else s

/-- The second of the error count ends (R221). -/
def cpErrWindow (p : Nat) (s : State) : State := s.modCp p fun x => { x with errs := 0, errFired := false }

/-- A received frame is over. -/
def cpRxOver (p : Nat) (s : State) : State := s.modCp p fun x => { x with rx := none }

/-- A frame in progress ends discarded at a counter. -/
def cpRxDrop (p : Nat) (c : Fld) (s : State) : State := (cpRxOver p s).inc c

/-- A frame in progress meets a block it cannot hold: CP_BLKERR, and an error of R221. -/
def cpRxBad (p : Nat) (s : State) : State := cpError p (cpRxDrop p (F.CP_BLKERR p) s)

/-- A START block begins a frame with its seven bytes (R209). -/
def cpRxBegin (p : Nat) (first : List Byte) (s : State) : State :=
  if s.cpUp p then s.modCp p fun x => { x with rx := some first, headed := false } else s

/-- A TERMn block ends a frame: it is good, or which counter and whether an error count (R210). -/
def cpRxTerm (p : Nat) (f : List Byte) (s : State) : State :=
  if f.length < 10 then cpRxDrop p (F.CP_RUNT p) s
  else if 1536 < f.length then cpRxDrop p (F.CP_LONG p) s
  else if frameGood f then fire (124 + 8 * p) (cpRxDrop p (F.CP_RXOK p) s)
  else cpError p (cpRxDrop p (F.CP_CRCERR p) s)

/-- A counter counts n more and saturates (R44). -/
def State.incBy (s : State) (f : Fld) (n : Nat) : State := s.wr f (min (s.rd f + n) 0xFFFF)

/-- The far end's S5 failed: its ABORT blocks fail the training here too, in S5 or as the first blocks of the link (R215). -/
def cpVerify (p : Nat) (s : State) : State :=
  if s.cpUp p then cpEnd p (some 5) s else cpTrainFail p 5 s

/-! ### Reset and Rest -/

/-- Loss of XORDY: OFF with a reference fault (R222). -/
def cpRefFault (p : Nat) (s : State) : State :=
  if s.cpSt p = cpRetired then s else cpOffGo p (s.set1 (F.CP_STAT_REFF p))

/-- Rest entry: OFF, and the fields that Rest does not hold at their reset values (R224). -/
def cpRest (p : Nat) (s : State) : State :=
  (((cpOffGo p s).clr (F.CP_STAT_BLK p)).clr (F.CP_SNR_FAR p)).clr (F.CP_SNR_OWN p)

/-- A reset of the core domain: OFF and EN clear, the rest unchanged but for the latches (R225). -/
def cpResetCore (p : Nat) (s : State) : State :=
  let s1 := (cpOffBare p (s.clr (F.CP_CTL_EN p))).modCp p fun x => { x with enHeld := none }
  { s1 with latches := s1.latches.filter (fun l => l.page ≠ cpPage p)
            holds := s1.holds.filter (fun l => l.page ≠ cpPage p) }

/-- A reset of the always-on domain (R225). -/
def cpResetAon (p : Nat) (s : State) : State := { s.resetPage (cpPage p) with cp := setAt {} s.cp p {} }

/-- Retirement of the port's partition (R220). -/
def cpRetirePart (p : Nat) (s : State) : State := cpRetire p (s.set1 (F.CP_STAT_PRET p))

end Sys2Proof.Machine
end

