-- ==== Sys2Proof/Machine/Crypto.lean ====
section
/-! DEFINITION. The ciphers of the cipher engine (R298): AES-128 and AES-256 as FIPS-197 defines them, CTR, CBC-MAC, CMAC,
CCM with a 13-byte nonce, and the AES key wrap of RFC 3394 (R312); with the SHA-256 of the boot checks (R440). Bytes
and words are plain numbers here. -/

namespace Sys2Proof.Machine

/-! ### The field of AES -/

/-- A byte times x in GF(2^8). -/
def xtime (a : Nat) : Nat := if a < 128 then 2 * a else (2 * a) ^^^ 0x11B

/-- The product of two bytes in GF(2^8), over the k low bits of the second. -/
def aesMulBits : Nat → Nat → Nat → Nat
  | 0, _, _ => 0
  | k + 1, a, b => (if b % 2 = 1 then a else 0) ^^^ aesMulBits k (xtime a) (b / 2)

/-- The product of two bytes in GF(2^8). -/
def aesMul (a b : Nat) : Nat := aesMulBits 8 a b

/-- The product of a^2, a^4, … over k squarings. -/
def aesSquares : Nat → Nat → Nat
  | 0, _ => 1
  | k + 1, a => let q := aesMul a a; aesMul q (aesSquares k q)

/-- The inverse in GF(2^8), a^254, with 0 for 0. -/
def aesInv (a : Nat) : Nat := aesSquares 7 a

/-- A byte turned left by k bits. -/
def rotl8 (b k : Nat) : Nat := (b * 2 ^ k + b / 2 ^ (8 - k)) % 256

/-- SubBytes of one byte. -/
def subByte (a : Nat) : Nat :=
  let b := aesInv a
  b ^^^ rotl8 b 1 ^^^ rotl8 b 2 ^^^ rotl8 b 3 ^^^ rotl8 b 4 ^^^ 0x63

/-- InvSubBytes of one byte. -/
def invSubByte (a : Nat) : Nat := aesInv (rotl8 a 1 ^^^ rotl8 a 3 ^^^ rotl8 a 6 ^^^ 0x05)

/-! ### AES -/

/-- Byte lists combined byte by byte with exclusive or. -/
def xorBytes (a b : List Nat) : List Nat := a.zipWith (· ^^^ ·) b

/-- The words of a key, four bytes each. -/
def keyWords : Nat → List Nat → List (List Nat)
  | 0, _ => []
  | n + 1, k => k.take 4 :: keyWords n (k.drop 4)

/-- The round constant of the i-th key-expansion round, i from 1. -/
def rcon : Nat → Nat
  | 0 => 0
  | 1 => 1
  | n + 2 => xtime (rcon (n + 1))

/-- One more word of the expanded key, nk words in the key. -/
def nextKeyWord (nk : Nat) (w : List (List Nat)) : List Nat :=
  let i := w.length
  let t := w.getD (i - 1) []
  let t1 :=
    if i % nk = 0 then xorBytes ((t.drop 1 ++ t.take 1).map subByte) [rcon (i / nk), 0, 0, 0]
    else if 6 < nk ∧ i % nk = 4 then t.map subByte
    else t
  xorBytes (w.getD (i - nk) []) t1

/-- The expanded key after m more words. -/
def expandKey (nk : Nat) : Nat → List (List Nat) → List (List Nat)
  | 0, w => w
  | m + 1, w => expandKey nk m (w ++ [nextKeyWord nk w])

/-- The round keys of a key of 16 or 32 bytes, sixteen bytes each. -/
def roundKeys (key : List Nat) : List (List Nat) :=
  let nk := key.length / 4
  let w := expandKey nk (4 * (nk + 7) - nk) (keyWords nk key)
  (List.range (nk + 7)).map fun r => (List.range 4).flatMap fun c => w.getD (4 * r + c) []

/-- ShiftRows: row r of the column-major state turns left by r. -/
def shiftRows (s : List Nat) : List Nat := (List.range 16).map fun i => s.getD ((i + 4 * (i % 4)) % 16) 0

/-- InvShiftRows. -/
def invShiftRows (s : List Nat) : List Nat := (List.range 16).map fun i => s.getD ((i + 12 * (i % 4)) % 16) 0

/-- A column mixed with the circulant matrix whose first row is m. -/
def mixColumn (m : List Nat) (c : List Nat) : List Nat :=
  (List.range 4).map fun r => (List.range 4).foldl (fun a j => a ^^^ aesMul (c.getD j 0) (m.getD ((j + 4 - r) % 4) 0)) 0

/-- A state's columns mixed. -/
def mixColumns (m s : List Nat) : List Nat := (List.range 4).flatMap fun c => mixColumn m ((s.drop (4 * c)).take 4)

/-- One block encrypted under expanded keys. -/
def aesRounds (rk : List (List Nat)) (blk : List Nat) : List Nat :=
  let nr := rk.length - 1
  let s := (List.range (nr - 1)).foldl
    (fun s r => xorBytes (mixColumns [2, 3, 1, 1] (shiftRows (s.map subByte))) (rk.getD (r + 1) []))
    (xorBytes blk (rk.getD 0 []))
  xorBytes (shiftRows (s.map subByte)) (rk.getD nr [])

/-- One block decrypted under expanded keys. -/
def aesInvRounds (rk : List (List Nat)) (blk : List Nat) : List Nat :=
  let nr := rk.length - 1
  let s := (List.range (nr - 1)).foldl
    (fun s r => mixColumns [14, 11, 13, 9] (xorBytes ((invShiftRows s).map invSubByte) (rk.getD (nr - 1 - r) [])))
    (xorBytes blk (rk.getD nr []))
  xorBytes ((invShiftRows s).map invSubByte) (rk.getD 0 [])

/-- A key as its round keys; a block cipher is used through these. -/
abbrev AesKey := List (List Nat)

/-- Sixteen zero bytes. -/
def zero16 : List Nat := List.replicate 16 0

/-- A byte list padded with zeros to a multiple of 16. -/
def pad16 (l : List Nat) : List Nat := l ++ List.replicate ((16 - l.length % 16) % 16) 0

/-- The blocks of a byte list, the last one perhaps short; n bounds their number. -/
def blocksOf : Nat → List Nat → List (List Nat)
  | 0, _ => []
  | n + 1, l => if l.isEmpty then [] else l.take 16 :: blocksOf n (l.drop 16)

/-- The blocks of a byte list. -/
def blocks16 (l : List Nat) : List (List Nat) := blocksOf ((l.length + 15) / 16) l

/-- The counter block: its last four bytes are a big-endian counter modulo 2^32 (R305). -/
def nextCounter (c : List Nat) : List Nat :=
  let n := (c.drop 12).foldl (fun a b => a * 256 + b) 0 + 1
  c.take 12 ++ [n / 2 ^ 24 % 256, n / 2 ^ 16 % 256, n / 2 ^ 8 % 256, n % 256]

/-- CTR from an initial counter block (R305). -/
def ctrBlocks (k : AesKey) : List Nat → List (List Nat) → List Nat
  | _, [] => []
  | c, b :: t => xorBytes b (aesRounds k c) ++ ctrBlocks k (nextCounter c) t

/-- CTR over a byte list. -/
def aesCtr (k : AesKey) (c l : List Nat) : List Nat := ctrBlocks k c (blocks16 l)

/-- CBC-MAC with a zero initial value over whole blocks (R305). -/
def cbcMac (k : AesKey) (l : List Nat) : List Nat :=
  (blocks16 l).foldl (fun x b => aesRounds k (xorBytes x b)) zero16

/-- Doubling in the CMAC field. -/
def cmacDouble (l : List Nat) : List Nat :=
  let n := 2 * l.foldl (fun a b => a * 256 + b) 0
  let m := if 2 ^ 128 ≤ n then (n % 2 ^ 128) ^^^ 0x87 else n
  (List.range 16).map fun i => m / 2 ^ (8 * (15 - i)) % 256

/-- CMAC (R298). -/
def cmac (k : AesKey) (l : List Nat) : List Nat :=
  let k1 := cmacDouble (aesRounds k zero16)
  let k2 := cmacDouble k1
  let n := l.length
  let last := 16 * ((n - 1) / 16)
  let head := if n = 0 then [] else l.take last
  let tail := if n = 0 then [] else l.drop last
  let fin := if tail.length = 16 then xorBytes tail k1 else xorBytes (pad16 (tail ++ [0x80])) k2
  aesRounds k (xorBytes (cbcMac k head) fin)

/-- The two low bytes of n, most significant first. -/
def be2 (n : Nat) : List Nat := [n / 256 % 256, n % 256]

/-- The blocks CCM authenticates: B0, the associated data with its length, the message (SP 800-38C, q = 2). -/
def ccmBlocks (nonce ad msg : List Nat) (tlen : Nat) : List Nat :=
  let flags := (if ad.isEmpty then 0 else 64) + (tlen - 2) / 2 * 8 + 1
  flags :: nonce ++ be2 msg.length ++ (if ad.isEmpty then [] else pad16 (be2 ad.length ++ ad)) ++ pad16 msg

/-- The CCM counter block i. -/
def ccmCounter (nonce : List Nat) (i : Nat) : List Nat := 1 :: nonce ++ be2 i

/-- The encrypted tag of CCM. -/
def ccmTag (k : AesKey) (nonce ad msg : List Nat) (tlen : Nat) : List Nat :=
  (xorBytes (cbcMac k (ccmBlocks nonce ad msg tlen)) (aesRounds k (ccmCounter nonce 0))).take tlen

/-- CCM's counter mode over the message; the two low counter bytes never wrap into a third for a message this engine
takes. -/
def ccmCrypt (k : AesKey) (nonce msg : List Nat) : List Nat := aesCtr k (ccmCounter nonce 1) msg

/-! ### Key wrap (RFC 3394) -/

/-- The default initial value A6A6A6A6A6A6A6A6h. -/
def wrapIv : List Nat := List.replicate 8 0xA6

/-- The eight bytes of a step number, most significant first. -/
def be8 (n : Nat) : List Nat := (List.range 8).map fun i => n / 2 ^ (8 * (7 - i)) % 256

/-- One wrapping step over the register A and the semiblocks R. -/
def wrapStep (k : AesKey) (n t : Nat) (x : List Nat × List (List Nat)) : List Nat × List (List Nat) :=
  let i := (t - 1) % n
  let b := aesRounds k (x.1 ++ x.2.getD i [])
  (xorBytes (b.take 8) (be8 t), x.2.set i (b.drop 8))

/-- One unwrapping step. -/
def unwrapStep (k : AesKey) (n t : Nat) (x : List Nat × List (List Nat)) : List Nat × List (List Nat) :=
  let i := (t - 1) % n
  let b := aesInvRounds k (xorBytes x.1 (be8 t) ++ x.2.getD i [])
  (b.take 8, x.2.set i (b.drop 8))

/-- The semiblocks of a byte list. -/
def semiblocks : Nat → List Nat → List (List Nat)
  | 0, _ => []
  | n + 1, l => l.take 8 :: semiblocks n (l.drop 8)

/-- AES key wrap of n semiblocks. -/
def keyWrap (k : AesKey) (l : List Nat) : List Nat :=
  let n := l.length / 8
  let x := (List.range (6 * n)).foldl (fun x t => wrapStep k n (t + 1) x) (wrapIv, semiblocks n l)
  x.1 ++ x.2.flatten

/-- AES key unwrap; none where the integrity check fails. -/
def keyUnwrap (k : AesKey) (l : List Nat) : Option (List Nat) :=
  let n := l.length / 8 - 1
  let x := (List.range (6 * n)).foldl (fun x t => unwrapStep k n (6 * n - t) x) (l.take 8, semiblocks n (l.drop 8))
  if x.1 = wrapIv then some x.2.flatten else none

/-! ### SHA-256 (R440) -/

/-- The primes up to 311, of which there are 64. -/
def shaPrimes : List Nat := (List.range 312).filter fun n => 2 ≤ n && [2, 3, 5, 7, 11, 13, 17].all fun d => n == d || n % d != 0

/-- The k-th root of n, rounded down, found bit by bit from bit b - 1 on, above r. -/
def rootDown (k n : Nat) : Nat → Nat → Nat
  | 0, r => r
  | b + 1, r => rootDown k n b (if (r + 2 ^ b) ^ k ≤ n then r + 2 ^ b else r)

/-- The first 32 bits of the fraction of a prime's k-th root. -/
def shaFrac (k p : Nat) : Nat := rootDown k (p * 2 ^ (32 * k)) 37 0 % 2 ^ 32

/-- The round constants of SHA-256: from the cube roots of the 64 primes. -/
def shaK : List Nat := shaPrimes.map (shaFrac 3)

/-- The initial hash value of SHA-256: from the square roots of the first eight. -/
def shaInit : List Nat := (shaPrimes.take 8).map (shaFrac 2)

/-- A 32-bit word turned right by each of some numbers of places, the results added without carry to a start value. -/
def turned (by' : List Nat) (x start : Nat) : Nat :=
  by'.foldl (fun a k => a ^^^ (x / 2 ^ k + x * 2 ^ (32 - k) % 2 ^ 32)) start

/-- The message schedule, the latest word first, after m more words. -/
def shaSchedule : Nat → List Nat → List Nat
  | 0, w => w
  | m + 1, w =>
    let back (i : Nat) : Nat := w.getD (i - 1) 0
    let x := turned [17, 19] (back 2) (back 2 / 2 ^ 10) + back 7 + turned [7, 18] (back 15) (back 15 / 2 ^ 3) + back 16
    shaSchedule m (x % 2 ^ 32 :: w)

/-- The working variables of SHA-256: the first four and the last four. -/
structure ShaVars where
  lo : List Nat
  hi : List Nat
  deriving DecidableEq, Repr

/-- One round, over the sum of its schedule word and constant. -/
def shaRound (v : ShaVars) (kw : Nat) : ShaVars :=
  match v.lo, v.hi with
  | [a, b, c, d], [e, f, g, h] =>
    let t := kw + h + turned [6, 11, 25] e 0 + (g ^^^ (e &&& (f ^^^ g)))
    let u := turned [2, 13, 22] a 0 + ((a &&& b) ||| (c &&& (a ||| b)))
    ⟨[(t + u) % 2 ^ 32, a, b, c], [(d + t) % 2 ^ 32, e, f, g]⟩
  | _, _ => v

/-- One 64-byte block enters the hash, under the round constants. -/
def shaBlock (k h : List Nat) (b : List Nat) : List Nat :=
  let words := (List.range 16).map fun i => ((b.drop (4 * i)).take 4).foldl (fun a x => a * 256 + x) 0
  let sums := (shaSchedule 48 words.reverse).reverse.zipWith (· + ·) k
  let v := sums.foldl shaRound ⟨h.take 4, h.drop 4⟩
  h.zipWith (fun a c => (a + c) % 2 ^ 32) (v.lo ++ v.hi)

/-- The padded message of SHA-256. -/
def shaPad (l : List Nat) : List Nat :=
  let n := l.length
  l ++ 0x80 :: List.replicate ((119 - n % 64) % 64) 0 ++ be8 (8 * n)

/-- Hashes n blocks, under the round constants. -/
def shaBlocks (k : List Nat) : Nat → List Nat → List Nat → List Nat
  | 0, h, _ => h
  | n + 1, h, l => shaBlocks k n (shaBlock k h (l.take 64)) (l.drop 64)

/-- SHA-256 of a byte list, as a number, most significant byte first. -/
def sha256 (l : List Nat) : Nat :=
  let p := shaPad l
  (shaBlocks shaK (p.length / 64) shaInit p).foldl (fun a x => a * 2 ^ 32 + x) 0

/-- The n bytes of a number, the least significant first: how a slot holds a key's bytes in their order. -/
def numBytes (n v : Nat) : List Nat := (List.range n).map fun i => v / 2 ^ (8 * i) % 256

/-- A list of byte numbers as one number, the first the least significant. -/
def bytesNum (l : List Nat) : Nat := l.foldr (fun b a => b + 256 * a) 0

end Sys2Proof.Machine
end

