-- ==== Sys2Proof/Machine/FrameOps.lean ====
section
/-! DEFINITION. The MAC frame (R229 to R235), the peer contexts in context RAM (R268, R269) and the inline security of a
frame (R299 to R303). -/

namespace Sys2Proof.Machine

/-! ### The MAC frame -/

/-- An address field of a frame (R230). -/
inductive Addr where
  | none
  | short (a : Nat)
  | ext (e : Nat)
  deriving DecidableEq, Repr

/-- The bytes of an address mode; 01b is invalid. -/
def addrLen (mode : Nat) : Nat := match mode with | 2 => 2 | 3 => 8 | _ => 0

/-- An address read from its bytes. -/
def addrOf (mode : Nat) (l : List Byte) : Addr :=
  match mode with
  | 2 => .short (leNat l)
  | 3 => .ext (leNat l)
  | _ => .none

/-- The mode of an address. -/
def Addr.mode : Addr → Nat
  | .none => 0
  | .short _ => 2
  | .ext _ => 3

/-- The bytes of an address, least significant first (R229). -/
def Addr.bytes : Addr → List Byte
  | .none => []
  | .short a => leBytes 2 a
  | .ext e => leBytes 8 e

/-- The tag length of a security level (R230). -/
def micLen (slv : Nat) : Nat := match slv with | 0 => 0 | 1 => 4 | 2 => 8 | _ => 16

/-- A MAC frame taken apart (R229). -/
structure MacFrame where
  fc : Nat
  fcnt : Nat
  dst : Addr
  src : Addr
  loc : Option (Nat × Nat)
  /-- The bytes from FC through LOC, as sent. -/
  hdr : List Byte
  payload : List Byte
  mic : List Byte
  deriving DecidableEq, Repr

/-- FC.SLV. -/
def MacFrame.slv (f : MacFrame) : Nat := bitsOf f.fc 12 2
/-- FC.KIDX. -/
def MacFrame.kidx (f : MacFrame) : Nat := bitsOf f.fc 6 1
/-- FC.PEND. -/
def MacFrame.pend (f : MacFrame) : Bool := bitOf f.fc 4
/-- FC.AR. -/
def MacFrame.ar (f : MacFrame) : Bool := bitOf f.fc 3
/-- FC.TYPE. -/
def MacFrame.typ (f : MacFrame) : Nat := bitsOf f.fc 0 3

/-- The FC word is valid: VER 00b, address modes not 01b, TYPE below 100b, bit 7 zero (R230, R235). -/
def fcOk (fc : Nat) : Bool :=
  bitsOf fc 14 2 == 0 && bitsOf fc 10 2 != 1 && bitsOf fc 8 2 != 1 && bitsOf fc 0 3 < 4 && !bitOf fc 7

/-- The bytes from FC through LOC that an FC word asks for. -/
def hdrLen (fc : Nat) : Nat := 6 + addrLen (bitsOf fc 8 2) + addrLen (bitsOf fc 10 2) + (if bitOf fc 5 then 5 else 0)

/-- A frame taken apart, where its FC word is valid and it is as long as its fields require (R229 to R231). -/
def takeApart (f : List Byte) : Option MacFrame :=
  let fc := leNat (f.take 2)
  let m := micLen (bitsOf fc 12 2)
  let n := hdrLen fc
  let dl := addrLen (bitsOf fc 8 2)
  let sl := addrLen (bitsOf fc 10 2)
  let lb := (f.drop (6 + dl + sl)).take 5
  let depth := leNat (lb.drop 4)
  if f.length < 6 || !fcOk fc || f.length < n + m then none
  else if bitOf fc 5 && 8 ≤ depth then none
  else some
    { fc := fc, fcnt := leNat ((f.drop 2).take 4), dst := addrOf (bitsOf fc 8 2) ((f.drop 6).take dl),
      src := addrOf (bitsOf fc 10 2) ((f.drop (6 + dl)).take sl),
      loc := if bitOf fc 5 then some (leNat (lb.take 4), depth) else none,
      hdr := f.take n, payload := (f.drop n).take (f.length - n - m), mic := f.drop (f.length - m) }

/-- An ack is FC and FCNT only, with the fields R233 fixes. -/
def ackOk (f : MacFrame) : Bool :=
  f.dst == .none && f.src == .none && f.slv == 0 && f.loc == none && !f.ar && f.kidx == 0 && f.payload.isEmpty

/-- A beacon's body: 14 bytes, FLAGS[7:3] zero, ANN not 11b (R234). -/
def bodyOk (b : List Byte) : Bool :=
  let flags := leNat ((b.drop 6).take 1)
  b.length == 14 && flags < 8 && flags % 4 != 3

/-- The fields R234 fixes in a beacon; a secured body is checked once it is decrypted. -/
def beaconOk (f : MacFrame) : Bool :=
  f.dst == .none && f.src.mode == 2 && !f.ar && f.payload.length == 14 && (f.slv != 0 || bodyOk f.payload)

/-- A received frame in form (R235), but for the radio's CHK. -/
def parseFrame (b : List Byte) : Option MacFrame :=
  match takeApart b with
  | none => none
  | some f =>
    let ok : Bool := match f.typ with
      | 1 => ackOk f
      | 2 => beaconOk f
      | _ => f.dst != .none || f.loc.isSome
    if ok then some f else none

/-- An FC word (R230). -/
def mkFc (slv : Nat) (src dst : Addr) (kidx : Nat) (loc pend ar : Bool) (typ : Nat) : Nat :=
  slv % 4 * 2 ^ 12 + src.mode * 2 ^ 10 + dst.mode * 2 ^ 8 + kidx % 2 * 2 ^ 6 + b2n loc * 2 ^ 5 + b2n pend * 2 ^ 4 +
    b2n ar * 2 ^ 3 + typ % 8

/-- The bytes from FC through LOC (R229). -/
def mkHdr (fc fcnt : Nat) (dst src : Addr) (loc : Option (Nat × Nat)) : List Byte :=
  leBytes 2 fc ++ leBytes 4 fcnt ++ dst.bytes ++ src.bytes ++
    match loc with
    | some (c, d) => leBytes 4 c ++ leBytes 1 d
    | none => []

/-- An ack frame (R233, R243). -/
def ackFrame (fcnt : Nat) (pend : Bool) : List Byte := mkHdr (mkFc 0 .none .none 0 false pend false 1) fcnt .none .none none

/-! ### Peer contexts -/

/-- The address of byte `off` of context c, of which there are 512 (R268). -/
def ctxAddr (c off : Nat) : Nat := 0x480000 + 64 * (c % 512) + off

/-- n bytes of context c from `off`, as a number. -/
def State.ctxLe (s : State) (c off n : Nat) : Nat := s.leAt (ctxAddr c off) n

/-- n bytes of context c from `off` take a number. -/
def State.setCtx (s : State) (c off n v : Nat) : State := s.setLe (ctxAddr c off) n v

/-- Bit i of a context's FLAGS. -/
def State.ctxFlag (s : State) (c i : Nat) : Bool := bitOf (s.ctxLe c 10 1) i

/-- A context's FLAGS bit takes a value. -/
def State.setCtxFlag (s : State) (c i : Nat) (v : Bool) : State := s.setCtx c 10 1 (setBits (s.ctxLe c 10 1) i 1 (b2n v))

/-- A context's 16-bit count at `off` counts one and saturates at FFFFh (R268). -/
def State.incCtx (s : State) (c off : Nat) : State := s.setCtx c off 2 (min (s.ctxLe c off 2 + 1) 0xFFFF)

/-- How many contexts are used (R268). -/
def State.nctx (s : State) : Nat := if s.rd F.FWD_CFG_NCTX = 0 then 512 else 8 * s.rd F.FWD_CFG_NCTX

/-- A context is valid. -/
def State.ctxValid (s : State) (c : Nat) : Bool := s.ctxFlag c 0

/-- A context's short address or EUI-64 equals an address; FFFEh never matches (R231, R269). -/
def State.ctxIs (s : State) (c : Nat) (a : Addr) : Bool :=
  match a with
  | .none => false
  | .short x => x != 0xFFFE && s.ctxLe c 8 2 == x
  | .ext e => s.ctxLe c 0 8 == e

/-- The lowest-numbered used and valid context whose address equals a frame's (R269, R274). -/
def State.findCtx (s : State) (a : Addr) : Option Nat :=
  ((List.range s.nctx).filter fun c => s.ctxValid c && s.ctxIs c a).head?

/-- A short address is an enabled group address of this device; FFFEh never matches (R231). -/
def State.isGroup (s : State) (a : Nat) : Bool :=
  a != 0xFFFE && (List.range 8).any fun g => bitOf (s.rd F.MAC_FILT_GRPEN) g && s.rd (F.MAC_GRP_ADDR g) == a

/-- An address is FFFFh or a group address. -/
def State.isMulti (s : State) (a : Addr) : Bool :=
  match a with
  | .short x => x == 0xFFFF || s.isGroup x
  | _ => false

/-- The context that holds the key and the replay window of a received frame: the group context for a secured frame to a
group, the context of FFFFh for a secured beacon, else the source context (R300). -/
def State.keyCtx (s : State) (f : MacFrame) (src : Option Nat) : Option Nat :=
  if f.slv = 0 then src
  else if f.typ = 2 then s.findCtx (.short 0xFFFF)
  else if s.isMulti f.dst then s.findCtx f.dst
  else src

/-! ### Inline security -/

/-- A slot's attribute byte. -/
def State.slotAttr (s : State) (k : Nat) : Nat := s.rd (F.LAR_ATTR_ATTR k)

/-- A slot's ALG names a key length. -/
def algOk (attr : Nat) : Bool := attr % 4 == 1 || attr % 4 == 2

/-- The key bytes of an ALG. -/
def algBytes (attr : Nat) : Nat := if attr % 4 = 1 then 16 else 32

/-- The key of a slot, expanded. -/
def State.slotKey (s : State) (k : Nat) : AesKey := roundKeys (numBytes (algBytes (s.slotAttr k)) (s.ciph.keys.getD k 0))

/-- A slot is valid, names a key length and has the usage bits of a mask (R301). -/
def State.slotOk (s : State) (k use : Nat) : Bool :=
  s.on (F.LAR_ATTR_VALID k) && algOk (s.slotAttr k) && (s.slotAttr k &&& use) == use

/-- Usage bits: ENC and MAC, for sending. -/
def useSend : Nat := 0x14
/-- DEC and MAC, for receiving. -/
def useRecv : Nat := 0x18

/-- The cipher engine serves: enabled and not retired (R307, R320). -/
def State.ciphUp (s : State) : Bool := s.on F.CIPH_CTL_EN && !s.on F.CIPH_STAT_RET

/-- The slot that a context's KEY0 or KEY1 names, where that reference is valid (R268). -/
def State.ctxSlot (s : State) (c kidx : Nat) : Option Nat :=
  if s.ctxFlag c (3 + kidx) then some (s.ctxLe c (12 + kidx) 1 % 128) else none

/-- The usable slot of a context for a use (R301). -/
def State.usableSlot (s : State) (c kidx use : Nat) : Option Nat :=
  match s.ctxSlot c kidx with
  | some k => if s.ciphUp && s.slotOk k use then some k else none
  | none => none

/-- The 13-byte CCM nonce: EUI-64 and FCNT most significant byte first, SLV (R299). -/
def inlineNonce (eui fcnt slv : Nat) : List Nat :=
  natBytes (beBytes 8 eui) ++ natBytes (beBytes 4 fcnt) ++ [slv % 4]

/-- A frame secured under a slot: its header, the encrypted payload and the tag (R299, R303). -/
def State.sealFrame (s : State) (slot slv fcnt : Nat) (hdr payload : List Byte) : List Byte :=
  let k := s.slotKey slot
  let n := inlineNonce (s.rd F.MAC_EXT_EUI) fcnt slv
  hdr ++ toBytes (ccmCrypt k n (natBytes payload)) ++ toBytes (ccmTag k n (natBytes hdr) (natBytes payload) (micLen slv))

/-- The plaintext of a secured frame under a slot and a source EUI-64, where its tag is right (R299, R302). -/
def State.openFrame (s : State) (slot eui : Nat) (f : MacFrame) : Option (List Byte) :=
  let k := s.slotKey slot
  let n := inlineNonce eui f.fcnt f.slv
  let p := ccmCrypt k n (natBytes f.payload)
  if ccmTag k n (natBytes f.hdr) p (micLen f.slv) = natBytes f.mic then some (toBytes p) else none

/-- The first bytes of a frame show a security level. -/
def secured (l : List Byte) : Bool := 2 ≤ l.length && bitsOf (leNat (l.take 2)) 12 2 != 0

/-- How step 4 of R236 ends: the plaintext, or no usable slot, no nonce address, or a wrong tag. -/
inductive MicRes where
  | ok (plain : List Byte)
  | noKey
  | noEui
  | badTag
  deriving DecidableEq, Repr

/-- The MIC check of a frame from a source context under its key context (R299 to R302). -/
def State.micCheck (s : State) (f : MacFrame) (src key : Option Nat) : MicRes :=
  if f.slv = 0 then .ok f.payload
  else
    match key.bind (fun c => s.usableSlot c f.kidx useRecv) with
    | none => .noKey
    | some slot =>
      let eui := match src with | some c => s.ctxLe c 0 8 | none => 0
      if eui = 0 then .noEui
      else match s.openFrame slot eui f with
        | some p => .ok p
        | none => .badTag

end Sys2Proof.Machine
end

