-- ==== Sys2Proof/Machine/FwdOps.lean ====
section
/-! DEFINITION. The forwarding engine (spec/10_forwarding.md): the frame buffer (R267), its tables (R291), the forwarding
decision (R274, R275), admission (R276 to R280), gates, lids and shapers (R281 to R284), the local port (R292, R293),
refill and commit (R288 to R290), and context commands (R270). Ports: 0 RADIO, 1 CPA, 2 CPB, 3 HOST, 4 LOCAL. -/

namespace Sys2Proof.Machine

/-- Changes the forwarding engine's hidden state. -/
def State.modFwd (s : State) (f : FwdState → FwdState) : State := { s with fwd := f s.fwd }

/-! ### Tables (R291) -/

/-- The reset value of an entry of a table: class control has QLIM 40h and YLIM 20h. -/
def tabRst (t : Nat) : Nat := if t = 7 then 0x4020 else 0

/-- Entry i of table t: the staging copy of tables 6 and 7. -/
def State.tab (s : State) (t i : Nat) : Nat := (lookup s.fwd.tabs (256 * t + i)).getD (tabRst t)

/-- The active copy of entry i of table 6 or 7. -/
def State.tabAct (s : State) (t i : Nat) : Nat := (lookup s.fwd.tabs (0x1000 + 256 * t + i)).getD (tabRst t)

/-- The number of entries of a table; 0 where TBL names none. -/
def tabSize (t : Nat) : Nat := if t = 0 then 256 else if t ≤ 5 then 128 else if t ≤ 8 then 40 else 0

/-- The bits of an entry that are not reserved. -/
def tabMask (t : Nat) : Nat :=
  if t = 0 then 0xFFF001FFFFFFFFFF
  else if t ≤ 5 then 0xFF000000FFFFFFFF
  else if t = 6 then 0xFFFFFFFFFFFFFFFF
  else 0xE000FFFFFFFFFFFF

/-- The frames waiting in class q of port p. -/
def State.qdepth (s : State) (p q : Nat) : Nat := (s.fwd.queue.filter fun e => e.port == p && e.cls == q).length

/-- Class state, table 8. -/
def State.classState (s : State) (i : Nat) : Nat :=
  s.qdepth (i / 8) (i % 8) % 256 * 2 ^ 56 + ofInt (s.fwd.credit.getD i 0) 24 * 2 ^ 32 +
    s.fwd.ctok.getD i 0 % 65536 * 2 ^ 16 + s.fwd.ptok.getD i 0 % 65536

/-- What a read of TDATA latches: the addressed entry; an address that names none gives a free value. -/
def fwdTdataRead (s : State) : Nat × State :=
  let t := s.rd F.FWD_TADDR_TBL
  let i := s.rd F.FWD_TADDR_INDEX
  if tabSize t ≤ i then (s.free.1 % 2 ^ 64, s.free.2)
  else if t = 8 then (s.classState i, s)
  else if (t = 6 ∨ t = 7) ∧ s.on F.FWD_TADDR_ACT then (s.tabAct t i, s)
  else (s.tab t i, s)

/-- The gate bank an index of a port's table lies in is running or named by the committed GCTL (R290). -/
def State.gateBusy (s : State) (p i : Nat) : Bool :=
  let g := s.fwd.gates.getD p {}
  (g.en && g.bank == i / 64) || s.rd (F.FWD_GCTL_BANK p) == i / 64

/-- The reason a table write is refused, 0 for none (R291). -/
def State.tabRefuse (s : State) (t i : Nat) : Nat :=
  if tabSize t ≤ i then 1
  else if t = 8 ∨ s.on F.FWD_TADDR_ACT then 2
  else if 1 ≤ t ∧ t ≤ 5 ∧ s.gateBusy (t - 1) i then 3
  else 0

/-- A write of TDATA's highest unit: the entry whole, then INDEX counts; or a refusal (R291). -/
def fwdTdataWrite (v : Nat) (s : State) : State :=
  let t := s.rd F.FWD_TADDR_TBL
  let i := s.rd F.FWD_TADDR_INDEX
  let r := s.tabRefuse t i
  if r = 0 then
    (s.modFwd fun x => { x with tabs := insert x.tabs (256 * t + i) (v % 2 ^ 64 &&& tabMask t) }).wr
      F.FWD_TADDR_INDEX (i + 1)
  else (s.set1 F.FWD_TERR_TERR).wr F.FWD_TERR_REASON r

/-! ### Frame buffer (R267) -/

/-- The frame of a number. -/
def State.frame (s : State) (n : Nat) : Option FwdFrame := s.fwd.frames.find? fun f => f.num == n

/-- Changes the frame of a number. -/
def State.modFrame (s : State) (n : Nat) (g : FwdFrame → FwdFrame) : State :=
  s.modFwd fun x => { x with frames := x.frames.map fun f => if f.num = n then g f else f }

/-- The free cells. -/
def State.freeCells (s : State) : List Nat :=
  let used := s.fwd.frames.flatMap (·.cells)
  (List.range 512).filter fun c => !used.contains c

/-- The free frame numbers. -/
def State.freeNums (s : State) : List Nat :=
  let used := s.fwd.frames.map (·.num)
  (List.range 256).filter fun n => !used.contains n

/-- k cells taken from a list of free ones; which of them is open (notes/assumptions/5.md). -/
def takeCells : Nat → List Nat → State → List Nat × State
  | 0, _, s => ([], s)
  | k + 1, l, s =>
    let c := l.getD (s.free.1 % l.length) 0
    let r := takeCells k (l.filter (· != c)) s.free.2
    (c :: r.1, r.2)

/-- Event 159 when the free cells have fallen below FWD_LOWCELL. -/
def lowCell (before : Nat) (s : State) : State :=
  let thr := s.rd F.FWD_LOWCELL_THR
  if thr ≤ before ∧ s.freeCells.length < thr then fire 159 s else s

/-- The cells that a stored length takes (R267). -/
def cellCount (len : Nat) : Nat := max 1 (ceilDiv len 256)

/-- A frame number and the cells for a length are granted, where there are any (R267). -/
def fwdGrant (len port : Nat) (s : State) : Option (FwdFrame × State) :=
  let k := cellCount len
  let fc := s.freeCells
  let fn := s.freeNums
  if fc.length < k || fn.isEmpty then none
  else
    let n := fn.getD (s.free.1 % fn.length) 0
    let r := takeCells k fc s.free.2
    let f : FwdFrame := { num := n, cells := r.1, len := len, port := port, born := s.now }
    some (f, lowCell fc.length (r.2.modFwd fun x => { x with frames := x.frames ++ [f] }))

/-- The stored bytes of a frame. -/
def State.frameBytes (s : State) (f : FwdFrame) : List Byte :=
  (List.range f.len).map fun i => s.byte (cellAddr f.cells i)

/-- A drop counter counts and event 154 fires. -/
def fwdDrop (c : Fld) (s : State) : State := fire 154 (s.inc c)

/-- A frame is discarded. -/
def fwdForget (n : Nat) (s : State) : State :=
  s.modFwd fun x => { x with frames := x.frames.filter fun f => f.num ≠ n }

/-- One use of a frame ends; with its last use its cells and number are free (R267). -/
def fwdUseEnd (n : Nat) (s : State) : State :=
  match s.frame n with
  | none => s
  | some f => if f.uses ≤ 1 then fwdForget n s else s.modFrame n fun f => { f with uses := f.uses - 1 }

/-- QCNT of a context counts a frame more (R268). -/
def qcntUp (c : Option Nat) (s : State) : State := match c with | some c => s.incCtx c 58 | none => s
/-- QCNT of a context counts a frame less. -/
def qcntDown (c : Option Nat) (s : State) : State :=
  match c with | some c => s.setCtx c 58 2 (s.ctxLe c 58 2 - 1) | none => s

/-- A port holds frames: waiting or in transmission. -/
def State.portBusy (s : State) (p : Nat) : Bool :=
  s.fwd.queue.any (fun e => e.port == p) || s.fwd.txs.any (fun e => e.port == p)

/-- A port whose last frame has gone: DRAINF and event 167 (R284). -/
def drainCheck (p : Nat) (s : State) : State :=
  if s.portBusy p then s else fire 167 (s.set1 (F.FWD_GSTAT_DRAINF p))

/-- A place in a queue, the hold list or transmission ends; its frame's use ends with it. -/
def entEnd (e : QEnt) (s : State) : State :=
  let was := s.portBusy e.port
  let s1 := s.modFwd fun x => { x with
    queue := x.queue.filter fun d => !(d.num == e.num && d.ctx == e.ctx && d.port == e.port)
    held := x.held.filter fun d => !(d.num == e.num && d.ctx == e.ctx)
    txs := x.txs.filter fun d => !(d.num == e.num && d.ctx == e.ctx && d.port == e.port)
    released := x.released.filter fun d => d.1 ≠ e.num }
  let s2 := fwdUseEnd e.num (qcntDown e.ctx s1)
  if was then drainCheck e.port s2 else s2

/-! ### The header of an egress frame (R266, R277) -/

/-- The destination of a frame built for context c. -/
def State.ctxDst (s : State) (c : Nat) : Addr :=
  if s.ctxLe c 8 2 ≠ 0xFFFE then .short (s.ctxLe c 8 2) else .ext (s.ctxLe c 0 8)

/-- The device's own source address. -/
def State.ownSrc (s : State) : Addr :=
  if s.rd F.MAC_SHORT_ADDR ≠ 0xFFFE then .short (s.rd F.MAC_SHORT_ADDR) else .ext (s.rd F.MAC_EXT_EUI)

/-- LINK.SLV of a context. -/
def State.ctxSlv (s : State) (c : Nat) : Nat := bitsOf (s.ctxLe c 14 1) 3 2

/-- BIND.PORT of a context. -/
def State.ctxPort (s : State) (c : Nat) : Nat := bitsOf (s.ctxLe c 11 1) 0 3
/-- BIND.CLASS of a context. -/
def State.ctxClass (s : State) (c : Nat) : Nat := bitsOf (s.ctxLe c 11 1) 3 3

/-- L: the length of the MAC frame as built for context c, MIC included (R266). -/
def State.egressLen (s : State) (f : FwdFrame) (c : Nat) : Nat :=
  6 + (s.ctxDst c).bytes.length + s.ownSrc.bytes.length + (if f.loc.isSome then 5 else 0) + (f.len - f.hlen) +
    micLen (s.ctxSlv c)

/-- L fits the egress port (R276). -/
def fitsPort (p slv len : Nat) : Bool :=
  match p with
  | 0 => if slv = 0 then len ≤ 251 else len ≤ 255
  | 1 => len ≤ 1532
  | 2 => len ≤ 1532
  | 3 => len ≤ 1536
  | _ => true

/-- AR of a frame built for context c: LINK.AR on RADIO, never to a group (R277). -/
def State.egressAr (s : State) (c : Nat) : Bool :=
  s.ctxPort c == 0 && bitOf (s.ctxLe c 14 1) 5 && !s.isMulti (s.ctxDst c)

/-- The transmit counter of a context counts a frame; event 163 when it reaches FWD_CTRWARN (R246, R272). -/
def txcntUp (c : Nat) (s : State) : State :=
  let n := s.ctxLe c 16 4 + 1
  let s1 := s.setCtx c 16 4 n
  if n = s.rd F.FWD_CTRWARN_LEVEL then fire 163 s1 else s1

/-- Builds the frame of a queue place for its egress context, or tells which counters its drop adds to (R272, R273, R277,
R301). -/
def fwdBuild (e : QEnt) (c : Nat) (s : State) : Option Built × State :=
  match s.frame e.num with
  | none => (none, s)
  | some f =>
    let slv := s.ctxSlv c
    let txk := b2n (s.ctxFlag c 5)
    let fcnt := s.ctxLe c 16 4
    if !s.ctxValid c then (none, fwdDrop F.FWD_NOCTX s)
    else if fcnt = 0xFFFFFFFF then (none, fwdDrop F.FWD_CTREXH s)
    else
      let ar := s.egressAr c
      let fc := mkFc slv s.ownSrc (s.ctxDst c) txk f.loc.isSome (1 < s.ctxLe c 58 2) ar f.typ
      let hdr := mkHdr fc fcnt (s.ctxDst c) s.ownSrc f.loc
      let payload := (s.frameBytes f).drop f.hlen
      if slv = 0 then (some { bytes := hdr ++ payload, fcnt := fcnt, slv := 0, ar := ar }, txcntUp c s)
      else
        match s.usableSlot c txk useSend with
        | none => (none, fwdDrop F.FWD_TXREFDROP (s.inc F.CIPH_KEYERR))
        | some k => (some { bytes := s.sealFrame k slv fcnt hdr payload, fcnt := fcnt, slv := slv, ar := ar }, txcntUp c s)

/-! ### Marking and queueing (R276, R279) -/

/-- Colours: green 0, yellow 1, red 2. -/
def markColour (pre len i : Nat) (s : State) : Nat × State :=
  let ctl := s.tabAct 7 i
  let c := s.fwd.ctok.getD i 0
  let p := s.fwd.ptok.getD i 0
  let aware := bitOf ctl 62
  if !bitOf ctl 63 then (0, s)
  else if (aware && 2 ≤ pre) || p < len then (2, fire 156 s)
  else
    let s1 := s.modFwd fun x => { x with ptok := setAt 0 x.ptok i (p - len) }
    if (aware && pre == 1) || c < len then (1, s1)
    else (0, s1.modFwd fun x => { x with ctok := setAt 0 x.ctok i (c - len) })

/-- A frame passes the egress checks and is queued, or held for a scheduled peer (R276, R285). -/
def fwdOut (n c q pre : Nat) (s : State) : State :=
  match s.frame n with
  | none => s
  | some f =>
    let p := s.ctxPort c
    let len := s.egressLen f c
    let i := 8 * p + q
    if 4 < p then fire 160 (fwdDrop F.FWD_NOROUTE s)
    else if (p = 1 ∨ p = 2) ∧ s.cpSt (p - 1) ≠ cpData then fire 165 (fwdDrop F.FWD_LINKDOWN s)
    else if !fitsPort p (s.ctxSlv c) len then fwdDrop F.FWD_TOOLONG s
    else
      let m := markColour pre len i s
      let s1 := m.2
      if m.1 = 2 then fwdDrop F.FWD_REDDROP s1
      else if m.1 = 1 ∧ s1.tabAct 7 i % 256 ≤ s1.qdepth p q then fwdDrop F.FWD_YDROP s1
      else if s1.tabAct 7 i / 256 % 256 ≤ s1.qdepth p q then fwdDrop F.FWD_QDROP s1
      else
        let e : QEnt := { num := n, port := p, cls := q, ctx := some c, len := len }
        let s2 := qcntUp (some c) (s1.modFrame n fun f => { f with uses := f.uses + 1 })
        let s3 := if p = 0 ∧ s2.ctxFlag c 2 then s2.modFwd fun x => { x with held := x.held ++ [e] }
          else s2.modFwd fun x => { x with queue := x.queue ++ [e] }
        if p = 3 then fire 153 s3 else if p = 4 then fire 152 s3 else s3

/-- local(f): the frame enters the LOCAL receive queue (R274). -/
def fwdLocal (n q : Nat) (copy : Bool) (s : State) : State :=
  match s.frame n with
  | none => s
  | some f =>
    let e : QEnt := { num := n, port := 4, cls := q, ctx := none, len := f.len, copy := copy }
    fire 152 ((s.modFrame n fun f => { f with uses := f.uses + 1 }).modFwd fun x => { x with queue := x.queue ++ [e] })

/-! ### The forwarding decision (R274, R275) -/

/-- The bits a prefix of a depth covers (R32, R33). -/
def depthBits (d : Nat) : Nat := [0, 3, 8, 12, 17, 22, 29, 32].getD d 32

/-- Two location codes agree in the bits a depth covers. -/
def codesAgree (d a b : Nat) : Bool := a / 2 ^ (32 - depthBits d) == b / 2 ^ (32 - depthBits d)

/-- Route i matches a key (R275). -/
def State.routeMatches (s : State) (i code d : Nat) : Bool :=
  let r := s.tab 0 i
  bitOf r 63 && bitsOf r 60 3 ≤ d && codesAgree (bitsOf r 60 3) code (r % 2 ^ 32)

/-- The longest matching route: the greatest DEPTH, then the lowest index (R275). -/
def State.route (s : State) (code d : Nat) : Option Nat :=
  (List.range 256).foldl (fun best i =>
    if s.routeMatches i code d then
      match best with
      | none => some i
      | some b => if bitsOf (s.tab 0 b) 60 3 < bitsOf (s.tab 0 i) 60 3 then some i else best
    else best) none

/-- A frame is decided by its route (R274). -/
def fwdRoute (n code d : Nat) (pre : Option Nat) (s : State) : State :=
  match s.route code d with
  | none => fire 160 (fwdDrop F.FWD_NOROUTE s)
  | some i =>
    let r := s.tab 0 i
    let copy := bitOf r 57
    let q := bitsOf r 54 3
    let s1 := if copy then fwdLocal n q true s else s
    match bitsOf r 58 2 with
    | 0 => fwdOut n (bitsOf r 32 9) q (pre.getD (bitsOf r 52 2)) s1
    | 1 => if copy then s1 else fwdLocal n q false s1
    | _ => fwdDrop F.FWD_ROUTEDROP s1

/-- A frame that no queue took is freed. -/
def fwdSettle (n : Nat) (s : State) : State :=
  match s.frame n with
  | some f => if f.uses = 0 then fwdForget n s else s
  | none => s

/-- A destination is the device's own (R274). -/
def State.ownDst (s : State) (a : Addr) : Bool :=
  match a with
  | .short x => (x != 0xFFFE && x == s.rd F.MAC_SHORT_ADDR) || x == 0xFFFF || s.isGroup x
  | .ext e => e == s.rd F.MAC_EXT_EUI
  | .none => false

/-- The class of a frame decided without a route: its source context's, or 0. -/
def State.localClass (s : State) (src : Option Nat) : Nat := match src with | some c => s.ctxClass c | none => 0

/-- The policer of a source context: the frame conforms and takes its tokens, or is dropped (R278). -/
def fwdPolice (n c : Nat) (s : State) : Bool × State :=
  match s.frame n with
  | none => (true, s)
  | some f =>
    let tok := s.ctxLe c 44 2
    if !s.ctxFlag c 6 then (true, s)
    else if f.len ≤ tok then (true, s.setCtx c 44 2 (tok - f.len))
    else (false, fire 155 (fwdDrop F.FWD_POLICE (s.incCtx c 46)))

/-- The decision for a frame from outside, after its policer (R274). -/
def fwdDecideIn (n : Nat) (dst : Addr) (promisc : Bool) (s : State) : State :=
  match s.frame n with
  | none => s
  | some f =>
    let q := s.localClass f.src
    let node := s.rd F.SYS_ROLE_ROLE == 0
    if promisc then fwdLocal n q false s
    else
      match f.loc with
      | none =>
        if s.ownDst dst then fwdLocal n q false s
        else if node then fire 166 (fwdDrop F.FWD_NOTRANSIT s)
        else
          match s.findCtx dst with
          | none => fire 160 (fwdDrop F.FWD_NOROUTE s)
          | some c => fwdOut n c (s.ctxClass c) 0 s
      | some (code, d) =>
        if d = 7 ∧ code = s.rd F.MAC_LOC_CODE then fwdLocal n q false s
        else if node then fire 166 (fwdDrop F.FWD_NOTRANSIT s)
        else fwdRoute n code d none s

/-- The decision for a frame from outside: the treatment of one without a context, the policer, the procedure (R273, R274).
-/
def fwdDecide (n : Nat) (dst : Addr) (promisc : Bool) (s : State) : State :=
  match s.frame n with
  | none => s
  | some f =>
    match f.src with
    | none =>
      let s1 := fire 161 s
      match s1.rd F.FWD_CFG_NOCTX with
      | 1 => fwdLocal n 0 false s1
      | 2 => fwdSettle n (fwdDecideIn n dst promisc s1)
      | _ => fwdSettle n (fwdDrop F.FWD_NOCTX s1)
    | some c =>
      let r := fwdPolice n c s
      fwdSettle n (if r.1 then fwdDecideIn n dst promisc r.2 else r.2)

/-- A frame of a number holds as many cells as a length takes, where they are to be had (R267). -/
def cellsGrow (n len : Nat) (s : State) : Option State :=
  (s.frame n).bind fun f =>
    let fc := s.freeCells
    let k := cellCount len - f.cells.length
    if fc.length < k then none
    else
      let r := takeCells k fc s
      some (lowCell fc.length (r.2.modFrame n fun f => { f with cells := f.cells ++ r.1, len := len }))

/-- What has come of a secured frame on a port enters cells, deciphered, as far as there are any (R302). -/
def fwdCome (port : Nat) (bytes : List Byte) (s : State) : State :=
  let s1 := (match s.frameComing port with
    | some f => cellsGrow f.num bytes.length s
    | none => (fwdGrant bytes.length port s).map fun (r : FwdFrame × State) =>
        r.2.modFrame r.1.num fun f => { f with coming := true }).getD s
  match s1.frameComing port with
  | some f => writeCells f.cells 0 (bytes.take f.len) s1
  | none => s1

/-- The number and the cells of a frame whose length is known: those it came into, or new ones (R267, R302). -/
def fwdTake (len port : Nat) (s : State) : Option (FwdFrame × State) :=
  match s.frameComing port with
  | none => fwdGrant len port s
  | some f => (cellsGrow f.num len s).bind fun s1 =>
      let s2 := s1.modFrame f.num fun f => { f with coming := false, born := s.now }
      (s2.frame f.num).map fun g => (g, s2)

/-- A frame is accepted into the frame buffer, or dropped at its port (R236 step 6, R267). -/
def fwdAccept (port : Nat) (stored : List Byte) (s : State) : Option Nat × State :=
  if !s.on F.FWD_CTL_EN then (none, fwdDrop (F.FB_DROP port) s)
  else
    match fwdTake stored.length port s with
    | none => (none, fwdDrop (F.FB_DROP port) s)
    | some (f, s1) => (some f.num, writeCells f.cells 0 stored s1)

/-- What a frame that is not kept leaves in the cells it was received into: bytes in cells that are free again (R302). -/
def fwdResidue (port : Nat) (bytes : List Byte) (s : State) : State :=
  if !s.on F.FWD_CTL_EN then s
  else
    match fwdTake bytes.length port s with
    | none => s
    | some (f, s1) => fwdForget f.num (writeCells f.cells 0 bytes s1)

/-! ### Context commands (R270) -/

/-- A command names a context beyond the used ones. -/
def ctxErr (s : State) : State := s.set1 F.FWD_CTXCMD_ERR

/-- READ. -/
def fwdCtxRead (c : Nat) (s : State) : State :=
  if s.nctx ≤ c then ctxErr s
  else (List.range 64).foldl (fun s i => s.wr (F.FWD_CTXBUF_BYTE i) (s.ctxLe c i 1)) s

/-- The context as a WRITE would leave it: byte i. -/
def State.ctxWritten (s : State) (c i : Nat) : Nat :=
  if bitOf (s.rd F.FWD_CTXMASK_MASK) (i / 4) && i != 58 && i != 59 then s.rd (F.FWD_CTXBUF_BYTE i) else s.ctxLe c i 1

/-- A WRITE would leave two valid contexts with one address (R270). -/
def State.ctxClash (s : State) (c : Nat) : Bool :=
  let num (lo n : Nat) : Nat := bytesNum ((List.range n).map fun i => s.ctxWritten c (lo + i))
  let ext := num 0 8
  let sh := num 8 2
  bitOf (s.ctxWritten c 10) 0 && (List.range s.nctx).any fun d =>
    d != c && s.ctxValid d && ((ext != 0 && s.ctxLe d 0 8 == ext) || (sh < 0xFFFE && s.ctxLe d 8 2 == sh))

/-- WRITE. -/
def fwdCtxWrite (c : Nat) (s : State) : State :=
  if s.nctx ≤ c || s.ctxClash c then ctxErr s
  else s.setBytes (ctxAddr c 0) ((List.range 64).map fun i => BitVec.ofNat 8 (s.ctxWritten c i))

/-- CLEAR. -/
def fwdCtxClear (c : Nat) (s : State) : State :=
  if s.nctx ≤ c then ctxErr s else s.setBytes (ctxAddr c 0) (List.replicate 64 0)

/-- FWD_CTXCMD.OP (R270). -/
def fwdCtxCmd (op : Nat) (s : State) : State :=
  let c := s.rd F.FWD_CTXCMD_CTX
  match op with
  | 1 => fwdCtxRead c s
  | 2 => fwdCtxWrite c s
  | 3 => fwdCtxClear c s
  | _ => s

/-! ### Gates (R282, R283, R290) -/

/-- The gate list port p runs. -/
def State.gate (s : State) (p : Nat) : GateRun := s.fwd.gates.getD p {}

/-- Changes the gate list port p runs. -/
def State.modGate (s : State) (p : Nat) (f : GateRun → GateRun) : State :=
  s.modFwd fun x => { x with gates := modAt {} x.gates p f }

/-- Entry e of the running bank. -/
def State.gateEntry (s : State) (p e : Nat) : Nat := s.tab (1 + p) (64 * (s.gate p).bank + e)

/-- DUR of an entry of the running bank. -/
def State.gateDur (s : State) (p e : Nat) : Nat := s.gateEntry p e % 2 ^ 32

/-- An entry of the running bank opens class q. -/
def State.gateHas (s : State) (p e q : Nat) : Bool := bitOf (s.gateEntry p e) (56 + q)

/-- The cycle length Λ. -/
def State.gateCycle (s : State) (p : Nat) : Nat :=
  (List.range (s.gate p).nent).foldl (fun a e => a + s.gateDur p e) 0

/-- Class q of port p is open (R282, R290). -/
def State.gateOpen (s : State) (p q : Nat) : Bool :=
  !(s.gate p).en || (!s.on (F.FWD_GSTAT_GAP p) && s.gateHas p (s.rd (F.FWD_GSTAT_ENTRY p)) q)

/-- Where the run of open entries after e ends, when entry e ends at t; none if it never does (R283). -/
def gateClose (s : State) (p q : Nat) : Nat → Nat → Nat → Option Nat
  | 0, _, _ => none
  | k + 1, e, t =>
    let e' := (e + 1) % (s.gate p).nent
    if s.gateHas p e' q then gateClose s p q k e' (t + s.gateDur p e') else some t

/-- A frame with a lid in picoseconds can end before its class closes, fractions taken as nominal ones (R283). -/
def State.lidFits (s : State) (p q lid : Nat) : Bool :=
  if !(s.gate p).en then true
  else
    match gateClose s p q (s.gate p).nent (s.rd (F.FWD_GSTAT_ENTRY p)) (s.gate p).endAt with
    | none => true
    | some t => !later48 s.now t && decide (lid * s.hz * 65536 ≤ (t + 2 ^ 48 - s.now % 2 ^ 48) % 2 ^ 48 * 10 ^ 12)

/-- Microseconds as fractions of a nominal cycle, rounded up. -/
def State.usFracs (s : State) (us : Nat) : Nat := ceilDiv (us * s.hz * 65536) 1000000

/-- Fractions of a nominal cycle as microseconds, rounded up. -/
def State.fracsUs (s : State) (f : Nat) : Nat := ceilDiv (f * 1000000) (s.hz * 65536)

/-- Network time runs on over a number of cycle boundaries. -/
def tbBoundaries : Nat → State → State
  | 0, s => s
  | k + 1, s => tbBoundaries k (tbBoundary s)

/-- Network time runs on within its cycle to an instant ahead. -/
def tbTail (t : Nat) (s : State) : State :=
  if later48 t s.now then tbRunTo ((s.now + (t % 2 ^ 48 + 2 ^ 48 - s.now) % 2 ^ 48) * 2 ^ 24) s else s

/-- Network time moves on to an instant that lies ahead, over every boundary before it, or to the first tick at which it reaches or
passes that instant (R47). -/
def timeTo (t : Nat) (s : State) : State :=
  if later48 t s.now then tbTail t (tbBoundaries ((t / 2 ^ 16 + 2 ^ 32 - s.now / 2 ^ 16) % 2 ^ 32) s) else s

/-- A port takes the committed gate list: GAP until its first cycle start, or no gates at all (R290). -/
def gateSwitch (p : Nat) (s : State) : State :=
  let g : GateRun := { en := s.on (F.FWD_GCTL_EN p), bank := s.rd (F.FWD_GCTL_BANK p), nent := s.rd (F.FWD_GCTL_NENT p),
                       base := s.rd (F.FWD_GBASE_MCN p) * 65536 + s.rd (F.FWD_GBASE_FRAC p), done := (s.gate p).done }
  (((s.modGate p fun _ => g).wrB (F.FWD_GSTAT_GAP p) g.en).wr (F.FWD_GSTAT_RUNBANK p) g.bank).clr (F.FWD_GSTAT_ENTRY p)

/-- The committed gate list differs from the running one. -/
def State.gateChanged (s : State) (p : Nat) : Bool :=
  let g := s.gate p
  !(g.en == s.on (F.FWD_GCTL_EN p) && g.bank == s.rd (F.FWD_GCTL_BANK p) && g.nent == s.rd (F.FWD_GCTL_NENT p) &&
    g.base == s.rd (F.FWD_GBASE_MCN p) * 65536 + s.rd (F.FWD_GBASE_FRAC p))

/-- The entry that an offset into the cycle falls in, and where that entry ends. -/
def gateFind (s : State) (p : Nat) : Nat → Nat → Nat → Nat × Nat
  | 0, e, off => (e, off)
  | k + 1, e, off => if off < s.gateDur p e then (e, s.gateDur p e - off) else gateFind s p k (e + 1) (off - s.gateDur p e)

/-- The list moves to the entry that network time falls in; before GBASE every class is closed (R282). -/
def gatePlace (p : Nat) (s : State) : State :=
  let g := s.gate p
  if !g.en then s
  else if later48 g.base s.now then (s.set1 (F.FWD_GSTAT_GAP p)).clr (F.FWD_GSTAT_ENTRY p)
  else
    let off := (s.now + 2 ^ 48 - g.base) % 2 ^ 48 % max 1 (s.gateCycle p)
    let r := gateFind s p g.nent 0 off
    ((s.modGate p fun g => { g with endAt := (s.now + r.2) % 2 ^ 48 }).clr (F.FWD_GSTAT_GAP p)).wr (F.FWD_GSTAT_ENTRY p) r.1

/-- An entry's duration ends: the next entry, or the cycle's end with event 157, which a cycle end that time passes twice fires once
(R42, R282, R290). -/
def gateEntryEnd (p : Nat) (s : State) : State :=
  let g := s.gate p
  if !g.en || s.on (F.FWD_GSTAT_GAP p) then s
  else
    let s1 := timeTo g.endAt s
    let e := s1.rd (F.FWD_GSTAT_ENTRY p) + 1
    if e < g.nent then
      (s1.modGate p fun g => { g with endAt := (g.endAt + s1.gateDur p e) % 2 ^ 48 }).wr (F.FWD_GSTAT_ENTRY p) e
    else
      let s2 := if passed48 g.done g.endAt then s1
        else (fire 157 (s1.set1 (F.FWD_GSTAT_CYCF p))).modGate p fun x => { x with done := some g.endAt }
      if s2.gateChanged p then gateSwitch p s2
      else (s2.modGate p fun g => { g with endAt := (g.endAt + s2.gateDur p 0) % 2 ^ 48 }).clr (F.FWD_GSTAT_ENTRY p)

/-- The first cycle start of a list that waits in its gap: GBASE, or the first cycle start of its pattern after it (R290). -/
def gateStart (p : Nat) (s : State) : State :=
  let g := s.gate p
  if !g.en || !s.on (F.FWD_GSTAT_GAP p) then s
  else
    let past := (s.now + 2 ^ 48 - g.base) % 2 ^ 48
    let lam := max 1 (s.gateCycle p)
    let start := if later48 g.base s.now then g.base else (g.base + ceilDiv past lam * lam) % 2 ^ 48
    let s1 := timeTo start s
    ((s1.modGate p fun g => { g with endAt := (start + s1.gateDur p 0) % 2 ^ 48 }).clr (F.FWD_GSTAT_GAP p)).clr
      (F.FWD_GSTAT_ENTRY p)

/-! ### Commit and refill (R288, R289) -/

/-- The consistency rules of a forwarding commit (R289). -/
def fwdCheck (s : State) : Nat :=
  let nctx := s.rd F.FWD_CFG_NCTX.stg
  let badGate (p : Nat) : Bool :=
    let n := s.rd (F.FWD_GCTL_NENT p).stg
    s.on (F.FWD_GCTL_EN p).stg && (n == 0 || 64 < n ||
      (List.range n).any fun e => s.tab (1 + p) (64 * s.rd (F.FWD_GCTL_BANK p).stg + e) % 2 ^ 32 == 0)
  let badMark (i : Nat) : Bool :=
    let m := s.tab 6 i
    bitOf (s.tab 7 i) 63 && (bitsOf m 48 16 < bitsOf m 16 16 || bitsOf m 32 16 < bitsOf m 0 16)
  let badLim (i : Nat) : Bool := let q := s.tab 7 i / 256 % 256; q == 0 || q < s.tab 7 i % 256
  if s.rd F.FWD_CFG_REFILL.stg = 0 then 1
  else if (List.range 5).any badGate then 2
  else if (List.range 40).any badMark then 3
  else if (List.range 40).any badLim then 4
  else if nctx ≠ 0 ∧ (List.range 512).any fun c => 8 * nctx ≤ c && s.ctxValid c then 5
  else 0

/-- Tables 6 and 7 take their staging copies (R288). -/
def tabsApply (s : State) : State :=
  s.modFwd fun x => { x with tabs := (List.range 40).foldl (fun l i =>
    insert (insert l (0x1600 + i) (s.tab 6 i)) (0x1700 + i) (s.tab 7 i)) x.tabs }

/-- The forwarding engine commits; a changed list whose running one had EN = 0 is taken at once (R290). -/
def fwdCommitNow (s : State) : State :=
  let go := commitApplies 0x50D fwdCheck s
  let s1 := commitWith 0x50D fwdCheck s
  if go then
    (List.range 5).foldl (fun s p => if !(s.gate p).en && s.gateChanged p then gateSwitch p s else s) (tabsApply s1)
  else s1

/-- The engine's commit boundary outside a refill: not enabled (R37, R288). -/
def fwdCommit (s : State) : State := if s.on F.FWD_CTL_EN then s else fwdCommitNow s

/-- The refill of the context policers. -/
def refillCtx (s : State) : State :=
  (List.range s.nctx).foldl (fun s c =>
    if s.ctxFlag c 6 then s.setCtx c 44 2 (min (s.ctxLe c 44 2 + s.ctxLe c 40 2) (s.ctxLe c 42 2)) else s) s

/-- The refill of markers and credits. -/
def refillClass (s : State) : State :=
  let m (i : Nat) : Nat := s.tabAct 6 i
  let k (i : Nat) : Nat := s.tabAct 7 i
  let ix := List.range 40
  s.modFwd fun x => { x with
    ctok := ix.map fun i => min (x.ctok.getD i 0 + bitsOf (m i) 16 16) (bitsOf (m i) 0 16)
    ptok := ix.map fun i => min (x.ptok.getD i 0 + bitsOf (m i) 48 16) (bitsOf (m i) 32 16)
    credit := ix.map fun i =>
      if bitOf (k i) 61 then
        let c := x.credit.getD i 0 + (bitsOf (k i) 32 16 : Int)
        let b : Int := bitsOf (k i) 16 16
        if c < b then c else b
      else x.credit.getD i 0 }

/-- A frame has waited longer than FWD_AGE cycles (R11, R280): one that a backward step has put into the future has not. -/
def State.tooOld (s : State) (e : QEnt) : Bool :=
  match s.frame e.num with
  | some f => later48 s.now (f.born + s.rd F.FWD_AGE_CYC * 65536)
  | none => false

/-- Queued and held frames that are too old are dropped (R280). -/
def ageCheck (s : State) : State :=
  if s.rd F.FWD_AGE_CYC = 0 then s
  else ((s.fwd.queue ++ s.fwd.held).filter s.tooOld).foldl (fun s e => fwdDrop F.FWD_AGEDROP (entEnd e s)) s

/-- A refill: the commit, the buckets and credits, the ages, event 158 (R288). -/
def fwdRefill (s : State) : State :=
  if s.on F.FWD_CTL_EN then fire 158 (ageCheck (refillClass (refillCtx (fwdCommitNow s)))) else s

/-! ### Egress (R281 to R286) -/

/-- The block time of a column port in picoseconds: 66 / (bits per symbol × baud) (R283). -/
def State.blockPs (s : State) (cp : Nat) : Nat :=
  66 * (if s.on (F.CP_STAT_BAUD cp) then 320000 else 80000) / max 1 (s.rd (F.CP_STAT_PAM cp))

/-- The line rate of a column port, in bits per 320 ns. -/
def State.lineRate (s : State) (cp : Nat) : Nat := s.rd (F.CP_STAT_PAM cp) * (if s.on (F.CP_STAT_BAUD cp) then 1 else 4)

/-- The lid of a column frame of length L, in picoseconds (R283). -/
def State.columnLid (s : State) (cp len : Nat) : Nat :=
  let b := (len + 4 - 7) / 8 + 2 + 1
  let n := if s.on (F.CP_STAT_RSON cp) then b + ceilDiv b 15 else b
  n * s.blockPs cp

/-- The profile a frame for context c uses: its own for a unicast context, else profile 0 (R245). -/
def State.ctxProf (s : State) (c : Nat) : Nat := if s.isMulti (s.ctxDst c) then 0 else s.ctxLe c 14 1 % 8

/-- The preamble toward a scheduled peer, lengthened by ceil(2U / T) to at most 64 (R255). -/
def State.preamble (s : State) (prof : Nat) (sched : Bool) : Nat :=
  let n := s.rd (F.MAC_PROF_NPRE prof)
  if sched then
    min 64 (n + ceilDiv (2 * s.tbUnc * bwHz (s.rd (F.MAC_PROF_BW prof))) (s.hz * 65536 * 2 ^ s.rd (F.MAC_PROF_K prof)))
  else n

/-- The TX request of a profile with a payload. -/
def State.profReq (s : State) (kind : TxKind) (prof npre chk : Nat) (payload : List Byte) : TxReq :=
  { kind := kind, k := s.rd (F.MAC_PROF_K prof), bw := s.rd (F.MAC_PROF_BW prof), rate := s.rd (F.MAC_PROF_RATE prof),
    chk := chk, npre := npre, nid := s.rd F.MOD_NID_NID, ofs := s.rd (F.MAC_PROF_OFS prof),
    idx := s.rd (F.MAC_PROF_PWR prof), payload := payload }

/-- The request a waiting radio frame would make, its bytes not yet built. -/
def State.entReq (s : State) (e : QEnt) (c : Nat) : TxReq :=
  let slv := s.ctxSlv c
  let prof := s.ctxProf c
  s.profReq .data prof (s.preamble prof (s.ctxFlag c 2)) slv
    (List.replicate (e.len + (if slv = 0 then 4 else 0)) 0)

/-- 2T of the assessment, where frames are assessed (R247). -/
def State.ccaUs (s : State) (r : TxReq) : Nat := if s.rd F.MAC_CCA_MODE = 0 then 0 else 2 * symUs r.k r.bw

/-- The ack wait, 15T + 200 µs (R249). -/
def ackWaitUs (r : TxReq) : Nat := ceilDiv (15 * 2 ^ r.k * 1000000) (bwHz r.bw) + 200

/-- The time a radio frame needs: its assessment, its charge and its ack wait. -/
def State.radioUs (s : State) (r : TxReq) (ar : Bool) : Nat :=
  s.txCharge r + s.ccaUs r + (if ar then ackWaitUs r else 0)

/-- FWD_LIDCFG.GUARD in picoseconds, a part of every lid (R283). -/
def State.lidGuard (s : State) : Nat := s.rd F.FWD_LIDCFG_GUARD * 1000000

/-- The lid of a waiting frame in picoseconds, the guard included (R283). -/
def State.lidPs (s : State) (e : QEnt) : Nat :=
  let lid := match e.port, e.ctx with
    | 0, some c => s.radioUs (s.entReq e c) (s.egressAr c) * 1000000
    | 1, _ => s.columnLid 0 e.len
    | 2, _ => s.columnLid 1 e.len
    | _, _ => 0
  lid + s.lidGuard

/-- A waiting frame changes. -/
def modEnt (e : QEnt) (g : QEnt → QEnt) (s : State) : State :=
  s.modFwd fun x => { x with queue := x.queue.map fun d => if d = e then g d else d }

/-- A radio frame's charge exceeds what is left of a sub-band it belongs to (R284). -/
def State.overAir (s : State) (e : QEnt) : Bool :=
  match e.ctx with
  | some c => let r := s.entReq e c; (s.txSbs r).any (s.overBudget (s.txCharge r))
  | none => false

/-- Class q of port p may start a frame: it is open and its shaper has credit (R281, R282). -/
def State.classOpen (s : State) (p q : Nat) : Bool :=
  let i := 8 * p + q
  s.gateOpen p q && !(bitOf (s.tabAct 7 i) 61 && s.fwd.credit.getD i 0 ≤ 0)

/-- Class q of port p as R284 treats it: skipped, also where its head frame fails a test, held with a count, or its head chosen. -/
def egressClass (ok : QEnt → Bool) (p q : Nat) (s : State) : Option QEnt × State :=
  match s.fwd.queue.find? fun e => e.port == p && e.cls == q with
  | none => (none, s)
  | some e =>
    if !ok e || !s.classOpen p q then (none, s)
    else if !s.lidFits p q (s.lidPs e) then
      (none, if e.lidHeld then s else modEnt e (fun d => { d with lidHeld := true }) (s.inc F.FWD_LIDHOLD))
    else if p = 0 && s.overAir e then
      (none, if e.budgetHeld then s else modEnt e (fun d => { d with budgetHeld := true }) (s.inc F.GATE_HOLD))
    else (some e, s)

/-- The frame R284 chooses on port p among the head frames that pass a test, classes taken from a list. -/
def egressPick (ok : QEnt → Bool) (p : Nat) : List Nat → State → Option QEnt × State
  | [], s => (none, s)
  | q :: t, s =>
    match egressClass ok p q s with
    | (some e, s1) => (some e, s1)
    | (none, s1) => egressPick ok p t s1

/-- The classes from the highest to the lowest. -/
def classes : List Nat := [7, 6, 5, 4, 3, 2, 1, 0]

/-- The frame was released into a peer's slot: rank 4 (R43, R285). -/
def State.inSlot (s : State) (e : QEnt) : Bool := s.fwd.released.any fun d => d.1 == e.num

/-- A deferral: TX_DEFERr counts and event 151 fires (R251). -/
def txDefer (r : Nat) (s : State) : State := fire 151 (s.inc (F.TX_DEFER (r - 1)))

/-- A class pays L for a frame that starts (R281). -/
def creditPay (p q len : Nat) (s : State) : State :=
  let i := 8 * p + q
  if bitOf (s.tabAct 7 i) 61 then
    s.modFwd fun x => { x with credit := setAt 0 x.credit i (x.credit.getD i 0 - (len : Int)) }
  else s

/-! ### Local port (R292, R293) -/

/-- The frame the LOCAL receive queue presents: of the classes that gates, shapers and lids let start, the highest, then order of
arrival (R281 to R284, R292). -/
def State.localHead (s : State) : Option QEnt :=
  (classes.filterMap fun q =>
    if s.classOpen 4 q then (s.fwd.queue.find? fun e => e.port == 4 && e.cls == q).filter fun e => s.lidFits 4 q (s.lidPs e)
    else none).head?

/-- A list of cells as FWD_LRXCELLS shows it. -/
def cellsWord (l : List Nat) : Nat := (List.range 6).foldl (fun a i => a + l.getD i 0 * 2 ^ (9 * i)) 0

/-- FWD_LRXD (R292). -/
def State.lrxd (s : State) : Nat :=
  match s.localHead with
  | none => 0
  | some e =>
    match s.frame e.num with
    | none => 0
    | some f =>
      2 ^ 63 + b2n f.knext * 2 ^ 41 + b2n e.copy * 2 ^ 40 + f.num * 2 ^ 32 + e.cls * 2 ^ 29 + f.src.getD 0 * 2 ^ 20 +
        b2n f.src.isSome * 2 ^ 19 + f.port * 2 ^ 16 + f.hlen * 2 ^ 11 + f.len

/-- FWD_LRXCELLS. -/
def State.lrxCells (s : State) : Nat :=
  match s.localHead.bind fun e => s.frame e.num with
  | none => 0
  | some f => cellsWord f.cells

/-- FWD_LRXPOP: the presented frame is released and its class pays for it, or BADFR sets (R281, R292). -/
def fwdPop (s : State) : State :=
  match s.localHead with
  | none => s.set1 F.FWD_LERR_BADFR
  | some e => entEnd e (creditPay 4 e.cls e.len s)

/-- A request of the engine waits for the end of a self-test slice of it (R42, R296). -/
def fwdWait (w : FwdWait) (s : State) : State := (s.modFwd fun x => { x with waits := x.waits ++ [w] }).inc F.BIST_HOLD

/-- A self-test slice of the engine runs. -/
def State.fwdSliced (s : State) : Bool := s.bistPart == some 11

/-- FWD_ALLOC: cells and a frame number are requested (R293). -/
def fwdAllocGo (len : Nat) (s : State) : State :=
  let none' := (((s.clr F.FWD_ALLOCRES_OK).set1 F.FWD_ALLOCRES_FAIL).clr F.FWD_ALLOCRES_FRAME).clr F.FWD_ALLOCRES_CELLS
  if len = 0 ∨ 1536 < len then none'
  else
    match fwdGrant len 4 s with
    | none => none'
    | some (f, s1) =>
      (((s1.set1 F.FWD_ALLOCRES_OK).clr F.FWD_ALLOCRES_FAIL).wr F.FWD_ALLOCRES_FRAME f.num).wr F.FWD_ALLOCRES_CELLS
        (cellsWord f.cells)

/-- The allocated and unsubmitted frame of a number. -/
def State.allocated (s : State) (n : Nat) : Option FwdFrame :=
  match s.frame n with
  | some f => if f.uses = 0 ∧ f.port = 4 then some f else none
  | none => none

/-- FWD_ALLOC, which a slice makes wait. -/
def fwdAlloc (len : Nat) (s : State) : State := if s.fwdSliced then fwdWait (.alloc len) s else fwdAllocGo len s

/-- FWD_SUBMIT under a location: an allocated frame enters the decision with the cells its length takes, or BADSUB sets (R267, R274,
R293). -/
def fwdSubmitGo (v code : Nat) (s : State) : State :=
  let n := bitsOf v 0 8
  let len := bitsOf v 8 11
  let c := bitsOf v 19 9
  let mode := bitOf v 28
  let bad := s.set1 F.FWD_LERR_BADSUB
  match s.allocated n with
  | none => bad
  | some f =>
    if f.len < len then bad
    else if !mode && (s.nctx ≤ c || !s.ctxValid c) then bad
    else if !s.on F.FWD_CTL_EN then fwdForget n (fwdDrop (F.FB_DROP 4) s)
    else
      let d := bitsOf v 33 3
      let s1 := s.modFrame n fun f => { f with
        len := len, cells := f.cells.take (cellCount len), typ := if bitOf v 38 then 3 else 0, born := s.now,
        loc := if mode || bitOf v 32 then some (code, d) else none }
      let col := bitsOf v 36 2
      fwdSettle n (if mode then fwdRoute n code d (some col) s1 else fwdOut n c (bitsOf v 29 3) col s1)

/-- FWD_SUBMIT, which a slice makes wait. -/
def fwdSubmit (v : Nat) (s : State) : State :=
  let code := s.rd F.FWD_SUBLOC_CODE
  if s.fwdSliced then fwdWait (.submit v code) s else fwdSubmitGo v code s

/-- FWD_FREE: an allocated frame is returned unsent, or BADSUB sets (R293). -/
def fwdFree (n : Nat) (s : State) : State :=
  match s.allocated n with
  | none => s.set1 F.FWD_LERR_BADSUB
  | some _ => fwdForget n s

/-- The bytes the receive FIFO of the host port holds. -/
def State.hostFill (s : State) : Nat := s.hp.rx.foldl (fun a f => a + f.data.length) 0

/-- A frame chosen for port p waits for the cipher engine (R303, R459). -/
def State.sealWaits (s : State) (p : Nat) : Bool :=
  s.fwd.waits.any fun w => match w with | .start e => e.port == p | _ => false

/-- No frame is on its way through column port p: none in transmission, none cutting through (R284, R287). -/
def State.portIdle (s : State) (p : Nat) : Bool :=
  s.fwd.txs.all (fun e => e.port != p) && s.fwd.cuts.all (fun c => c.egress != p || c.lost)

/-- Port p can start a frame (R284). -/
def State.canStart (s : State) (p : Nat) : Bool :=
  s.on F.FWD_CTL_EN && !s.on F.FWD_CTL_HOLDQ && !s.sealWaits p &&
    match p with
    | 0 => s.on F.MAC_CTL_EN && !s.on F.MAC_CTL_TXHALT && s.mac.tx.isNone
    | 1 => s.cpSends 0 && s.portIdle 1
    | 2 => s.cpSends 1 && s.portIdle 2
    | 3 => s.hostFill + 1536 ≤ 4096
    | _ => false

/-- A frame leaves its queue for its port; its class pays L (R281). -/
def egressTake (e : QEnt) (data : List Byte) (s : State) : State :=
  creditPay e.port e.cls e.len (s.modFwd fun x => { x with
    queue := x.queue.filter (· ≠ e)
    released := x.released.filter fun d => d.1 ≠ e.num
    txs := x.txs ++ [{ e with data := data }] })

/-- A frame for a context ends acked or sent (R286). -/
def fwdSent (e : QEnt) (s : State) : State :=
  entEnd e (match e.ctx with | some c => s.incCtx c 54 | none => s)

/-- A radio frame ends failed (R286). -/
def fwdFailed (e : QEnt) (s : State) : State :=
  entEnd e (match e.ctx with | some c => s.incCtx c 56 | none => s)

/-- A radio frame returns unsent: to the head of its class after a budget refusal, as it was built, else freed (R246, R286). -/
def fwdReturned (e : QEnt) (b : Built) (reason : Nat) (s : State) : State :=
  if reason = 7 ∨ reason = 8 then
    s.modFwd fun x => { x with txs := x.txs.filter fun d => d.num ≠ e.num ∨ d.port ≠ e.port,
                               queue := { e with data := [], built := some b } :: x.queue }
  else fwdDrop F.FWD_TXREFDROP (entEnd e s)

/-- The matching lane of radio settings (R245). -/
def State.matchLane (s : State) (ofs bw k : Nat) : Option Nat :=
  ((List.range 8).filter fun n => s.laneLive n && s.rd (F.LANE_OFS_OFS n) == ofs && s.rd (F.LANE_CFG_BW n) == bw &&
    bitOf (s.rd (F.LANE_CFG_ORD n)) (k - 5)).head?

/-! ### Ranks and instants (R43, R251, R252) -/

/-- How far after a network time the next instant of a schedule entry lies, in fractions: the cycles whose MCN modulo PER equals CYC,
at FRAC; at the wrap of MCN the pattern restarts from cycle 0 (R252). -/
def instantFrom (t per cyc frac : Nat) : Nat :=
  let m := t / 65536 % 2 ^ 32
  let f := t % 65536
  let p := max 1 per
  let d := (cyc + p - m % p) % p
  let d1 := if d = 0 ∧ frac < f then p else d
  let d2 := if 2 ^ 32 ≤ m + d1 then 2 ^ 32 - m + cyc else d1
  d2 * 65536 + frac - f

/-- How far before a network time the last instant of a schedule entry lies, in fractions (R252). -/
def instantBack (t per cyc frac : Nat) : Nat :=
  let m := t / 65536 % 2 ^ 32
  let f := t % 65536
  let p := max 1 per
  let d := (m % p + p - cyc) % p
  let d1 := if d = 0 ∧ f < frac then p else d
  let d2 := if m < d1 then m + 1 + ((2 ^ 32 - 1) % p + p - cyc) % p else d1
  d2 * 65536 + f - frac

/-- A schedule entry. -/
structure Sched where
  per : Nat
  cyc : Nat
  frac : Nat
  deriving DecidableEq, Repr

/-- Wake entry i. -/
def State.wakeSched (s : State) (i : Nat) : Sched := ⟨s.rd (F.MAC_WAKE_PER i), s.rd (F.MAC_WAKE_CYC i), s.rd (F.MAC_WAKE_FRAC i)⟩
/-- MAC_BCN. -/
def State.beaconSched (s : State) : Sched := ⟨s.rd F.MAC_BCN_PER, s.rd F.MAC_BCN_CYC, s.rd F.MAC_BCN_FRAC⟩
/-- The listen schedule of context c's peer. -/
def State.peerSched (s : State) (c : Nat) : Sched := ⟨s.ctxLe c 32 2, s.ctxLe c 34 2, s.ctxLe c 36 2⟩

/-- How far ahead the next instant of an entry lies for which act `key` is still to come, where the act comes `early` fractions before
its instant: an instant whose act has been done, since a step went back, does not have it again (R42, R252). -/
def State.instIn (s : State) (key early : Nat) (e : Sched) : Nat :=
  let a := match lookup s.mac.acted key with
    | some t => let x := (t + 1 + 2 ^ 48 - s.now) % 2 ^ 48; if x < 2 ^ 47 then x else 0
    | none => 0
  let d := max early a
  d + instantFrom ((s.now + d) % 2 ^ 48) e.per e.cyc e.frac

/-- The last instant whose act, `early` fractions before it, lies after `old` and not after `new`, where that act has not been done. -/
def State.instPassed (s : State) (key early old new : Nat) (e : Sched) : Option Nat :=
  let back := instantBack ((new + early) % 2 ^ 48) e.per e.cyc e.frac
  let t := (new + early + 2 ^ 48 - back % 2 ^ 48) % 2 ^ 48
  let done := match lookup s.mac.acted key with | some a => !later48 t a | none => false
  if back < (new + 2 ^ 48 - old) % 2 ^ 48 && !done then some t else none

/-- Act `key` of the schedules has been done for the instants up to a network time. -/
def markActed (key t : Nat) (s : State) : State :=
  { s with mac := { s.mac with acted := insert s.mac.acted key (t % 2 ^ 48) } }

/-- TB_UNC n cycle boundaries from now (R60). -/
def State.uncAfter (s : State) (n : Nat) : Nat := min 0xFFFF (s.rd F.TB_DRIFT_PPM * min (s.rd F.TB_SYNCAGE_AGE + n) 0xFFFFFFFF / 16)

/-- The guard of a receive window that opens n cycle boundaries from now: G0 + TB_UNC (R253). -/
def State.guardAfter (s : State) (n : Nat) : Nat := s.rd F.MAC_GUARD_G0 + s.uncAfter n

/-- How far before its entry's instant a lead instant lies that comes n cycle boundaries from now (R253, R254). -/
def State.leadAfter (s : State) (n : Nat) : Nat := s.guardAfter n + s.usFracs (s.rd F.MAC_LEAD_US)

/-- How far ahead an act lies that comes `g n` fractions before an instant d fractions ahead, n the cycle boundaries before the act: the
first network time that is not earlier than the instant less what it then comes before it. g grows by less than a cycle. -/
def nearing (now d : Nat) (g : Nat → Nat) : Nat :=
  let cycles (x : Nat) : Nat := (now % 65536 + x) / 65536
  let n0 := cycles (d - g 0)
  let n1 := cycles (d - g n0)
  if n1 = n0 then d - g n0
  else if cycles (d - g n1) = n1 then d - g n1
  else n0 * 65536 - now % 65536

/-- The device sends beacons (R257). -/
def State.bcnOn (s : State) : Bool := s.isConcentrator && s.on F.MAC_BCN_EN

/-- A use of rank 4 or 5 that lasts `us` yields to a use of a rank: an ack owed or sent, a beacon sent or due, an own window open or due
(R43, R251). -/
def State.yieldsTo (s : State) (us : Nat) : Option Nat :=
  let fr := s.usFracs us
  let bcn := match s.fe.tx, s.fe.req with
    | some t, _ => t.req.kind == .beacon
    | none, some r => r.kind == .beacon
    | _, _ => false
  let bcnNear := s.bcnOn && s.instIn 64 0 s.beaconSched ≤ fr
  let g := s.guardAfter 0
  let winNear := (List.range 32).any fun i => s.on (F.MAC_WAKE_EN i) && s.instIn (32 + i) g (s.wakeSched i) ≤ g + fr
  if s.mac.ackTx || !s.mac.owed.isEmpty then some 1
  else if bcn || bcnNear then some 2
  else if s.on F.MAC_STAT_WIN || winNear then some 3
  else none

/-! ### Starting a frame (R284) -/

/-- MAC_TXSTAT takes the result of a frame. -/
def txResult (result attempts : Nat) (s : State) : State :=
  (s.wr F.MAC_TXSTAT_RESULT result).wr F.MAC_TXSTAT_ATTEMPTS attempts

/-- The MAC takes a radio frame: its assessment follows; AR = 1 without a matching lane returns it unsent (R245, R248). -/
def macBegin (e : QEnt) (c : Nat) (b : Built) (s : State) : State :=
  let r := s.entReq e c
  let lane := s.matchLane r.ofs r.bw r.k
  if b.ar && lane.isNone then fwdReturned e b 0 (txResult 7 b.attempts s)
  else
    let x : MacTx :=
      { q := { e with data := b.bytes }, frame := b.bytes, slv := b.slv, fcnt := b.fcnt, ar := b.ar,
        sched := s.ctxFlag c 2, k := r.k, bw := r.bw, rate := r.rate, npre := r.npre, ofs := r.ofs, idx := r.idx,
        lane := lane, prof := s.ctxProf c, attempts := b.attempts, fails := b.fails, busies := b.busies }
    { s with mac := { s.mac with tx := some x } }.set1 F.MAC_STAT_TXACT

/-- What a frame for context c is sent as: as it was built before, or built now (R246, R277). -/
def entBuild (e : QEnt) (c : Nat) (s : State) : Option Built × State :=
  match e.built with
  | some b => (some b, s)
  | none => fwdBuild e c s

/-- A chosen frame is built for its port and starts there (R277, R284). -/
def egressGo (e : QEnt) (s : State) : State :=
  match e.ctx with
  | none => s
  | some c =>
    match entBuild e c s with
    | (none, s1) => entEnd e s1
    | (some b, s1) =>
      let s2 := egressTake e b.bytes s1
      let e2 := { e with data := b.bytes, built := none }
      match e.port with
      | 0 => macBegin e2 c b s2
      | 3 => fwdSent e2 { s2 with hp := { s2.hp with rx := s2.hp.rx ++ [{ cls := e.cls, data := b.bytes }] } }
      | _ => s2

/-- A self-test slice of the cipher engine runs. -/
def State.ciphSliced (s : State) : Bool := s.bistPart == some 10

/-- The chosen frame is to be secured, which it has not been before. -/
def State.toSeal (s : State) (e : QEnt) : Bool := e.built.isNone && e.ctx.any fun c => s.ctxSlv c != 0

/-- A chosen frame starts; one that is to be secured waits during a slice of the cipher engine (R303, R320, R459). -/
def egressStart (e : QEnt) (s : State) : State :=
  if s.ciphSliced && s.toSeal e then fwdWait (.start e) s else egressGo e s

/-- The frame for a peer's slot that the radio is offered, at rank 4 (R43, R284). -/
def radioSlot (s : State) : Option QEnt × State := egressPick s.inSlot 0 classes s

/-- The other frame that the radio is offered, at rank 5. -/
def radioOther (s : State) : Option QEnt × State := egressPick (fun e => !s.inSlot e) 0 classes s

/-- The rank of the use to which a waiting radio frame must yield (R43, R251). -/
def State.radioYields (s : State) (e : QEnt) : Option Nat :=
  e.ctx.bind fun c => s.yieldsTo (s.radioUs (s.entReq e c) (s.egressAr c))

/-- A chosen frame that waited for the cipher engine starts, where it is still queued and its port can start it (R284, R459). -/
def egressWaited (e : QEnt) (s : State) : State :=
  if s.fwd.queue.contains e && s.canStart e.port && (e.port != 0 || (s.radioYields e).isNone) then egressGo e s else s

/-! A retry that was deferred is offered again before the queued frames of its rank (notes/assumptions/26.md). -/

/-- The TX request of a frame in sending. -/
def MacTx.req (x : MacTx) (nid : Nat) : TxReq :=
  { kind := .data, k := x.k, bw := x.bw, rate := x.rate, chk := x.slv, npre := x.npre, nid := nid, ofs := x.ofs, idx := x.idx,
    payload := if x.slv = 0 then withCrc x.frame else x.frame }

/-- The deferred retry toward scheduled peers, of rank 4, or the other one, of rank 5, that is offered first (R42, R43). -/
def State.dueRetry (s : State) (sched : Bool) : Option MacTx := s.mac.waits.find? fun x => x.due && x.sched == sched

/-- The rank of the use to which a frame in sending must yield (R43, R251). -/
def State.retryYields (s : State) (x : MacTx) : Option Nat := s.yieldsTo (s.radioUs (x.req 0) x.ar)

/-- The frame x that waits is deferred, as y (R42, R251). -/
def retryDefer (x y : MacTx) (r : Nat) (s : State) : State :=
  txDefer r { s with mac := { s.mac with waits := s.mac.waits.map fun w => if w = x then { y with due := true } else w } }

/-- The next assessment of the frame x that waits begins, as y (R247, R248). -/
def retryStart (x y : MacTx) (s : State) : State :=
  { s with mac := { s.mac with waits := s.mac.waits.filter (· ≠ x), tx := some { y with phase := .assess, due := false } } }.set1
    F.MAC_STAT_TXACT

/-- A deferred retry starts, its preamble lengthened by what the uncertainty now is (R255). -/
def retryAgain (x : MacTx) (s : State) : State :=
  retryStart x (if x.sched then { x with npre := s.preamble x.prof true } else x) s

/-- The radio would take a frame for a peer's slot now, ahead of any use of rank 5 (R43). -/
def State.slotWaits (s : State) : Bool :=
  (s.dueRetry true).any (fun x => (s.retryYields x).isNone) ||
    s.canStart 0 && (radioSlot s).1.any fun e => (s.radioYields e).isNone

/-- A use of rank 5 is offered. -/
def State.lowOffered (s : State) : Bool := (s.dueRetry false).isSome || (radioOther s).1.isSome

/-- The queued use of rank 5 starts, unless it must yield (R251, R284). -/
def radioQueued (s : State) : State :=
  match radioOther s with
  | (none, s1) => s1
  | (some e, s1) =>
    match s1.radioYields e with
    | some r => txDefer r s1
    | none => egressStart e s1

/-- The radio's use of rank 5 starts, unless it must yield (R43, R251). -/
def radioLow (s : State) : State :=
  match s.dueRetry false with
  | none => radioQueued s
  | some x =>
    match s.retryYields x with
    | some r => txDefer r s
    | none => retryAgain x s

/-- The radio's choice without a deferred retry of rank 4 (R43, R251, R284): a queued frame for a peer's slot, which defers a use of
rank 5, else that use. -/
def radioOffer (s : State) : State :=
  match radioSlot s with
  | (none, s1) => radioLow s1
  | (some e, s1) =>
    match s1.radioYields e with
    | some r => radioLow (txDefer r s1)
    | none => egressStart e (if s1.lowOffered then txDefer 4 s1 else s1)

/-- The radio's choice (R43, R251, R284). -/
def radioSelect (s : State) : State :=
  match s.dueRetry true with
  | none => radioOffer s
  | some x =>
    match s.retryYields x with
    | some r => radioOffer (txDefer r s)
    | none => retryAgain x (if s.lowOffered then txDefer 4 s else s)

/-- When a port can start a frame, the engine picks one (R251, R284); LOCAL presents its choice by itself (R292), and what its lid
holds back counts here. -/
def egressSelect (p : Nat) (s : State) : State :=
  if p = 4 then (egressPick (fun _ => true) 4 classes s).2
  else if !s.canStart p then s
  else if p = 0 then radioSelect s
  else
    match egressPick (fun _ => true) p classes s with
    | (none, s1) => s1
    | (some e, s1) => egressStart e s1

/-- A column frame's transmission ends on port p: sent, or freed where it was cut short (R210, R286). -/
def columnTxEnd (p : Nat) (ok : Bool) (s : State) : State :=
  match s.fwd.txs.find? fun e => e.port == p with
  | none => s
  | some e => if ok then fwdSent e s else entEnd e s

/-! ### Scheduled peers (R252, R255, R285) -/

/-- How far ahead the instant of the next slot of context c's peer lies whose aligned start is still to come (R252, R255). -/
def State.peerIn (s : State) (c : Nat) : Nat := s.instIn (128 + c) s.tbUnc (s.peerSched c)

/-- Network time comes to the aligned start of a slot of context c's peer, the own uncertainty before its instant, which lies d
fractions ahead (R255). -/
def toPeer (c d : Nat) (s : State) : State :=
  markActed (128 + c) (s.now + d) (timeTo ((s.now + nearing s.now d s.uncAfter) % 2 ^ 48) s)

/-- A context's frames wait for its listen schedule. -/
def State.ctxSched (s : State) (c : Nat) : Bool := s.ctxValid c && s.ctxFlag c 2

/-- A frame for context c waits: in its hold list, its queue or in backoff. -/
def State.waitsFor (s : State) (c : Nat) : Bool :=
  (s.fwd.held ++ s.fwd.queue).any (fun e => e.ctx == some c) || s.mac.waits.any fun x => x.q.ctx == some c

/-- A use of rank 4 is offered while an attempt is in progress, which defers it (R42, R251). -/
def radioBusy (s : State) : State :=
  match s.mac.tx with
  | some y => txDefer (if y.sched then 4 else 5) s
  | none => s

/-- A peer's slot comes: event 146 where a frame waits for it, and its oldest held frame enters the head of its class queue until
the slot ends (R255, R285). -/
def peerSlotNow (c endAt : Nat) (s : State) : State :=
  let s1 := if s.waitsFor c then fire 146 s else s
  match s.fwd.held.find? fun e => e.ctx == some c with
  | none => s1
  | some e => radioBusy (s1.modFwd fun x => { x with
      held := x.held.filter (· ≠ e), queue := e :: x.queue, released := x.released ++ [(e.num, endAt)] })

/-- Where the slot of context c's peer ends: LEN × 10h fractions after its instant (R285). -/
def State.slotEndAt (s : State) (c inst : Nat) : Nat := (inst + 16 * s.ctxLe c 38 2) % 2 ^ 48

/-- Network time comes to the next slot of context c's peer (R252, R255). -/
def peerSlot (c : Nat) (s : State) : State :=
  if !s.ctxSched c then s
  else
    let d := s.peerIn c
    peerSlotNow c (s.slotEndAt c (s.now + d)) (toPeer c d s)

/-- The slot ends before a released frame has started: it returns to the front of the hold list (R285). -/
def slotMissNow (e : QEnt) (s : State) : State :=
  drainCheck 0 ((s.modFwd fun x => { x with
    queue := x.queue.filter (· ≠ e), held := e :: x.held,
    released := x.released.filter fun d => d.1 ≠ e.num }).inc F.FWD_SLOTMISS)

/-- Network time comes to the end of the slot of context c's peer (R285). -/
def slotMiss (c : Nat) (s : State) : State :=
  match s.fwd.queue.find? fun e => e.ctx == some c && s.inSlot e with
  | none => s
  | some e =>
    match s.fwd.released.find? fun d => d.1 == e.num with
    | none => s
    | some d => slotMissNow e (timeTo d.2 s)

/-! ### Rest, reset (R294, R295) -/

/-- Every frame is discarded. -/
def fwdEmpty (s : State) : State :=
  let cs := ((s.fwd.queue ++ s.fwd.held ++ s.fwd.txs).filterMap (·.ctx) ++ s.fwd.cuts.map (·.ctx)).eraseDups
  (cs.foldl (fun s c => s.setCtx c 58 2 0) s).modFwd fun x =>
    { x with frames := [], queue := [], held := [], txs := [], released := [], cuts := [], waits := [], cutWait := [] }

/-- Rest entry: the frames are discarded and counted (R294). -/
def fwdRest (s : State) : State :=
  let n := s.fwd.frames.length
  ((List.range 5).filter s.portBusy).foldl (fun s p => drainCheck p s)
    (fwdEmpty (s.wr F.FWD_RESTDROP (min (s.rd F.FWD_RESTDROP + n) 0xFFFF)))

/-- Rest exit: buckets, markers and credits start full, the gate lists move to where time stands (R282, R294). -/
def fwdWake (s : State) : State :=
  let ix := List.range 40
  let s1 := s.modFwd fun x => { x with
    ctok := ix.map fun i => bitsOf (s.tabAct 6 i) 0 16
    ptok := ix.map fun i => bitsOf (s.tabAct 6 i) 32 16
    credit := ix.map fun i => (bitsOf (s.tabAct 7 i) 16 16 : Int) }
  let s2 := (List.range s1.nctx).foldl (fun s c => s.setCtx c 44 2 (s.ctxLe c 42 2)) s1
  (List.range 5).foldl (fun s p => gatePlace p s) s2

/-- A step of network time moves every running list (R282). -/
def fwdStepped (s : State) : State := (List.range 5).foldl (fun s p => gatePlace p s) s

/-- A reset of the core domain (R295). -/
def fwdResetCore (s : State) : State :=
  let s1 := (fwdEmpty s).clr F.FWD_CTL_EN
  { s1 with latches := s1.latches.filter (fun l => l.page ≠ 0x50D), holds := s1.holds.filter (fun l => l.page ≠ 0x50D) }

/-- A reset of the always-on domain (R295). -/
def fwdResetAon (s : State) : State := { s.resetPage 0x50D with fwd := {} }

end Sys2Proof.Machine
end

