-- ==== Sys2Proof/Machine/RamView.lean ====
section
/-! DEFINITION. What an access to RAM meets: the segment under the memory test (R461), and what must not show before a tag has been
checked: the cells of a frame that comes in (R302), and the output of a command of the cipher engine (R308). -/

namespace Sys2Proof.Machine

/-! ### The segment under the memory test (R461) -/

/-- n bytes from an address on reach into the segment under the memory test. -/
def State.segTouched (s : State) (a n : Nat) : Bool :=
  let lo := 0x400000 + s.bist.bank * 0x8000 + s.bist.segs.getD s.bist.bank 0 * 0x1000
  s.bist.seg && n != 0 && lo < a + n && a < lo + 0x1000

/-- An access to n bytes that reach into the segment under test waits and is counted once. -/
def segHold (a n : Nat) (s : State) : State := if s.segTouched a n then s.inc F.BIST_HOLD else s

/-! ### What must not show (R302, R304, R308) -/

/-- n bytes of a parameter set from number `lo`, the first the least significant. -/
def C2Set.num (x : C2Set) (lo n : Nat) : Nat := bytesNum ((x.par.drop lo).take n)
/-- SRC. -/
def C2Set.src (x : C2Set) : Nat := x.num 0 3
/-- DST. -/
def C2Set.dst (x : C2Set) : Nat := x.num 4 3
/-- LEN. -/
def C2Set.len (x : C2Set) : Nat := x.num 8 2

/-- Burner b's parameter set. -/
def State.c2Set (s : State) (b : Nat) : C2Set := s.ciph.sets.getD b {}

/-- The output range that reads 00h and takes no write while CCMDEC runs; one that still waits for an inline frame hides nothing, its
checks not yet made (R306 to R308). -/
def State.c2Hidden (s : State) (a : Nat) : Bool :=
  match s.ciph.op with
  | some o => o.fn == 2 && o.checked && (s.c2Set o.burner).dst ≤ a && a < (s.c2Set o.burner).dst + (s.c2Set o.burner).len
  | none => false

/-- A byte of RAM lies in the cells of a frame whose tag has not been checked (R302). -/
def State.cellHidden (s : State) (a : Nat) : Bool :=
  0x490000 ≤ a && a < 0x4B0000 && s.fwd.frames.any fun f => f.coming && f.cells.contains ((a - 0x490000) / 256)

/-- A byte of RAM as the cipher engine's commands find it (R302). -/
def State.cellByte (s : State) (a : Nat) : Byte := if s.cellHidden a then 0 else s.byte a

/-- n bytes of RAM as the cipher engine's commands find them. -/
def State.cellBytes (s : State) (a n : Nat) : List Byte := (List.range n).map fun i => s.cellByte (a + i)

/-- A byte of RAM as an access finds it (R302, R308). -/
def State.ramByte (s : State) (a : Nat) : Byte := if s.c2Hidden a then 0 else s.cellByte a

/-- n bytes of RAM as an access finds them. -/
def State.ramBytes (s : State) (a n : Nat) : List Byte := (List.range n).map fun i => s.ramByte (a + i)

end Sys2Proof.Machine
end

