-- ==== Sys2Proof/Machine/FlashOps.lean ====
section
/-! DEFINITION. The security maps (R84), and the flash arrays and their controller (spec/12_flash.md): units and protection
(R322, R323, R331), reads with their corrections and waits (R324 to R330), the commands and their checks (R332, R333), the
erase journal (R336, R337), retirement and wear (R338, R339) and the controller's states (R340). -/

namespace Sys2Proof.Machine

/-! ### The security maps (R84) -/

/-- An address lies where the security maps close it to an open accessor. -/
def State.mapSecure (s : State) (a : Nat) : Bool :=
  match region a with
  | .flash b => bitOf (s.rd F.BRN_SECMEM_FLASH) b
  | .sram b => bitOf (s.rd F.BRN_SECSRAM_BANK) b
  | .ctx => s.on F.BRN_SECMEM_CTX
  | .fbuf => s.on F.BRN_SECMEM_FBUF
  | .fine => s.on F.BRN_SECMEM_FINE
  | .rom => true
  | .regs p => if 0x503700 ≤ a ∧ a < 0x503740 then false else s.blkSecure (p - 0x500)
  | .none => false

/-- The security maps close an address to an accessor. -/
def State.closedTo (s : State) (acc a : Nat) : Bool := !s.accSecure acc && s.mapSecure a

/-! ### Units (R322) -/

/-- Changes the controller's hidden state. -/
def State.modFl (s : State) (f : FlState → FlState) : State := { s with fl := f s.fl }

/-- The state of unit u. -/
def State.unit (s : State) (u : Nat) : FlUnit := (lookup s.fl.units u).getD {}

/-- Unit u takes a state; the views of the main blocks follow. -/
def setUnit (u : Nat) (x : FlUnit) (s : State) : State :=
  let s1 := s.modFl fun f => { f with units := if x = {} then erase f.units u else insert f.units u x }
  if u < 64 then
    (s1.wr F.FL_RETMAIN_UNIT (setBits (s1.rd F.FL_RETMAIN_UNIT) u 1 (b2n x.ret))).wr F.FL_HALFMAIN_UNIT
      (setBits (s1.rd F.FL_HALFMAIN_UNIT) u 1 (b2n x.half))
  else s1

/-- FL_WEAR for the selected unit; above 207 it shows 0. -/
def State.flWear (s : State) : Nat :=
  let u := s.rd F.FL_WEARSEL_UNIT
  if 207 < u then 0
  else
    let x := s.unit u
    b2n x.ret * 2 ^ 31 + b2n x.half * 2 ^ 30 + b2n x.slow * 2 ^ 29 + x.count % 2 ^ 24

/-- The unit of a main or fine address. -/
def unitOf (a : Nat) : Nat := if a < 0x400000 then a / 0x10000 else 64 + (a - 0x540000) / 0x800

/-- The first address of a unit in the address map. -/
def unitBase (u : Nat) : Nat := if u < 64 then u * 0x10000 else 0x540000 + (u - 64) * 0x800

/-- The bytes of a unit in the address map; the Larder area has none. -/
def unitSize (u : Nat) : Nat := if u < 64 then 0x10000 else if u < 192 then 0x800 else 0

/-- The page or fine word that an address lies in. -/
def cellBase (a : Nat) : Nat := if a < 0x400000 then a / 512 * 512 else a / 8 * 8

/-! ### Reading (R324 to R330) -/

/-- The array an address lies in: 0 to 3 the main banks, 4 the fine area (R328). -/
def arrayOf (a : Nat) : Nat := if a < 0x400000 then a / 0x100000 else 4

/-- The array an operation works in; 5 the Larder area. -/
def opArray : FlOp → Nat
  | .page a _ _ _ => arrayOf a
  | .word _ _ => 4
  | .erase u => if u < 64 then u / 16 else if u < 192 then 4 else 5
  | .retire _ _ _ => 4

/-- A read of the array must wait: a command's program runs in it, or its erase that is not suspended. Compaction and the stamps of an
operation work in the fine area (R328, R337). -/
def State.arrayBusy (s : State) (a : Nat) : Bool :=
  match s.fl.op with
  | none => false
  | some op =>
    match s.rd F.FL_STAT_STATE with
    | 1 | 2 => arrayOf a == 4
    | 3 | 5 => opArray op == arrayOf a
    | _ => false

/-- A read of the array may have to wait: the update block or the Larder works in it. When one of their operations runs and when none
does is open (R328, notes/assumptions/31.md). -/
def State.arrayOpen (s : State) (a : Nat) : Bool :=
  s.fl.op.isNone && (s.fl.others.contains (arrayOf a) || (arrayOf a == 4 && s.on F.FL_STAT_LARPEND))

/-- n bytes from an address on take values that nothing states (notes/assumptions/32.md). -/
def openBytes (a n : Nat) (s : State) : State := { s.setBytes a (s.freeBytes n).1 with freeSeq := s.freeSeq + n }

/-- A program or erase begins or ends, in any array: every line buffer is empty from here on (R78). -/
def flWork (s : State) : State := s.modFl fun f => { f with works := f.works + 1 }

/-- The regions that are on and cover a main address (R330). -/
def State.xoAt (s : State) (a : Nat) : List Nat :=
  (List.range 8).filter fun n =>
    let lo := s.rd (F.FL_XO_BASE n) * 0x1000
    s.on (F.FL_XO_EN n) && s.rd (F.FL_XO_SIZE n) != 0 && lo ≤ a && a < lo + s.rd (F.FL_XO_SIZE n) * 0x1000 && a < 0x400000

/-- A page is erased: at most 8 of its bits read 0, those of its metadata and of the parity that its program wrote among them
(R324). -/
def State.pageErased (s : State) (p : Nat) : Bool :=
  let zeros := (s.mem.filter fun c => p ≤ c.1 && c.1 < p + 512).foldl (fun n c => n + (8 - popCount 8 c.2.toNat)) 0
  let written := match lookup s.fl.metas p with
    | some m => 128 - popCount 128 m + (if zeros ≤ 8 then Config.parityZeros (s.bytes p 512) m else 0)
    | none => 0
  let torn := match lookup s.fl.qual p with | some q => q.unc | none => false
  !torn && zeros + written ≤ 8

/-- A fine word is erased: it holds no 0, or its check byte reads FFh (R324). -/
def State.wordErased (s : State) (a : Nat) : Bool :=
  let w := s.leAt a 8
  w == 2 ^ 64 - 1 || Config.checkByte w == 0xFF

/-- The page or fine word at an address counts as erased (R324). -/
def State.cellErased (s : State) (a : Nat) : Bool :=
  if a < 0x400000 then s.pageErased (cellBase a) else s.wordErased (cellBase a)

/-- How the cells behind an address read: half-erased units are uncorrectable (R327), erased pages and words report no correction
(R324), a correction in the fine area is of one bit and never needs read-retry (R325, R326). -/
def State.cellQual (s : State) (a : Nat) : FlQual :=
  if (s.unit (unitOf a)).half then { unc := true }
  else
    match lookup s.fl.qual (cellBase a) with
    | none => {}
    | some q =>
      if q.unc then { unc := true } else if s.cellErased a then {}
      else if a < 0x400000 then q else { corr := min 1 q.corr }

/-- A byte of flash as a read finds it (R324). -/
def State.flByte (s : State) (a : Nat) : Byte := if s.byte a != 0xFF && s.cellErased a then 0xFF else s.byte a

/-- Memory as the device's own reads of n bytes of flash from a on find it: what counts as erased reads FFh (R324). -/
def State.flSeen (s : State) (a n : Nat) : State :=
  let cells := (((s.mem.map (·.1)).filter fun c => a ≤ c && c < a + n).map cellBase).eraseDups.filter s.cellErased
  { s with mem := s.mem.filter fun c => !cells.contains (cellBase c.1) }

/-- n bytes of flash as the device's own reads find them. -/
def State.flBytes (s : State) (a n : Nat) : List Byte := (s.flSeen a n).bytes a n

/-- n bytes of flash as a number, the least significant first. -/
def State.flNum (s : State) (a n : Nat) : Nat := leNat (s.flBytes a n)

/-- Page p takes data and metadata. -/
def putPage (p : Nat) (d : List Byte) (m : Nat) (s : State) : State :=
  (s.setBytes p d).modFl fun f => { f with metas := insert f.metas p m }

/-- How a flash read ends: its bytes, or uncorrectable. -/
inductive FlRead where
  | data (v : Nat)
  | unc
  deriving DecidableEq, Repr

/-- The reports of one cell read: corrections above THR, a read saved by retry (R325, R326). -/
def cellReport (a : Nat) (q : FlQual) (s : State) : State :=
  let s1 := if q.shifts = 0 then s else ((s.inc F.FL_RETRYOK).set1 F.FL_STAT_RETRYF).wr F.FL_ERRADDR_ADDR a
  if min (s.rd F.FL_ECCCFG_THR) 8 < q.corr then
    fire 178 ((((s1.inc F.FL_ECCHIGHS).wr F.FL_ERRADDR_ADDR a).wr F.FL_LASTRD_CORR q.corr).wr F.FL_LASTRD_SHIFT q.shifts)
  else s1

/-- The report of an uncorrectable read (R326). -/
def uncReport (a : Nat) (s : State) : State := fire 179 ((s.inc F.FL_ECCUNCS).wr F.FL_ERRADDR_ADDR a)

/-- A read of the main array or the fine area keeps the ECC logic busy for 300 µs (R342, notes/assumptions/59.md). -/
def flRead (s : State) : State := s.modFl fun f => { f with readAge := busyTicks }

/-- A tick of XK32 passes for the ECC logic (R342). -/
def flTick (s : State) : State := s.modFl fun f => { f with readAge := f.readAge - 1 }

/-- A read waits for the array that is being erased: the erase suspends at the end of its slice (R329). -/
def flReadWaits (s : State) : State := if s.rd F.FL_STAT_STATE = 3 then s.modFl fun f => { f with rdWait := true } else s

/-- The wait of a read for its array, counted (R328). -/
def flBank (a : Nat) (s : State) : State :=
  let s1 := flRead s
  if s1.arrayBusy a then (flReadWaits s1).inc F.FL_BANK_WAIT
  else if s1.arrayOpen a then (if bitOf s1.free.1 0 then s1.free.2.inc F.FL_BANK_WAIT else s1.free.2)
  else s1

/-- The wait of a read for its array, and for a slice of the ECC partition (R328, R342). -/
def flWait (a : Nat) (s : State) : State := flBank a (bistHold 15 s)

/-- A fetch of flash by a burner is permitted: every enabled region that covers the address names it owner (R330). -/
def State.xoFetch (s : State) (b a : Nat) : Bool := (s.xoAt a).all fun n => s.rd (F.FL_XO_OWNER n) == b

/-! ### The erase journal (R336, R337) -/

/-- The address of word i of journal sector j. -/
def jAddr (j i : Nat) : Nat := 0x540000 + j % 2 * 0x800 + 8 * i

/-- Word i of journal sector j. -/
def State.jWord (s : State) (j i : Nat) : Nat := s.leAt (jAddr j i) 8

/-- An erased word. -/
def erasedWord : Nat := 2 ^ 64 - 1

/-- The sequence number of a journal sector's valid header. -/
def State.jSeq (s : State) (j : Nat) : Option Nat :=
  let w := s.jWord j 0
  if bitsOf w 56 8 = 0x5A ∧ bitsOf w 32 24 = 0 then some (w % 2 ^ 32) else none

/-- The current journal sector: the valid header with the highest SEQ (R336). -/
def State.jCurrent (s : State) : Option Nat :=
  match s.jSeq 0, s.jSeq 1 with
  | none, none => none
  | some _, none => some 0
  | none, some _ => some 1
  | some a, some b => if a < b then some 1 else some 0

/-- A journal word takes its place at the end of the current sector, which holds 256 words. -/
def jAppend (w : Nat) (s : State) : State :=
  match s.fl.jcur with
  | none => s
  | some j =>
    if 256 ≤ s.fl.jused then s
    else flWork ((s.setLe (jAddr j s.fl.jused) 8 w).modFl fun f => { f with jused := f.jused + 1 })

/-- A Start word. -/
def startWord (u count : Nat) : Nat := 2 ^ 60 + u * 2 ^ 52 + count % 2 ^ 24
/-- A Complete word. -/
def completeWord (u : Nat) (slow : Bool) (pulses count : Nat) : Nat :=
  2 * 2 ^ 60 + u * 2 ^ 52 + b2n slow * 2 ^ 50 + pulses % 256 * 2 ^ 40 + count % 2 ^ 24
/-- A Retire word. -/
def retireWord (u cause count : Nat) : Nat := 3 * 2 ^ 60 + u * 2 ^ 52 + cause % 4 * 2 ^ 24 + count % 2 ^ 24
/-- The snapshot word of units u and u + 1. -/
def snapWord (u : Nat) (a b : FlUnit) : Nat :=
  4 * 2 ^ 60 + u * 2 ^ 52 + b2n a.ret * 2 ^ 51 + b2n a.slow * 2 ^ 50 + b2n b.ret * 2 ^ 49 + b2n b.slow * 2 ^ 48 +
    a.count % 2 ^ 24 * 2 ^ 24 + b.count % 2 ^ 24

/-- The journal has fewer than 4 free words, or no sector is current. -/
def State.jFull (s : State) : Bool := s.fl.jcur.isNone || 256 - s.fl.jused < 4

/-- A unit's bytes are erased. -/
def eraseBytes (u : Nat) (s : State) : State :=
  let lo := unitBase u
  let hi := lo + unitSize u
  { s with mem := eraseRange s.mem lo hi }.modFl fun f => { f with
    qual := eraseRange f.qual lo hi
    metas := eraseRange f.metas lo hi }

/-- Compaction: the other sector is erased, takes the snapshot and the Start words of half-erased units, and its header last
(R337). -/
def jCompact (s : State) : State :=
  let other := match s.fl.jcur with | some 0 => 1 | _ => 0
  let seq := match s.fl.jcur with | some j => (s.jSeq j).getD 0 + 1 | none => 0
  let u := 64 + other
  let s1 := setUnit u { s.unit u with count := (s.unit u).count + 1 } (eraseBytes u s)
  let s2 := (List.range 104).foldl (fun s i => s.setLe (jAddr other (i + 1)) 8
    (snapWord (2 * i) (s.unit (2 * i)) (s.unit (2 * i + 1)))) s1
  let halves := (List.range 208).filter fun u => (s2.unit u).half
  let s3 := halves.foldl (fun s u => jAppend (startWord u (s.unit u).count) s)
    (s2.modFl fun f => { f with jcur := some other, jused := 105 })
  flWork (s3.setLe (jAddr other 0) 8 (0x5A * 2 ^ 56 + seq % 2 ^ 32))

/-- A journal word read back at the scan. -/
def jScanWord (w : Nat) (s : State) : State :=
  let u := bitsOf w 52 8
  let c := w % 2 ^ 24
  match bitsOf w 60 4 with
  | 1 => setUnit u { s.unit u with half := true, count := c } s
  | 2 => setUnit u { s.unit u with half := false, slow := bitOf w 50, count := c } s
  | 3 => setUnit u { s.unit u with half := false, ret := true, count := c } s
  | 4 =>
    setUnit (u + 1) { count := w % 2 ^ 24, ret := bitOf w 49, slow := bitOf w 48 }
      (setUnit u { count := bitsOf w 24 24, ret := bitOf w 51, slow := bitOf w 50 } s)
  | _ => s

/-- The words of the current sector that are in use: up to the last one that is not erased. -/
def State.jLast (s : State) (j : Nat) : Nat :=
  (List.range 256).foldl (fun n i => if s.jWord j i = erasedWord then n else i + 1) 0

/-- The journal scan at a release of a reset of the core domain: counters and flags are rebuilt and READY sets (R337). -/
def journalScan (s : State) : State :=
  let s0 := ((s.modFl fun f => { f with units := [], jcur := s.jCurrent, jused := 0 }).clr F.FL_RETMAIN_UNIT).clr
    F.FL_HALFMAIN_UNIT
  match s0.fl.jcur with
  | none => s0.set1 F.FL_STAT_READY
  | some j =>
    let n := s0.jLast j
    let s1 := (List.range n).foldl (fun s i => if i = 0 then s else jScanWord (s.jWord j i) s) s0
    (s1.modFl fun f => { f with jused := n }).set1 F.FL_STAT_READY

/-- The most pulses an erase of a unit takes (R337). -/
def maxPulses (u : Nat) : Nat := if u < 64 then 40 else 20

/-- The Start word of an erase: the unit is half-erased from here on (R337). -/
def eraseStart (u : Nat) (s : State) : State :=
  let x := s.unit u
  setUnit u { x with half := true } (jAppend (startWord u x.count) s)

/-- The Complete word of an erase of n pulses: the unit's count, what FL_ERASEINFO shows of it, and the warning of a slow erase
(R337, R339). -/
def eraseComplete (u n : Nat) (s : State) : State :=
  let x := s.unit u
  let slow := decide ((if u < 64 then s.rd F.FL_WEARCFG_SLOWP else s.rd F.FL_WEARCFG_SLOWPF) < n)
  let c := (x.count + 1) % 2 ^ 24
  let s1 := setUnit u { x with count := c, half := false, slow := slow } (jAppend (completeWord u slow n c) s)
  let s2 := (s1.wr F.FL_ERASEINFO_PULSES n).wr F.FL_ERASEINFO_COUNT c
  if slow then fire 181 (s2.set1 F.FL_STAT_ERASE_SLOW) else s2

/-- A unit is retired: its Retire word, in a journal that has none current compacted first, events 177 and 182, its count (R338,
notes/assumptions/79.md). -/
def flRetired (u cause : Nat) (s0 : State) : State :=
  let s := if s0.fl.jcur.isNone || 256 ≤ s0.fl.jused then jCompact s0 else s0
  let x := s.unit u
  let s1 := setUnit u { x with ret := true, half := false } (jAppend (retireWord u cause x.count) s)
  fire 182 ((if cause = 2 then s1 else fire 177 s1).inc F.FL_RETIRES)

/-- What an erase leaves in a unit that it could not erase: every byte, and of a main block the metadata of every page, is open
(R338, notes/assumptions/32.md). -/
def openUnit (u : Nat) (s : State) : State :=
  let s1 := openBytes (unitBase u) (unitSize u) s
  (List.range (if u < 64 then 128 else 0)).foldl (fun s i =>
    s.free.2.modFl fun f => { f with metas := insert f.metas (unitBase u + 512 * i) (s.free.1 % 2 ^ 128) }) s1

/-- An erase of the device's own starts, in a journal with room for its words (R337). -/
def ownStart (u : Nat) (s : State) : State := eraseStart u (if s.jFull then jCompact s else s)

/-- An erase of the device's own that passes its verify; after how many pulses is open (R337, notes/assumptions/31.md). -/
def journaledErase (u : Nat) (s : State) : State :=
  let s1 := ownStart u s
  eraseComplete u (s1.free.1 % maxPulses u + 1) (eraseBytes u s1.free.2)

/-- What an operation in progress has done once its program has ended: a page or a word, or a word of the journal (R337, R338). -/
def flProgrammed (s : State) : State :=
  match s.rd F.FL_STAT_STATE, s.fl.op, s.fl.stamp with
  | 5, some (.page p d m0 m1), _ => putPage p d (m0 + 2 ^ 64 * m1) s
  | 5, some (.word p d), _ => s.setLe p 8 d
  | 2, some (.erase u), .start => eraseStart u s
  | 2, some (.erase u), .complete => eraseComplete u s.fl.pulses s
  | 2, some (.erase u), .retire cause => flRetired u cause s
  | 2, some (.retire u cause _), _ => flRetired u cause s
  | _, _, _ => s

/-- The arrays as a read at an address finds them: one that waits comes after the program in progress (R328). -/
def flWaited (a : Nat) (s : State) : State :=
  if s.arrayBusy a then
    let t := flProgrammed s
    { s with mem := t.mem, fl := { t.fl with works := s.fl.works } }
  else s

/-- n bytes of flash, whatever they are: corrected data or an uncorrectable read, recorded (R324 to R326, R328). -/
def flCells (a n : Nat) (s : State) : FlRead × State :=
  let s1 := flWait a s
  let v := flWaited a s1
  let q1 := v.cellQual a
  let q2 := v.cellQual (a + n - 1)
  if q1.unc || q2.unc then (.unc, uncReport (if q1.unc then a else a + n - 1) s1)
  else
    let s2 := cellReport a q1 s1
    let s3 := if cellBase (a + n - 1) = cellBase a then s2 else cellReport (a + n - 1) q2 s2
    (.data (leNat ((List.range n).map fun i => v.flByte (a + i))), s3)

/-- A data read of flash by an accessor: an execute-only region reads 00h and is recorded (R330). -/
def flDataRead (acc a n : Nat) (s : State) : FlRead × State :=
  match s.xoAt a ++ s.xoAt (a + n - 1) with
  | [] => flCells a n s
  | k :: _ =>
    (.data 0, fire 180 ((((s.inc F.FL_XOREADS).wr F.FL_XOSTAT_REGION k).wr F.FL_XOSTAT_ACCESSOR acc).wr F.FL_XOSTAT_ADDR a))

/-- Erases of the device's own that pass, one after the other. -/
def eraseUnits (l : List Nat) (s : State) : State := l.foldl (fun s u => journaledErase u s) s

/-- A unit takes programs and erases: neither it nor the ECC partition is retired (R338, R342). -/
def State.takesWork (s : State) (u : Nat) : Bool := !(s.unit u).ret && !s.on F.FL_STAT_RET

/-- An erase of the device's own, which a retired unit and a retired ECC partition refuse; after how many pulses it passes its verify,
and whether it does, is open (R337, R338, R342, notes/assumptions/31.md). -/
def ownErase (u : Nat) (s : State) : State :=
  if !s.takesWork u then s
  else
    let s1 := ownStart u s
    let n := s1.free.1 % (maxPulses u + 1)
    if n = maxPulses u then flRetired u 0 (openUnit u s1.free.2) else eraseComplete u (n + 1) (eraseBytes u s1.free.2)

/-- A program of the device's own in the fine area: whether it passes its verify is open, and one that does not leaves open bytes and
retires its sector (R338, notes/assumptions/31.md). Says whether it passed. -/
def ownProgram (a : Nat) (d : List Byte) (s : State) : Bool × State :=
  let s1 := s.free.2
  if bitOf s.free.1 0 then (true, flWork (s1.setBytes a d)) else (false, flRetired (unitOf a) 1 (openBytes a d.length s1))

/-! ### Commands (R332, R333) -/

/-- Who issues a command: an accessor, or a task (secure). -/
abbrev Issuer := Option Nat

/-- The security maps close an address to an issuer. -/
def State.closedFor (s : State) (who : Issuer) (a : Nat) : Bool :=
  match who with | some acc => s.closedTo acc a | none => false

/-- An address lies in SRAM, in a bank that is not retired (R25, R461). -/
def State.sramAt (s : State) (a : Nat) : Bool :=
  match region a with
  | .sram b => !bitOf (s.rd F.BIST_MEMRET_BANK) b
  | _ => false

/-- The n ≤ 512 bytes from a on lie in SRAM. -/
def State.inSram (s : State) (a n : Nat) : Bool := s.sramAt a && s.sramAt (a + n - 1)

/-- An address is aligned and lies where the command's targets lie. -/
def flTargetOk (op a : Nat) : Bool :=
  match op with
  | 1 => a < 0x400000 && a % 512 == 0
  | 2 => a < 0x400000 && a % 0x10000 == 0
  | 3 => 0x540000 ≤ a && a < 0x580000 && a % 8 == 0
  | 4 => 0x540000 ≤ a && a < 0x580000 && a % 0x800 == 0
  | 5 => a < 0x400000 && a % 512 == 0
  | 6 => a < 0x400000 && a % 0x10000 == 0
  | 7 => (a < 0x400000 && a % 0x10000 == 0) || (0x540000 ≤ a && a < 0x580000 && a % 0x800 == 0)
  | _ => false

/-- A fine sector is protected (R323, R331). -/
def State.fineProt (s : State) (n : Nat) : Bool :=
  n ≤ 1 || (4 ≤ n && n ≤ 7 && s.fuse.callock) ||
    (if n < 64 then bitOf (s.rd F.FL_WPFINE0_WP) n else bitOf (s.rd F.FL_WPFINE1_WP) (n - 64))

/-- A region with WP = 1 covers a byte of the target (R330). -/
def State.xoProt (s : State) (a n : Nat) : Bool :=
  (List.range 8).any fun k =>
    let lo := s.rd (F.FL_XO_BASE k) * 0x1000
    s.on (F.FL_XO_EN k) && s.on (F.FL_XO_WP k) && s.rd (F.FL_XO_SIZE k) != 0 && lo < a + n &&
      a < lo + s.rd (F.FL_XO_SIZE k) * 0x1000

/-- The target of a program, erase or retirement is protected. -/
def State.flProt (s : State) (op a : Nat) : Bool :=
  if a < 0x400000 then bitOf (s.rd F.FL_WPMAIN_WP) (a / 0x10000) || s.xoProt a (if op = 1 then 512 else 0x10000)
  else s.fineProt ((a - 0x540000) / 0x800)

/-- The next programmable page of the block at an address; 128 when none is left. The page that the controller keeps after a search
is the one a search would find: only programs and erases change what the pages hold (R332; notes/assumptions/30.md). -/
def State.nextPage (s : State) (blk : Nat) : Nat :=
  (List.range 128).foldl (fun n i => if s.pageErased (blk + 512 * i) then n else i + 1) 0

/-- A command as its registers stand (R332). -/
def State.flIssue (s : State) (who : Issuer) (op : Nat) : FlCmd :=
  ⟨who, op, s.rd F.FL_ADDR_ADDR, s.rd F.FL_SRC_ADDR, s.rd (F.FL_META_META 0), s.rd (F.FL_META_META 1), s.rd F.FL_WDATA_DATA⟩

/-- A program or erase is in progress for whose end an operation of the Larder waits (R335). -/
def State.flRuns (s : State) : Bool := s.fl.op.isSome || (s.upd.prog.isSome && !s.upd.again)

/-- The code a command is refused with, 0 for none (R333). -/
def State.flCode (s : State) (c : FlCmd) : Nat :=
  let who := c.who
  let op := c.op
  let a := c.addr
  let src := c.src
  let u := s.unit (unitOf a)
  let writes := op = 1 ∨ op = 2 ∨ op = 3 ∨ op = 4
  if s.on F.FL_STAT_BUSY ∨ s.on F.FL_STAT_LARPEND ∨ s.on F.UPD_STAT_INSTALLING ∨ s.upd.clearing ∨ s.flRuns then 1
  else if !flTargetOk op a ∨ (op = 1 ∧ !s.inSram src 512) then 2
  else if s.closedFor who a ∨ (op = 1 ∧ (s.closedFor who src ∨ s.closedFor who (src + 511))) then 3
  else if (writes ∨ op = 7) ∧ s.flProt op a then 4
  else if writes ∧ u.ret then 5
  else if (op = 1 ∨ op = 3) ∧ u.half then 6
  else if op = 1 ∧ a % 0x10000 / 512 ≠ s.nextPage (a / 0x10000 * 0x10000) then 7
  else if op = 3 ∧ !s.wordErased a then 8
  else if (writes ∨ op = 7) ∧ s.on F.PWR_STAT_NVILOW then 9
  else if op ≠ 5 ∧ op ≠ 6 ∧ s.on F.FL_STAT_RET then 10
  else 0

/-- A refusal (R333). -/
def flRefuse (code : Nat) (s : State) : State :=
  let s1 := s.wr F.FL_RESULT_CODE code
  fire 176 (if code = 9 then fire 183 (s1.inc F.FL_NVI_REFUSED) else s1.inc F.FL_REFUSED)

/-- A command ends (R333, R340). -/
def flEnd (code : Nat) (s : State) : State :=
  fire 176 ((((s.modFl fun f => { f with op := none, pulses := 0 }).clr F.FL_STAT_STATE).clr F.FL_STAT_BUSY).wr
    F.FL_RESULT_CODE code)

/-- An operation starts in a controller state. -/
def flBegin (op : FlOp) (st : Nat) (stamp : FlStamp) (s : State) : State :=
  (((flWork s).modFl fun f => { f with op := some op, stamp := stamp, pulses := 0 }).wr F.FL_STAT_STATE st).set1 F.FL_STAT_BUSY

/-- The corrected metadata of a page, reported as any read is; none where the page cannot be corrected, of which the spec states no
metadata (R324 to R327, R331; notes/assumptions/84.md). -/
def readMeta (a : Nat) (s : State) : Option Nat × State :=
  let s1 := flBank a s
  let q := s1.cellQual a
  if q.unc then (none, uncReport a s1)
  else
    (some (if s1.pageErased a then 2 ^ 128 - 1 else (lookup s.fl.metas a).getD (2 ^ 128 - 1)), cellReport a q s1)

/-- An accepted command starts; RDMETA and FINDNEXT end at once (R331, R332, R337, R340). -/
def flAccept (c : FlCmd) (s : State) : State :=
  let a := c.addr
  match c.op with
  | 1 => flBegin (.page a (s.ramBytes c.src 512) c.m0 c.m1) 5 .start (segHold c.src 512 s)
  | 3 => flBegin (.word a c.data) 5 .start s
  | 5 =>
    match readMeta a s with
    | (some m, s1) => flEnd 0 ((s1.wr (F.FL_RMETA_META 0) (m % 2 ^ 64)).wr (F.FL_RMETA_META 1) (m / 2 ^ 64))
    | (none, s1) => flEnd 0 ((s1.wrFree (F.FL_RMETA_META 0)).wrFree (F.FL_RMETA_META 1))
  | 6 =>
    let n := s.nextPage a
    flEnd 0 ((s.wrB F.FL_NEXT_FULL (n == 128)).wr F.FL_NEXT_PAGE n)
  | 7 => flBegin (.retire (unitOf a) 2 0) 2 (.retire 2) s
  | _ => flBegin (.erase (unitOf a)) (if s.jFull then 1 else 2) .start s

/-- A command is checked and started, or refused (R333). -/
def flTake (c : FlCmd) (s : State) : State :=
  let code := s.flCode c
  if code = 0 then flAccept c s else flRefuse code s

/-- A flash command as it is issued: during a slice of the ECC partition it waits for the slice's end (R42, R459). -/
def flCmd (who : Issuer) (op : Nat) (s : State) : State :=
  let c := s.flIssue who op
  if s.bistPart = some 15 then (s.modFl fun f => { f with cmds := f.cmds ++ [c] }).inc F.BIST_HOLD else flTake c s

/-- The end of a slice of the ECC partition: the commands that waited are taken, in order (R459). -/
def flSliceEnd (s : State) : State := s.fl.cmds.foldl (fun s c => flTake c s) (s.modFl fun f => { f with cmds := [] })

/-! ### Progress (R337 to R340) -/

/-- A page or word program ends; a failed verify leaves open data and retires the unit (R338, R340). -/
def flProgEnd (ok : Bool) (s : State) : State :=
  if s.rd F.FL_STAT_STATE ≠ 5 then s
  else
    match s.fl.op with
    | some (.page a _ _ _) =>
      let s1 := flProgrammed s
      if ok then flEnd 0 (flWork s1) else flBegin (.retire (unitOf a) 1 11) 2 (.retire 1) (openBytes a 512 s1)
    | some (.word a _) =>
      if ok then flEnd 0 (flWork (flProgrammed s)) else flBegin (.retire (unitOf a) 1 11) 2 (.retire 1) (openBytes a 8 s)
    | _ => s

/-- Journal compaction is done: the Start stamp follows (R337, R340). -/
def flCompactEnd (s : State) : State :=
  if s.rd F.FL_STAT_STATE = 1 then (jCompact s).wr F.FL_STAT_STATE 2 else s

/-- A Start, Complete or Retire word is programmed (R337 to R340). -/
def flStampEnd (s : State) : State :=
  if s.rd F.FL_STAT_STATE ≠ 2 then s
  else
    match s.fl.op, s.fl.stamp with
    | some (.erase _), .start => (flProgrammed s).wr F.FL_STAT_STATE 3
    | some (.erase _), .complete => flEnd 0 (flProgrammed s)
    | some (.erase _), .retire _ => flEnd 11 (flProgrammed s)
    | some (.retire _ _ code), _ => flEnd code (flProgrammed s)
    | _, _ => s

/-- An erase leaves its pulses for a stamp; the reads that waited for its array go on (R329, R340). -/
def flPulsesOver (stamp : FlStamp) (s : State) : State :=
  (s.modFl fun f => { f with stamp := stamp, rdWait := false }).wr F.FL_STAT_STATE 2

/-- An erase pulse and its verify end: the verify passes, the erase goes on, or the unit is retired after the last pulse
(R337 to R340). -/
def flErasePulse (pass : Bool) (s : State) : State :=
  if s.rd F.FL_STAT_STATE ≠ 3 then s
  else
    match s.fl.op with
    | some (.erase u) =>
      let n := s.fl.pulses + 1
      let s1 := s.modFl fun f => { f with pulses := n }
      if pass then flPulsesOver .complete (eraseBytes u (flWork s1))
      else if maxPulses u ≤ n then flPulsesOver (.retire 0) (openUnit u (flWork s1))
      else s1
    | _ => s

/-- The end of a slice of 20 µs: an erase for whose array a read waits suspends, and the reads that waited complete (R329). -/
def flSuspend (s : State) : State :=
  if s.rd F.FL_STAT_STATE = 3 && s.fl.rdWait then (s.modFl fun f => { f with rdWait := false }).wr F.FL_STAT_STATE 4 else s

/-- A suspended erase goes on in the core cycle after no read of its array waits (R329). -/
def flResume (s : State) : State := if s.rd F.FL_STAT_STATE = 4 && !s.fl.rdWait then s.wr F.FL_STAT_STATE 3 else s

/-- A page whose program was cut short is torn: it does not read (R324, R340). -/
def tornPage (p : Nat) (s : State) : State := s.modFl fun f => { f with qual := insert f.qual p { unc := true } }

/-- A reset of the core domain ends the operation without events: a page program leaves a torn page, a word program open
data; an erase leaves its unit half-erased (R340, R341); a journal word whose programming is cut short is not in the journal, and a
compaction cut short leaves the sectors as they were (DEDUCED, notes/assumptions/96.md). -/
def flReset (s : State) : State :=
  let s1 := match s.fl.op with
    | some (.page a _ _ _) => if s.rd F.FL_STAT_STATE = 5 then tornPage a s else s
    | some (.word a _) =>
      if s.rd F.FL_STAT_STATE = 5 then { s.setBytes a (s.freeBytes 8).1 with freeSeq := s.freeSeq + 8 } else s
    | _ => s
  let ret := s1.on F.FL_STAT_RET
  (({ s1.resetPage 0x50F with fl := { s1.fl with op := none, pulses := 0, rdWait := false, cmds := [] } }).wrB F.FL_STAT_RET ret)

/-- A reset of the always-on domain also ends the retirement of the ECC partition (R342). -/
def flResetAon (s : State) : State := (flReset s).resetPage 0x50F

end Sys2Proof.Machine
end

