-- ==== Sys2Proof/Machine/MacOps.lean ====
section
/-! DEFINITION. The link MAC (spec/09_link_mac.md): the steps of a received frame (R236 to R240), acknowledgement (R241 to
R244), attempts, backoff and the ack wait (R247 to R250), receive windows (R252 to R256), beacons (R257 to R259), cut-
through at the column ports (R287), and the MAC's commit, Rest and reset (R260 to R262). -/

namespace Sys2Proof.Machine

/-- Changes the MAC's hidden state. -/
def State.modMac (s : State) (f : MacState → MacState) : State := { s with mac := f s.mac }

/-! ### The RX request and the commit boundary -/

/-- The MAC holds the RX request: LISTEN, an ack wait, the hold of R250, a window or its lead (R249, R250, R254, R256). -/
def State.macHolds (s : State) : Bool :=
  s.on F.MAC_CTL_EN && (s.on F.MAC_CTL_LISTEN || s.on F.MAC_STAT_AWAIT || s.mac.pwin || !s.mac.wins.isEmpty ||
    !s.mac.leads.isEmpty)

/-- The MAC sets the RX request; one that stands stays whose it is (R185). -/
def macHold (s : State) : State :=
  if s.on F.FE_STAT_RXREQ then s else feRxReq (s.modMac fun m => { m with rxOwn := true })

/-- The MAC clears the RX request unless it still holds it. -/
def macClear (s : State) : State := if s.macHolds then s else feRxRel (s.modMac fun m => { m with rxOwn := false })

/-- The MAC's own RX request ends unless the MAC still holds it; one that software set stands (R185). -/
def macRelease (s : State) : State := if s.mac.rxOwn then macClear s else s

/-- The consistency rules of a MAC commit (R260). -/
def macCheck (s : State) : Nat :=
  let badProf (p : Nat) : Bool :=
    let k := s.rd (F.MAC_PROF_K p).stg
    let n := s.rd (F.MAC_PROF_NPRE p).stg
    k < 5 || 12 < k || n < 8 || 64 < n || s.rd (F.MAC_PROF_RATE p).stg == 3
  let badSched (en per cyc : Fld) : Bool := s.on en.stg && (s.rd per.stg == 0 || s.rd per.stg ≤ s.rd cyc.stg)
  if (List.range 8).any badProf then 1
  else if badSched F.MAC_BCN_EN F.MAC_BCN_PER F.MAC_BCN_CYC ||
      (List.range 32).any (fun i => badSched (F.MAC_WAKE_EN i) (F.MAC_WAKE_PER i) (F.MAC_WAKE_CYC i)) then 2
  else if s.rd F.MAC_RETRY_BEMAX.stg < s.rd F.MAC_RETRY_BEMIN.stg || 8 < s.rd F.MAC_RETRY_BEMAX.stg then 3
  else if s.rd F.MAC_SHORT_ADDR.stg == 0xFFFF ||
      (List.range 8).any (fun g => bitOf (s.rd F.MAC_FILT_GRPEN.stg) g && s.rd (F.MAC_GRP_ADDR g).stg == 0xFFFF) then 4
  else 0

/-- The MAC's commit boundary: no attempt in progress, no ack owed, no window open, or the MAC off (R260). -/
def macCommit (s : State) : State :=
  if !s.on F.MAC_CTL_EN || (s.mac.tx.isNone && s.mac.owed.isEmpty && s.mac.wins.isEmpty) then
    commitWith 0x50C macCheck s
  else s

/-- A write of MAC_CTL's EN or LISTEN: the RX request follows (R256). -/
def macListen (s : State) : State :=
  if s.on F.MAC_CTL_EN && s.on F.MAC_CTL_LISTEN then macHold s else macRelease s

/-! ### Receiving (R236 to R240) -/

/-- A frame matches unicast (R237). -/
def State.macUnicast (s : State) (f : MacFrame) : Bool :=
  match f.dst with
  | .short a => a != 0xFFFE && a == s.rd F.MAC_SHORT_ADDR
  | .ext e => e == s.rd F.MAC_EXT_EUI
  | .none => false

/-- A frame matches a group, broadcast or its location (R237). -/
def State.macOther (s : State) (f : MacFrame) : Bool :=
  match f.dst, f.loc with
  | .short a, _ => s.isGroup a || (a == 0xFFFF && s.on F.MAC_FILT_BCAST)
  | .none, some (code, d) => s.on F.MAC_FILT_LOCEN && codesAgree d code (s.rd F.MAC_LOC_CODE)
  | _, _ => false

/-- How the replay window classifies a counter (R238). -/
inductive Replay where
  | fresh | dup | old
  deriving DecidableEq, Repr

/-- The replay check of counter n against the window of context c (R238). -/
def State.replay (s : State) (c n : Nat) : Replay :=
  let hw := s.ctxLe c 20 4
  if !s.ctxFlag c 1 || hw < n then .fresh
  else if hw ≤ n + 63 then (if bitOf (s.ctxLe c 24 8) (hw - n) then .dup else .fresh)
  else .old

/-- The window of context c takes an accepted counter (R238). -/
def replayAccept (c n : Nat) (s : State) : State :=
  let hw := s.ctxLe c 20 4
  let bm := s.ctxLe c 24 8
  if !s.ctxFlag c 1 then ((s.setCtxFlag c 1 true).setCtx c 20 4 n).setCtx c 24 8 1
  else if hw < n then
    (s.setCtx c 20 4 n).setCtx c 24 8 ((if 64 ≤ n - hw then 0 else bm * 2 ^ (n - hw) % 2 ^ 64) ||| 1)
  else s.setCtx c 24 8 (orBit bm (hw - n))

/-- A context's TXK takes a value; event 174 at a change (R318). -/
def setTxk (c : Nat) (v : Bool) (s : State) : State :=
  if s.ctxFlag c 5 = v then s else fire 174 (s.setCtxFlag c 5 v)

/-- AUTOROT: a frame whose tag passed under KIDX ≠ TXK with a counter above HW, or before the window started, switches TXK
(R318). -/
def autoRot (c : Nat) (f : MacFrame) (s : State) : State :=
  if s.on F.CIPH_CTL_AUTOROT && f.slv != 0 && f.kidx != b2n (s.ctxFlag c 5) &&
      (!s.ctxFlag c 1 || s.ctxLe c 20 4 < f.fcnt) then setTxk c (f.kidx == 1) s
  else s

/-- An average moves an eighth of the way to a new value, rounded toward zero; the first value is taken whole (R271). -/
def movAvg (first : Bool) (old new : Int) : Int := if first then new else old + Int.tdiv (new - old) 8

/-- The context of a delivered frame is updated (R271). -/
def ctxDelivered (c : Nat) (r : Option RxFrame) (s : State) : State :=
  let first := s.ctxLe c 52 2 == 0
  let s1 := match r with
    | none => s
    | some x =>
      let rssi := movAvg first (signed (s.ctxLe c 48 2) 16) (signed x.rssi 16)
      let snr := clampInt (-128) 127 (movAvg first (signed (s.ctxLe c 50 1) 8) (signed x.snr 16))
      (s.setCtx c 48 2 (ofInt rssi 16)).setCtx c 50 1 (ofInt snr 8)
  (s1.incCtx c 52).setCtx c 60 4 (s1.rd F.TB_NOW_MCN)

/-- An ack falls due for a radio frame that asks for one and matched unicast (R241, R242). -/
def oweAck (f : MacFrame) (uni : Bool) (src : Option Nat) (r : Option RxFrame) (s : State) : State :=
  match r with
  | none => s
  | some x =>
    if s.on F.MAC_CTL_AUTOACK && f.ar && uni then
      (s.modMac fun m => { m with owed := m.owed ++
        [{ ofs := s.rd (F.LANE_OFS_OFS x.lane), k := x.k, bw := x.bw, rate := x.rate, fcnt := f.fcnt, ctx := src }] }).set1
        F.MAC_STAT_ACKOWED
    else s

/-- A beacon from the time parent is delivered to the timebase (R258, R259). FFFEh names no parent (R231). -/
def macBeaconRx (f : MacFrame) (body : List Byte) (r : Option RxFrame) (s : State) : State :=
  match r, f.src with
  | some x, .short a =>
    if s.rd F.MAC_TPAR_ADDR = 0xFFFF ∨ (a ≠ 0xFFFE ∧ a = s.rd F.MAC_TPAR_ADDR) then
      tbBeaconRx ⟨leNat (body.take 6), x.ts, leNat ((body.drop 7).take 4), leNat ((body.drop 6).take 1) % 4⟩ s
    else s
  | _, _ => s

/-- Step 4 fails: MAC_SECFAIL and event 149, with the engine's own counts (R236, R301, R302). -/
def micFailed (m : MicRes) (s : State) : State :=
  let s1 := match m with
    | .noKey => s.inc F.CIPH_KEYERR
    | .badTag => fire 170 (s.inc F.CIPH_TAGFAILS)
    | _ => s
  fire 149 (s1.inc F.MAC_SECFAIL)

/-- A frame that cuts through as it goes out, built over a payload (R277, R287). -/
def State.cutBuild (s : State) (x : CutThru) (typ : Nat) (loc : Option (Nat × Nat)) (payload : List Byte) : List Byte :=
  let slv := s.ctxSlv x.ctx
  let txk := b2n (s.ctxFlag x.ctx 5)
  let hdr := mkHdr (mkFc slv s.ownSrc (s.ctxDst x.ctx) txk loc.isSome x.pend false typ) x.fcnt (s.ctxDst x.ctx) s.ownSrc loc
  if slv = 0 then hdr ++ payload
  else match s.ctxSlot x.ctx txk with
    | some k => s.sealFrame k slv x.fcnt hdr payload
    | none => hdr ++ payload

/-- A cut-through is over: its source frame or its egress has ended. -/
def cutOver (x : CutThru) (s : State) : State := s.modFwd fun y => { y with cuts := y.cuts.filter (· ≠ x) }

/-- A frame that cut through has its egress use, whose transmission goes on; its class pays L, which is known now (R281, R287,
notes/assumptions/92.md). -/
def cutUse (n : Nat) (x : CutThru) (s : State) : State :=
  match s.frame n with
  | none => s
  | some f =>
    let e : QEnt :=
      { num := n, port := x.egress, cls := x.cls, ctx := some x.ctx, len := s.egressLen f x.ctx,
        data := s.cutBuild x f.typ f.loc ((s.frameBytes f).drop f.hlen) }
    let s1 := creditPay x.egress x.cls e.len (cutOver x s)
    if x.lost then s1
    else (s1.modFrame n fun f => { f with uses := f.uses + 1 }).modFwd fun y => { y with txs := y.txs ++ [e] }

/-- The decision of a frame that cut through: event 161 without a context, a COPY route also delivers it locally, and its egress goes
on (R273, R274, R287). -/
def cutDecide (n : Nat) (x : CutThru) (s : State) : State :=
  let s1 := if ((s.frame n).bind (·.src)).isNone then fire 161 s else s
  let s2 := match (s1.frame n).bind (·.loc) with
    | some (code, d) =>
      match s1.route code d with
      | some i => if bitOf (s1.tab 0 i) 57 then fwdLocal n (bitsOf (s1.tab 0 i) 54 3) true s1 else s1
      | none => s1
    | none => s1
  fwdSettle n (cutUse n x s2)

/-- The frame that comes in at a port cuts through. -/
def State.cutOf (s : State) (port : Nat) : Option CutThru := s.fwd.cuts.find? fun c => c.ingress == port && !c.bad

/-- Steps 5 and 6 of R236 for a data or command frame whose tag has passed: the replay window, the buffer, the delivery. -/
def macDeliver (port : Nat) (f : MacFrame) (plain : List Byte) (src key : Option Nat) (uni promisc : Bool)
    (knext : Bool) (r : Option RxFrame) (s : State) : State :=
  let verdict := match key with | some c => s.replay c f.fcnt | none => .fresh
  let left (s : State) : State := if f.slv = 0 then s else fwdResidue port (f.hdr ++ plain) s
  match verdict with
  | .dup => oweAck f uni src r (fire 147 ((left s).inc F.MAC_DUP))
  | .old => fire 148 ((left s).inc F.MAC_REPLAY)
  | .fresh =>
    let s1 := match key with | some c => autoRot c f s | none => s
    match fwdAccept port (f.hdr ++ plain) s1 with
    | (none, s2) => s2
    | (some n, s2) =>
      let s3 := match key with | some c => replayAccept c f.fcnt s2 | none => s2
      let s4 := fire 136 (s3.inc F.MAC_RXOK)
      let s5 := match src with | some c => ctxDelivered c r s4 | none => s4
      let s6 := oweAck f uni src r s5
      let s7 := s6.modFrame n fun g => { g with
        hlen := f.hdr.length, src := src, typ := f.typ, loc := f.loc, knext := knext }
      match s7.cutOf port with
      | some x => cutDecide n x s7
      | none => fwdDecide n f.dst promisc s7

/-- The steps of R236 for a frame on a port; r carries the reception of a radio frame (R236 to R240). -/
def macSteps (port : Nat) (bytes : List Byte) (r : Option RxFrame) (s : State) : State :=
  if !s.on F.MAC_CTL_EN then s
  else
    match parseFrame bytes with
    | none => s.inc F.MAC_FMTERR
    | some f =>
      let chkBad := match r with | some x => x.chk != f.slv | none => false
      if chkBad then s.inc F.MAC_FMTERR
      else if f.typ = 1 then s
      else
        let uni := s.macUnicast f
        let hit := uni || s.macOther f
        let promisc := r.isSome && !hit
        if r.isSome && f.typ != 2 && !hit && !s.on F.MAC_FILT_PROMISC then s.inc F.MAC_FILTDROP
        else
          let src := s.findCtx f.src
          let key := s.keyCtx f src
          let knext := match key with | some c => f.kidx != b2n (s.ctxFlag c 5) | none => false
          if f.slv ≠ 0 ∧ src = none then s.inc F.MAC_NOKEY
          else
            let s1 := if knext then fire 162 s else s
            match s1.micCheck f src key with
            | .ok plain =>
              if f.typ = 2 then
                if bodyOk plain then macBeaconRx f plain r s1 else s1.inc F.MAC_FMTERR
              else macDeliver port f plain src key uni promisc knext r s1
            | .badTag => micFailed .badTag (fwdResidue port (f.hdr ++ List.replicate f.payload.length 0) s1)
            | m => micFailed m s1

/-- A frame passes the steps of R236; on a column port the source of a cut-through that is not delivered has ended bad (R287). -/
def macTake (port : Nat) (bytes : List Byte) (r : Option RxFrame) (s : State) : State :=
  if port = 1 ∨ port = 2 then cutBad port bytes (macSteps port bytes r s) else macSteps port bytes r s

/-- A frame reaches the MAC, which a self-test slice of the MAC or of the forwarding engine makes wait, and a secured one a slice of the
cipher engine (R42, R263, R296, R320, R459). -/
def macReceive (port : Nat) (bytes : List Byte) (r : Option RxFrame) (s : State) : State :=
  if s.fwdSliced || s.bistPart == some 12 || (s.ciphSliced && secured bytes) then fwdWait (.frame port bytes r) s
  else macTake port bytes r s

/-- The MAC frame of a reception: without its CRC-32 where it carries one (R232). -/
def RxFrame.macBytes (x : RxFrame) : List Byte := if x.chk = 0 then x.payload.take (x.payload.length - 4) else x.payload

/-- A delivered radio frame is a well-formed ack (R233). -/
def RxFrame.isAck (x : RxFrame) : Bool :=
  match parseFrame x.macBytes with
  | some f => f.typ == 1 && x.chk == 0
  | none => false

/-- The first frame the modem has delivered passes the steps of R236; a well-formed ack is left to MAC_ACK_RX. -/
def macRxFrame (s : State) : State :=
  match s.mod.rxq with
  | [] => s
  | x :: t => if x.isAck then s else macReceive 0 x.macBytes (some x) { s with mod := { s.mod with rxq := t } }

/-! ### Transmitting (R245 to R250) -/

/-- The attempt in progress is over: TXACT and AWAIT clear, and a waiting commit may find its boundary. -/
def macTxDone (s : State) : State :=
  macCommit (macRelease (((s.modMac fun m => { m with tx := none }).clr F.MAC_STAT_TXACT).clr F.MAC_STAT_AWAIT))

/-- A frame ends acked or sent: event 137 (R248). -/
def macSuccess (x : MacTx) (result : Nat) (s : State) : State :=
  fwdSent x.q (macTxDone (fire 137 (txResult result x.attempts s)))

/-- A frame fails: event 138 and MAC_TXFAILS (R248). -/
def macFail (x : MacTx) (result : Nat) (s : State) : State :=
  fwdFailed x.q (macTxDone (fire 138 ((txResult result x.attempts s).inc F.MAC_TXFAILS)))

/-- A frame in sending as it was built, with what it has been through. -/
def MacTx.built (x : MacTx) : Built :=
  { bytes := x.frame, fcnt := x.fcnt, slv := x.slv, ar := x.ar, attempts := x.attempts, fails := x.fails, busies := x.busies }

/-- A frame returns unsent (R248, R286). -/
def macReturn (x : MacTx) (result reason : Nat) (s : State) : State :=
  fwdReturned x.q x.built reason (macTxDone (txResult result x.attempts s))

/-- The instant of the next slot of context c's peer whose aligned start is not past (R248, R252, R255). -/
def State.slotNext (s : State) (c : Nat) : Nat :=
  let t := s.now + s.tbUnc
  let e := s.peerSched c
  (t + instantFrom (t % 2 ^ 48) e.per e.cyc e.frac) % 2 ^ 48

/-- After a failed attempt or a busy assessment a backoff is drawn from the noise source (R248). -/
def macBackoff (x : MacTx) (s : State) : State :=
  let n := x.fails + 1
  let be := min (s.rd F.MAC_RETRY_BEMIN + n - 1) (s.rd F.MAC_RETRY_BEMAX)
  let y := { x with fails := n, backoff := s.free.1 % 2 ^ be, slot := if x.sched then x.q.ctx.map s.slotNext else none,
                    due := false, phase := .backoff, late := none }
  macTxDone (s.free.2.modMac fun m => { m with waits := m.waits ++ [y] })

/-- An attempt has failed: another follows while MAX allows, else the frame fails (R248). -/
def macAttemptFailed (x : MacTx) (result : Nat) (s : State) : State :=
  if x.ar && x.attempts < s.rd F.MAC_RETRY_MAX + 1 then macBackoff x s else macFail x result s

/-- The frame of the attempt in progress takes a phase. -/
def macPhase (x : MacTx) (s : State) : State := s.modMac fun m => { m with tx := some x }

/-- The assessment over the 2T before the planned preamble: the highest energy seen, and whether a slot left IDLE (R247). -/
def macCca (pwr : Nat) (left : Bool) (s : State) : State :=
  match s.mac.tx with
  | none => s
  | some x =>
    if x.phase ≠ .assess then s
    else
      let mode := s.rd F.MAC_CCA_MODE
      let lane := s.matchLane x.ofs x.bw x.k
      let loud := decide (signed (s.rd F.MAC_CCATHR_THR) 16 < signed pwr 16)
      let busy := lane.isSome && ((bitOf mode 0 && loud) || (bitOf mode 1 && left))
      if busy then
        let s1 := chanFault 3 (s.centre x.ofs) (fire 150 (s.inc F.MAC_CCABUSYS))
        let y := { x with busies := x.busies + 1 }
        if s.rd F.MAC_RETRY_CCAMAX < y.busies then macFail y 4 s1 else macBackoff y s1
      else macPhase { x with phase := .clear, lane := lane } s

/-- An attempt that the radio must yield to another use leaves the radio free, and is offered again from its assessment on (R42,
R251). -/
def macPark (x : MacTx) (s : State) : State :=
  macTxDone (s.modMac fun m => { m with waits := m.waits ++ [{ x with due := true, phase := .backoff }] })

/-- An attempt starts after a clear assessment: the front end is asked for TX (R165, R190, R248), unless the radio must yield since. -/
def macTxAttempt (s : State) : State :=
  match s.mac.tx with
  | none => s
  | some x =>
    if x.phase ≠ .clear || s.fe.req.isSome then s
    else if x.ar && x.lane.isNone then macReturn x 7 0 s
    else
      let r := x.req (s.rd F.MOD_NID_NID)
      match s.yieldsTo (s.radioUs r x.ar - s.ccaUs r) with
      | some k => txDefer k (macPark x s)
      | none => macPhase { x with phase := .sending } { s with fe := { s.fe with req := some r } }

/-- The aligned start of a retry toward a scheduled peer: r × 2T after that of the listen slot that came next at the failure, its preamble
lengthened by what the uncertainty is then (R248, R255). Time that comes to the slot on the way has the slot come (R252). One that was
deferred starts when it is offered again. -/
def retryAlign (x : MacTx) (s : State) : MacTx × State :=
  match x.slot, x.q.ctx with
  | some inst, some c => if x.due then ({ x with npre := s.preamble x.prof true }, s) else
    let s1 := if (s.now + s.peerIn c) % 2 ^ 48 = inst then peerSlot c s else s
    let s2 := timeTo ((inst + 2 ^ 48 - s1.tbUnc + s1.usFracs (x.backoff * 2 * symUs x.k x.bw)) % 2 ^ 48) s1
    ({ x with npre := s2.preamble x.prof true }, s2)
  | _, _ => (x, s)

/-- A backoff ends and the frame's next assessment begins, unless the radio has another attempt in progress, of rank 4 into a peer's
slot or else 5, a frame for a peer's slot waits before one of rank 5, or the radio must yield (R43, R248, R251). -/
def macBackoffEnd (num : Nat) (s : State) : State :=
  match s.mac.waits.find? fun x => x.q.num == num with
  | none => s
  | some x =>
    let r := retryAlign x s
    match r.2.mac.tx with
    | some y => retryDefer x r.1 (if y.sched then 4 else 5) r.2
    | none =>
      if !x.sched && r.2.slotWaits then retryDefer x r.1 4 r.2
      else match r.2.retryYields r.1 with
      | some k => retryDefer x r.1 k r.2
      | none => retryStart x r.1 r.2

/-- The slots of the matching lane that hold a reception, by number. -/
def State.comingOn (s : State) (lane : Option Nat) : List Nat :=
  match lane with
  | some n => ([0, 1].filter fun j => (s.slot n j).receiving).map fun j => 2 * n + j
  | none => []

/-- The attempt ends without an ack (R249). -/
def macNoAck (x : MacTx) (s : State) : State := macAttemptFailed x 3 (s.inc F.MAC_NOACK)

/-- The ack wait ends: receptions that began within it on the matching lane are awaited to their end, else there is no ack (R249). -/
def macAckTimeout (s : State) : State :=
  match s.mac.tx with
  | none => s
  | some x =>
    if x.phase ≠ .await ∨ x.late.isSome then s
    else
      let l := s.comingOn x.lane
      if l.isEmpty then macNoAck x s else macPhase { x with late := some l } s

/-- The receptions awaited past the ack wait have ended, and none of them is an ack still to be looked at: there is no ack (R249). -/
def ackLate (s : State) : State :=
  match s.mac.tx with
  | none => s
  | some x =>
    match x.late with
    | none => s
    | some l =>
      let still := l.filter fun k => (s.comingOn x.lane).contains k || s.mod.rxq.any fun r => 2 * r.lane + r.slot == k && r.isAck
      if still.isEmpty then macNoAck x s else macPhase { x with late := some still } s

/-- An ack that ended GOOD on the matching lane, from a reception that began within the wait, with the frame's counter ends the wait; any
other is ignored (R249, R250). -/
def macAckRx (s : State) : State :=
  match s.mod.rxq with
  | [] => s
  | r :: t =>
    if !r.isAck then s
    else
      let s0 := { s with mod := { s.mod with rxq := t } }
      match s0.mac.tx, parseFrame r.macBytes with
      | some x, some f =>
        if x.phase = .await ∧ x.lane = some r.lane ∧ f.fcnt = x.fcnt ∧ x.late.all (fun l => l.contains (2 * r.lane + r.slot)) then
          let s1 := (fire 139 s0).wrB F.MAC_TXSTAT_PEND f.pend
          let s2 := if f.pend && s.rd F.MAC_ACKCFG_PWIN != 0 then s1.modMac fun m => { m with pwin := true } else s1
          macSuccess x 1 s2
        else s0
      | _, _ => s0

/-- The hold after an ack with PEND ends (R250). -/
def pendHoldEnd (s : State) : State := macRelease (s.modMac fun m => { m with pwin := false })

/-! ### Acks (R242 to R244) -/

/-- The engine holds a frame queued for a context (R243). -/
def State.queuedFor (s : State) (c : Option Nat) : Bool :=
  match c with
  | some c => (s.fwd.queue ++ s.fwd.held).any fun e => e.ctx == some c
  | none => false

/-- The first owed ack leaves the list. -/
def ackPop (s : State) : State :=
  let s1 := s.modMac fun m => { m with owed := m.owed.drop 1 }
  macCommit (s1.wrB F.MAC_STAT_ACKOWED (!s1.mac.owed.isEmpty))

/-- At its start instant an owed ack asks the front end for TX, or is abandoned when another use holds it (R242 to R244). -/
def ackTxStart (s : State) : State :=
  match s.mac.owed with
  | [] => s
  | a :: _ =>
    if s.fe.req.isSome || s.fe.tx.isSome then (ackPop s).inc F.ACK_LOST
    else
      let r : TxReq := { kind := .ack, k := a.k, bw := a.bw, rate := a.rate, chk := 0, npre := 8, nid := s.rd F.MOD_NID_NID,
                         ofs := a.ofs, idx := s.rd F.MAC_ACKCFG_PWR,
                         payload := withCrc (ackFrame a.fcnt (s.queuedFor a.ctx)) }
      let s1 := { s with fe := { s.fe with req := some r } }
      ackPop (s1.modMac fun m => { m with ackTx := true })

/-! ### Beacons (R257, R258) -/

/-- The body of a beacon behind NT (R234). -/
def State.beaconRest (s : State) : List Byte :=
  leBytes 1 (s.rd F.TB_SWCTL_MODE % 4 % 3 + (if s.rd F.TB_STAT_STATE = tbGrid then 4 else 0)) ++
    leBytes 4 (s.rd F.TB_SWMCN_MCN) ++ leBytes 2 (s.rd F.MAC_BCN_PER) ++ leBytes 1 (s.rd F.MAC_BCNSEQ_SEQ + 1)

/-- A beacon: secured under the context of FFFFh where that has a level, else with the broadcast counter (R246, R300); none where no
slot is usable (R301). -/
def beaconBuild (s : State) : Option Beacon × State :=
  let src : Addr := .short (s.rd F.MAC_SHORT_ADDR)
  let plain (s : State) : Option Beacon × State :=
    let n := s.rd F.MAC_BCASTCNT_CNT
    (some { hdr := mkHdr (mkFc 0 src .none 0 false false false 2) n .none src none, slot := none, slv := 0, fcnt := n,
            rest := s.beaconRest }, s.wr F.MAC_BCASTCNT_CNT (n + 1))
  match s.findCtx (.short 0xFFFF) with
  | none => plain s
  | some c =>
    let slv := s.ctxSlv c
    if slv = 0 then plain s
    else
      let txk := b2n (s.ctxFlag c 5)
      let n := s.ctxLe c 16 4
      match s.usableSlot c txk useSend with
      | none => (none, s.inc F.CIPH_KEYERR)
      | some k =>
        if n = 0xFFFFFFFF then (none, fwdDrop F.FWD_CTREXH s)
        else
          (some { hdr := mkHdr (mkFc slv src .none txk false false false 2) n .none src none, slot := some k, slv := slv,
                  fcnt := n, rest := s.beaconRest }, txcntUp c s)

/-- The payload of a beacon that carries a time (R232, R234). -/
def State.beaconBytes (s : State) (b : Beacon) (nt : Nat) : List Byte :=
  let body := leBytes 6 nt ++ b.rest
  match b.slot with
  | none => withCrc (b.hdr ++ body)
  | some k => s.sealFrame k b.slv b.fcnt b.hdr body

/-- NT is latched and written into the body, from which the payload is coded (R258). -/
def beaconLatch (nt : Nat) (s : State) : State :=
  match s.fe.tx with
  | none => s
  | some t =>
    match t.req.bcn with
    | none => s
    | some b =>
      let r := { t.req with payload := s.beaconBytes b (nt % 2 ^ 48), bcn := none }
      txForm r { s with fe := { s.fe with tx := some { t with req := r, mark := none } } }

/-- A beacon's network mark comes nearer as network time advances; at its end NT takes the network time of that point, a slew in
progress included (R61, R258). -/
def markMeet : List TbAdv → State → State
  | [], s => s
  | a :: l, s =>
    match s.fe.tx.bind (·.mark) with
    | none => s
    | some m =>
      if m ≤ a.time then beaconLatch (phaseOf (a.pos m)) s
      else markMeet l { s with fe := { s.fe with tx := s.fe.tx.map fun t => { t with mark := some (m - a.time) } } }

/-- The mark of a beacon meets the advances of network time (R258). -/
def beaconMark (s : State) : State := markMeet s.tb.adv s

/-- The last payload symbol ends: the network mark lies before it, at the network time to which the count comes by then, a slew included
(R165, R258). -/
def macTxEnd (s : State) : State :=
  if s.fe_st = feTx then
    modemTxEnd (match s.fe.tx.bind (·.mark) with
      | some m => beaconLatch (phaseOf (s.tbLine.pos (s.tbLine.when s.tbPos + m))) s
      | none => s)
  else s

/-- A beacon is built and handed to the front end (R257). -/
def beaconGo (s : State) : State :=
  match beaconBuild s with
  | (none, s1) => s1
  | (some b, s1) =>
    let prof := s.rd F.MAC_BCN_PROF
    let r := s1.profReq .beacon prof (s1.rd (F.MAC_PROF_NPRE prof)) b.slv (s1.beaconBytes b 0)
    { s1 with fe := { s1.fe with req := some { r with bcn := some b } } }

/-- Beacons are sent secured: the broadcast context has a level. -/
def State.beaconSealed (s : State) : Bool := (s.findCtx (.short 0xFFFF)).any fun c => s.ctxSlv c != 0

/-- A beacon that the radio cannot take now is skipped (R42, R257). -/
def State.beaconBarred (s : State) : Bool := s.inRest || s.mac.ackTx || !s.mac.owed.isEmpty || s.fe.req.isSome

/-- A beacon that waited for the cipher engine (R459). -/
def beaconWaited (s : State) : State := if s.beaconBarred then s.inc F.BCN_SKIP else beaconGo s

/-- What a slice made wait is performed, in the order in which it came. -/
def fwdWaited (w : FwdWait) (s : State) : State :=
  match w with
  | .frame port bytes r => macTake port bytes r s
  | .alloc len => fwdAllocGo len s
  | .submit v code => fwdSubmitGo v code s
  | .start e => egressWaited e s
  | .beacon => beaconWaited s

/-- A slice of the MAC, of the forwarding engine or of the cipher engine has ended (R42). -/
def fwdSliceEnd (s : State) : State := s.fwd.waits.foldl (fun s w => fwdWaited w s) (s.modFwd fun x => { x with waits := [] })

/-- A beacon instant: a beacon is handed to the front end, or skipped; one that is to be secured waits during a slice of the cipher engine
(R257, R303, R459). -/
def beaconNow (s : State) : State :=
  if s.mac.skip then (s.modMac fun m => { m with skip := false }).inc F.BCN_SKIP
  else if s.beaconBarred then s.inc F.BCN_SKIP
  else if s.ciphSliced && s.beaconSealed then fwdWait .beacon s
  else beaconGo s

/-- The device has beacon instants (R257). -/
def State.beacons (s : State) : Bool := s.on F.MAC_CTL_EN && s.bcnOn

/-- Network time comes to the next beacon instant (R252, R257). -/
def beaconSlot (s : State) : State :=
  if s.beacons then
    let t := (s.now + s.instIn 64 0 s.beaconSched) % 2 ^ 48
    beaconNow (markActed 64 t (timeTo t s))
  else s

/-- Task 100: the next beacon instant is skipped (R257). -/
def beaconSkip (s : State) : State := s.modMac fun m => { m with skip := true }

/-! ### The front end's reports (R244, R248, R257) -/

/-- An attempt's transmission ends whole: the ack wait follows, or the frame is sent (R248, R249). -/
def dataEnded (x : MacTx) (s : State) : State :=
  let y := { x with attempts := x.attempts + 1 }
  if y.ar then macHold ((macPhase { y with phase := .await } s).set1 F.MAC_STAT_AWAIT) else macSuccess y 2 s

/-- The MAC learns what became of a TX request. -/
def macReport (s : State) : State :=
  match s.fe.report with
  | none => s
  | some rep =>
    let s0 := { s with fe := { s.fe with report := none } }
    match rep with
    | .ended .ack => macCommit (fire 140 (s0.modMac fun m => { m with ackTx := false }))
    | .aborted .ack => (s0.modMac fun m => { m with ackTx := false }).inc F.ACK_LOST
    | .refused .ack r =>
      (s0.modMac fun m => { m with ackTx := false }).inc (if r = 7 ∨ r = 8 then F.ACK_DUTY_DROP else F.ACK_LOST)
    | .ended .beacon => fire 142 (s0.incW F.MAC_BCNSEQ_SEQ)
    | .aborted .beacon => s0
    | .refused .beacon _ => s0.inc F.BCN_SKIP
    | .ended .data => match s0.mac.tx with | some x => dataEnded x s0 | none => s0
    | .aborted .data =>
      match s0.mac.tx with
      | some x => macAttemptFailed { x with attempts := x.attempts + 1 } 6 s0
      | none => s0
    | .refused .data r =>
      match s0.mac.tx with
      | some x => macReturn x 5 r (s0.wr F.MAC_TXSTAT_FEREASON r)
      | none => s0

/-! ### Receive windows (R252 to R254) -/

/-- Wake entry i has windows (R253). -/
def State.wakes (s : State) (i : Nat) : Bool := s.on F.MAC_CTL_EN && s.on (F.MAC_WAKE_EN i)

/-- A lead instant of wake entry i: event 144 and the RX request (R254). -/
def leadNow (i : Nat) (s : State) : State :=
  fire 144 (macHold (s.modMac fun m => { m with leads := m.leads.filter (· ≠ i) ++ [i] }))

/-- Network time comes to the next lead instant of wake entry i, LEAD µs before its window opens (R253, R254). -/
def wakeLead (i : Nat) (s : State) : State :=
  if s.wakes i then
    let d := s.instIn i (s.leadAfter 0) (s.wakeSched i)
    leadNow i (markActed i (s.now + d) (timeTo ((s.now + nearing s.now d s.leadAfter) % 2 ^ 48) s))
  else s

/-- A window opens for an instant, merging with any that is open, and with its guard of this moment takes its close; one whose opening
finds the device in Rest is skipped (R253, R254). -/
def openNow (i inst : Nat) (s : State) : State :=
  let s1 := s.modMac fun m => { m with leads := m.leads.filter (· ≠ i) }
  if s.inRest then macRelease (s1.inc F.MAC_WINSKIP)
  else
    let close := (inst + 16 * s.rd (F.MAC_WAKE_LEN i) + s.guardAfter 0) % 2 ^ 48
    let s2 := s1.modMac fun m => { m with
      wins := m.wins.filter (·.1 ≠ i) ++ [(i, close)]
      holders := if m.wins.isEmpty then [] else m.holders
      det := if m.wins.isEmpty then false else m.det }
    macHold ((s2.set1 F.MAC_STAT_WIN).wrB F.MAC_STAT_GUARDSAT (s.tbUnc == 0xFFFF))

/-- Network time comes to the opening of wake entry i's next window, the guard before its instant (R252, R253). -/
def windowOpen (i : Nat) (s : State) : State :=
  if s.wakes i then
    let d := s.instIn (32 + i) (s.guardAfter 0) (s.wakeSched i)
    openNow i (s.now + d) (markActed (32 + i) (s.now + d) (timeTo ((s.now + nearing s.now d s.guardAfter) % 2 ^ 48) s))
  else s

/-- The slots that hold an open window: those that left IDLE during it and are not back (R253). -/
def State.winHeld (s : State) : Bool := s.mac.holders.any fun k => (s.mod.slots.getD k {}).busy

/-- A window closes; with the last one event 145 if no DET came, and the RX request is cleared, whoever set it, unless the MAC still
holds it (R253, R254, R256). -/
def closeNow (w : Nat × Nat) (s : State) : State :=
  let s1 := s.modMac fun m => { m with wins := m.wins.filter (· ≠ w) }
  if s1.mac.wins.isEmpty then
    let s2 := s1.clr F.MAC_STAT_WIN
    macCommit (macClear (if s2.mac.det then s2 else fire 145 (s2.inc F.MAC_WINEMPTIES)))
  else s1

/-- Network time comes to the close of wake entry i's window, or has passed it; a slot may hold the window open (R253). -/
def windowClose (i : Nat) (s : State) : State :=
  match s.mac.wins.find? fun w => w.1 == i with
  | none => s
  | some w =>
    let s1 := timeTo w.2 s
    if s1.winHeld then s1 else closeNow w s1

/-- While a window is open: a slot that left IDLE since `old` holds it, and a DET is remembered (R253). -/
def winWatch (old : State) (s : State) : State :=
  if s.on F.MAC_STAT_WIN then
    let new := (List.range 16).filter fun k =>
      !(old.mod.slots.getD k {}).busy && (s.mod.slots.getD k {}).busy && !s.mac.holders.contains k
    let det := (List.range 8).any fun n => s.fired.contains (96 + 3 * n)
    s.modMac fun m => { m with holders := m.holders ++ new, det := m.det || det }
  else s

/-! ### Column ports and cut-through (R240, R287) -/

/-- An inline frame holds the cipher engine: a secured one that comes in on a column port, a lane or the host port, or whose tag has yet
to be checked, one that is sent on the radio or a column port, or that cuts through under a level (R303, notes/assumptions/93.md). -/
def State.inlineHeld (s : State) : Bool :=
  s.ciphUp && (([0, 1].any fun p => (s.cpx p).rx.any secured) || s.hp.tx.any (fun x => secured x.2) ||
    s.mod.slots.any (fun x => (x.st == .pay || x.st == .lost) && bitsOf x.hdr 12 2 != 0 && !x.gone) ||
    s.mod.rxq.any (fun x => x.chk != 0) || s.fwd.waits.any (fun w => match w with | .frame _ l _ => secured l | _ => false) ||
    s.fe.tx.any (fun t => t.req.chk != 0) ||
    s.fwd.txs.any (fun e => (e.port == 1 || e.port == 2) && secured e.data) || s.fwd.cuts.any (fun c => !c.lost && s.ctxSlv c.ctx != 0))

/-- The header of a column frame whose first bytes hold it whole, where it is in form. -/
def headOf (first : List Byte) : Option MacFrame :=
  let fc := leNat (first.take 2)
  let n := hdrLen fc
  if first.length < n then none
  else
    match takeApart (first.take n ++ List.replicate (micLen (bitsOf fc 12 2)) 0) with
    | some f => if (f.typ = 0 ∨ f.typ = 3) ∧ (f.dst ≠ .none ∨ f.loc ≠ none) then some f else none
    | none => none

/-- Where a column frame from another device would go, if that is one egress context: its context and class (R274). -/
def State.cutTarget (s : State) (f : MacFrame) (src : Option Nat) : Option (Nat × Nat) :=
  let node := s.rd F.SYS_ROLE_ROLE == 0
  if src.isNone && s.rd F.FWD_CFG_NOCTX != 2 then none
  else
    match f.loc with
    | none => if s.ownDst f.dst || node then none else (s.findCtx f.dst).map fun c => (c, s.ctxClass c)
    | some (code, d) =>
      if (d = 7 ∧ code = s.rd F.MAC_LOC_CODE) ∨ node then none
      else
        match s.route code d with
        | some i => if bitsOf (s.tab 0 i) 58 2 = 0 then some (bitsOf (s.tab 0 i) 32 9, bitsOf (s.tab 0 i) 54 3) else none
        | none => none

/-- Every condition of R287 but an idle egress, for ingress port i (1 or 2), egress port o, class q. -/
def State.cutReady (s : State) (i o q : Nat) (src : Option Nat) : Bool :=
  let k := 8 * o + q
  s.on F.FWD_CTL_EN && s.on F.MAC_CTL_EN && s.on F.FWD_CTL_CTEN && !s.on F.FWD_CTL_HOLDQ && s.cpSends (o - 1) &&
    s.qdepth o q == 0 && s.classOpen o q && s.lidFits o q (s.columnLid (o - 1) 1536 + s.lidGuard) && !bitOf (s.tabAct 7 k) 63 &&
    (match src with | some c => !s.ctxFlag c 6 | none => true) && s.lineRate (i - 1) ≤ s.lineRate (o - 1)

/-- The egress context can send: valid, its counter not exhausted, its key usable (R272, R273, R301). -/
def State.ctxSends (s : State) (c : Nat) : Bool :=
  s.ctxValid c && s.ctxLe c 16 4 != 0xFFFFFFFF &&
    (s.ctxSlv c == 0 || (s.usableSlot c (b2n (s.ctxFlag c 5)) useSend).isSome)

/-- The cut-through decision when a column frame's header is complete (R287). -/
def cutChoose (p : Nat) (first : List Byte) (s : State) : State :=
  match headOf first with
  | none => s
  | some f =>
    let src := s.findCtx f.src
    match s.cutTarget f src with
    | none => s
    | some (c, q) =>
      let o := s.ctxPort c
      let key := s.keyCtx f src
      let keyOk := f.slv == 0 || (src.isSome && (key.bind fun k => s.usableSlot k f.kidx useRecv).isSome)
      if o ≠ 2 - p ∨ !s.cutReady (p + 1) o q src ∨ !keyOk ∨ !s.ctxSends c then s
      else if !s.portIdle o || s.sealWaits o then fire 164 (s.inc F.CT_FALLBACK)
      else
        let x : CutThru := { ingress := p + 1, egress := o, ctx := c, cls := q, fcnt := s.ctxLe c 16 4,
                             pend := 0 < s.ctxLe c 58 2 }
        (txcntUp c (qcntUp (some c) (s.modFwd fun y => { y with cuts := y.cuts ++ [x] }))).inc F.FWD_CTOK

/-- A cut-through of this frame would need the cipher engine: it comes in secured, or would go out so (R287, R303). -/
def State.cutSealed (s : State) (first : List Byte) : Bool :=
  secured first || (headOf first).any fun f => (s.cutTarget f (s.findCtx f.src)).any fun x => s.ctxSlv x.1 != 0

/-- A column frame's header is complete: the decision, which a self-test slice of the engine makes wait, and one of the cipher engine where
it is needed (R287, R296, R459). -/
def cutThrough (p : Nat) (first : List Byte) (s : State) : State :=
  if s.fwdSliced || (s.ciphSliced && s.cutSealed first) then
    (s.modFwd fun x => { x with cutWait := x.cutWait.filter (· ≠ p) ++ [p] }).inc F.BIST_HOLD
  else cutChoose p first s

/-- The slice has ended: the decisions that waited are made of the frames that still come in (R296). -/
def cutSliceEnd (s : State) : State :=
  s.fwd.cutWait.foldl (fun s p =>
    match (s.cpx p).rx with
    | some l => if (s.cpx p).headed then cutChoose p l s else s
    | none => s) (s.modFwd fun x => { x with cutWait := [] })

/-- The slot and the source EUI-64 under which the engine deciphers a frame of a column port as it comes in: step 3 of R236 passes, step 4
will check its tag, and no slice keeps the frame waiting (R301, R302). -/
def State.comesUnder (s : State) (f : MacFrame) : Option (Nat × Nat) :=
  if f.slv = 0 || !s.on F.MAC_CTL_EN || !s.on F.FWD_CTL_EN || s.fwdSliced || s.ciphSliced || s.bistPart == some 12 then none
  else
    match s.findCtx f.src with
    | none => none
    | some c =>
      let eui := s.ctxLe c 0 8
      match (s.keyCtx f (some c)).bind fun k => s.usableSlot k f.kidx useRecv with
      | some k => if eui = 0 then none else some (k, eui)
      | none => none

/-- More bytes of a frame on column port p have come, its header whole: the payload among them enters cells, deciphered; of the last bytes
that have come the engine cannot tell yet whether they are the tag and the CRC-32 (R302). -/
def cellsCome (p : Nat) (l : List Byte) (s : State) : State :=
  match headOf l with
  | none => s
  | some f =>
    match s.comesUnder f with
    | none => s
    | some (k, eui) =>
      let body := (l.drop f.hdr.length).take (l.length - f.hdr.length - (micLen f.slv + 4))
      fwdCome (p + 1) (f.hdr ++ toBytes (ccmCrypt (s.slotKey k) (inlineNonce eui f.fcnt f.slv) (natBytes body))) s

/-- The plaintext payload of what has come of a frame that cuts through: its header taken apart, and the bytes behind it. -/
def State.cutPlain (s : State) (got : List Byte) (f : MacFrame) : List Byte :=
  let body := got.drop f.hdr.length
  let src := s.findCtx f.src
  match f.slv, (s.keyCtx f src).bind fun k => s.usableSlot k f.kidx useRecv with
  | 0, _ => body
  | _, none => body
  | _, some k =>
    let eui := match src with | some c => s.ctxLe c 0 8 | none => 0
    toBytes (ccmCrypt (s.slotKey k) (inlineNonce eui f.fcnt f.slv) (natBytes body))

/-- The bytes that go out of a frame that cuts through and will end with ABORT, over what has come of it (R210, R287). -/
def State.cutBytes (s : State) (x : CutThru) : List Byte :=
  let got := if x.bad then x.got else ((s.cpx (x.ingress - 1)).rx).getD []
  match headOf got with
  | none => []
  | some f => s.cutBuild x f.typ f.loc (s.cutPlain got f)

/-- A cut-through ends on its egress without its frame: it no longer counts for its context (R268). -/
def cutStop (x : CutThru) (s : State) : State := qcntDown (some x.ctx) (cutOver x s)

/-- The link of an egress went down under a cut-through: the frame that still comes in is received to its end and freed (R210, R286). -/
def cutLose (x : CutThru) (s : State) : State :=
  if x.bad then cutStop x s
  else qcntDown (some x.ctx) (s.modFwd fun y => { y with cuts := y.cuts.map fun c => if c = x then { c with lost := true } else c })

/-- The frame that port p sends whole. -/
def State.columnTx (s : State) (p : Nat) : Option QEnt := s.fwd.txs.find? fun e => e.port == p + 1

/-- The frame that cuts through to port p and is still on its way in, or has ended bad. -/
def State.cutOut (s : State) (p : Nat) : Option CutThru := s.fwd.cuts.find? fun c => c.egress == p + 1 && !c.lost

/-- The blocks of the frame that port p is sending, of one that cuts through those of what has come of it (R209, R287). -/
def State.frameOut (s : State) (p : Nat) : List Block :=
  match s.columnTx p, s.cutOut p with
  | some q, _ => frameBlocks (withFcs q.data)
  | none, some x => frameBlocks (s.cutBytes x)
  | none, none => []

/-- A frame is cut off while port p sends it: it has sent a part of its blocks that is open (R204, R210). -/
def columnPart (p : Nat) (s : State) : State :=
  let l := s.frameOut p
  if l.isEmpty then s else linkSend p (l.take (s.free.1 % (l.length + 1))) s.free.2

/-- The link went down: what was being sent is freed and counts in CP_TXABORT (R210, R286). -/
def columnCut (p : Nat) (s : State) : State :=
  if (s.cpx p).txCut then
    let s1 := s.modCp p fun x => { x with txCut := false }
    if s1.portIdle (p + 1) then s1
    else
      let s2 := columnTxEnd (p + 1) false ((columnPart p s1).inc (F.CP_TXABORT p))
      (s2.fwd.cuts.filter fun c => c.egress == p + 1 && !c.lost).foldl (fun s c => cutLose c s) s2
  else s

/-! ### Steps of network time (R42, R55) -/

/-- What a forward step passes over acts at once, and counts. -/
def lateAct (act : State → State) (s : State) : State := (act s).inc F.TB_LATE_FIRE

/-- An act of a schedule entry that a step passes over. -/
def passedAct (key early old new : Nat) (e : Sched) (act : Nat → State → State) (s : State) : State :=
  match s.instPassed key early old new e with
  | some t => lateAct (act t) (markActed key t s)
  | none => s

/-- The lead, the opening and the instant acts of every entry that a forward step passes over, with the guards of before it, then the
ends of slots and windows (R42, R55, notes/assumptions/91.md). -/
def macPassed (lead guard unc old new : Nat) (s : State) : State :=
  let wakes := (List.range 32).filter s.wakes
  let s1 := wakes.foldl (fun s i => passedAct i lead old new (s.wakeSched i) (fun _ => leadNow i) s) s
  let s2 := wakes.foldl (fun s i => passedAct (32 + i) guard old new (s.wakeSched i) (fun t => openNow i t) s) s1
  let s3 := if s2.beacons then passedAct 64 0 old new s2.beaconSched (fun _ => beaconNow) s2 else s2
  let peers := (List.range s3.nctx).filter fun c => s3.ctxSched c && s3.waitsFor c
  let s4 := peers.foldl (fun s c =>
    passedAct (128 + c) unc old new (s.peerSched c) (fun t => peerSlotNow c (s.slotEndAt c t)) s) s3
  let s5 := (s4.fwd.queue.filter fun e => s4.fwd.released.any fun d => d.1 == e.num && between48 d.2 old new).foldl
    (fun s e => lateAct (slotMissNow e) s) s4
  (s5.mac.wins.filter fun w => between48 w.2 old new).foldl
    (fun s w => if s.winHeld then s else lateAct (closeNow w) s) s5

/-- The MAC meets a step of network time, whose instants are those of the uncertainty before it (R55). -/
def macStepped (x : TbStep) (s : State) : State :=
  if later48 x.new x.old then
    let g := s.rd F.MAC_GUARD_G0 + x.unc
    macPassed (g + s.usFracs (s.rd F.MAC_LEAD_US)) g x.unc x.old x.new s
  else s

/-! ### Self-test (R263) -/

/-- An act of a schedule entry, `early` fractions before its instants, lies within 300 µs of now, ahead or behind. -/
def State.nearInst (s : State) (early : Nat) (e : Sched) : Bool :=
  let fr := s.usFracs 300
  let t := (s.now + early) % 2 ^ 48
  instantFrom t e.per e.cyc e.frac ≤ fr || instantBack t e.per e.cyc e.frac ≤ fr

/-- A lead instant or a beacon instant lies within 300 µs. -/
def State.macDemand (s : State) : Bool :=
  ((List.range 32).any fun i => s.wakes i && s.nearInst (s.leadAfter 0) (s.wakeSched i)) || (s.beacons && s.nearInst 0 s.beaconSched)

/-! ### Rest and reset (R261, R262) -/

/-- Rest entry: MAC_STAT is not held; frames in backoff go with the forwarding engine's. -/
def macRest (s : State) : State :=
  (s.resetRange 0x50C002 0x50C003).modMac fun m =>
    { m with tx := none, waits := [], owed := [], ackTx := false, holders := [], det := false, pwin := false, rxOwn := false }

/-- Rest exit: the RX request stands for a window whose lead instant came in Rest (R254). -/
def macWake (s : State) : State := if s.macHolds then macHold s else s

/-- A reset of the core domain: an attempt ends with RESULT 8, every owed ack ends, EN clears; the schedules' state stays (R262). -/
def macResetCore (s : State) : State :=
  let s1 := match s.mac.tx with | some x => txResult 8 x.attempts s | none => s
  let s2 := (((s1.clr F.MAC_STAT_TXACT).clr F.MAC_STAT_ACKOWED).clr F.MAC_STAT_AWAIT).clr F.MAC_CTL_EN
  { s2 with
    mac := { s2.mac with tx := none, waits := [], owed := [], ackTx := false, pwin := false, rxOwn := false }
    latches := s2.latches.filter fun l => l.page ≠ 0x50C
    holds := s2.holds.filter fun l => l.page ≠ 0x50C }

/-- A reset of the always-on domain (R262). -/
def macResetAon (s : State) : State := { s.resetPage 0x50C with mac := {} }

end Sys2Proof.Machine
end

