-- ==== Sys2Proof/Machine/LineOps.lean ====
section
/-! DEFINITION. What a column port does with the blocks of its line (spec/08_column_link.md): descrambling (R205), INFO blocks in
training (R213), ABORT blocks of a far end whose S5 failed (R215), codewords (R211), and the frames of a link with their endings, cut-
through and transmission (R209, R210, R287). -/

namespace Sys2Proof.Machine

/-! ### Frames received -/

/-- A frame that comes in is over without being delivered; a copy of it that cuts through is to end with ABORT (R210). -/
def lineBad (p : Nat) (l : List Byte) (f : State → State) (s : State) : State := f (cutBad (p + 1) l s)

/-- The bytes of a frame so far hold its whole header. -/
def headerWhole (l : List Byte) : Bool := 2 ≤ l.length && hdrLen (leNat (l.take 2)) ≤ l.length

/-- More bytes of a frame have come: too many discard it; with a whole header a secured one enters cells, and one whose header is now whole
may cut through (R210, R287, R302). -/
def lineBytes (p : Nat) (l : List Byte) (s : State) : State :=
  if 1536 < l.length then lineBad p l (cpRxDrop p (F.CP_LONG p)) s
  else
    let s0 := s.modCp p fun x => { x with rx := some l }
    let s1 := if headerWhole l then cellsCome p l s0 else s0
    if headerWhole l && !(s1.cpx p).headed then cutThrough p l (s1.modCp p fun x => { x with headed := true }) else s1

/-- A START block begins a frame (R209). -/
def lineStart (p : Nat) (l : List Byte) (s : State) : State :=
  let s1 := cpRxBegin p l s
  if (s1.cpx p).rx.isSome then lineBytes p l s1 else s1

/-- A TERMn block ends a frame; a good one passes the steps of R236 without its CRC-32 (R209, R210, R240). -/
def lineTerm (p : Nat) (l : List Byte) (s : State) : State :=
  if frameGood l then macReceive (p + 1) (l.take (l.length - 4)) none (cpRxTerm p l s) else lineBad p l (cpRxTerm p l) s

/-- A block of a link meets the frame in progress, or none (R210). -/
def frameAct (p : Nat) (k : BlockKind) (s : State) : State :=
  match (s.cpx p).rx, k with
  | none, .start l => lineStart p l s
  | none, _ => s
  | some r, .data l => lineBytes p (r ++ l) s
  | some r, .term l => lineTerm p (r ++ l) s
  | some r, .abort => lineBad p r (cpRxDrop p (F.CP_RXERRT p)) s
  | some r, .start l => lineStart p l (lineBad p r (cpRxBad p) s)
  | some r, _ => lineBad p r (cpRxBad p) s

/-! ### Codewords (R211) -/

/-- A block as a codeword keeps it, descrambled. -/
def Block.kept (b : Block) : LineBlock := ⟨BitVec.ofNat 2 b.hdr, BitVec.ofNat 64 b.word⟩

/-- The fifteen blocks of a codeword with the payload bytes that its decoder answers. -/
def codewordBlocks (l : List LineBlock) (bytes : List Nat) : List Block :=
  (List.range l.length).map fun i => ⟨(l.getD i ⟨0, 0⟩).hdr.toNat, leNat (toBytes ((bytes.drop (8 * i)).take 8))⟩

/-- An uncorrectable codeword: CP_RSUNC, one error of R221, and the frame in progress is discarded; its blocks are not looked at
(R210, R211, notes/assumptions/89.md). -/
def codewordBad (p : Nat) (s : State) : State :=
  let s1 := s.inc (F.CP_RSUNC p)
  cpError p (match (s1.cpx p).rx with
    | some r => lineBad p r (cpRxDrop p (F.CP_BLKERR p)) s1
    | none => s1)

/-- The parity block of a codeword: up to 4 bytes are corrected, each counted, and its blocks are met in order (R211). -/
def codewordRx (p : Nat) (b : Block) (s : State) : State :=
  let l := (s.cpx p).rxWord
  let s1 := s.modCp p fun x => { x with rxWord := [] }
  let w := (l.flatMap fun x => natBytes (leBytes 8 x.bits.toNat)) ++ natBytes (leBytes 8 b.word)
  let s2 := match rsDecode w with
    | none => codewordBad p s1
    | some (bytes, n) => (codewordBlocks l bytes).foldl (fun s b => frameAct p b.kind s) (s1.incBy (F.CP_RSCORR p) n)
  if b.hdr = 3 then s2 else frameAct p .invalid s2

/-! ### Blocks of the line -/

/-- A block of a link: ABORT before any other block means that the far end's S5 failed (R215); with the code on, fifteen blocks wait for
their parity block. -/
def linkBlock (p : Nat) (b : Block) (s : State) : State :=
  if (s.cpx p).young && b.kind == .abort then cpVerify p s
  else
    let s1 := s.modCp p fun x => { x with young := false }
    if !s1.on (F.CP_STAT_RSON p) then frameAct p b.kind s1
    else if (s1.cpx p).rxWord.length < 15 then s1.modCp p fun x => { x with rxWord := x.rxWord ++ [b.kept] }
    else codewordRx p b s1

/-- A descrambled block meets the port: INFO blocks while it listens and trains, ABORT in S5, frames on a link (R210, R213, R215). -/
def lineAct (p : Nat) (b : Block) (s : State) : State :=
  if s.cpUp p then linkBlock p b s
  else if s.cpTrains p && s.rd (F.CP_STAT_STAGE p) == 5 then (if b.kind = .abort then cpVerify p s else s)
  else
    match b.kind with
    | .info w => infoRx p w s
    | _ => s

/-- The port trains in S3 or S4, where both ends send. -/
def State.cpBoth (s : State) (p : Nat) : Bool :=
  s.cpTrains p && (s.rd (F.CP_STAT_STAGE p) == 3 || s.rd (F.CP_STAT_STAGE p) == 4)

/-- A block comes over the line: it is descrambled, and one that brings the first 23 bits after silence is not known whole (R205). In S3
and S4 the port sends a block in its time, whatever came (R204, R212). -/
def lineRx (p : Nat) (l : LineBlock) (s : State) : State :=
  if s.cpUp p || s.cpTrains p || s.cpSt p == cpListen then
    let b := fromLine l (s.cpx p).rxScr
    let s1 := s.modCp p fun x => { x with rxScr := b.2, rxSync := true }
    let s2 := if (s.cpx p).rxSync then lineAct p b.1 s1 else s1
    if s.cpBoth p && s2.cpBoth p then cpSendOne p s2 else s2
  else s

/-- Blocks come over the line, one after the other; a link that goes down with one cuts short what the port sends (R210). -/
def lineRxs (p : Nat) (l : List LineBlock) (s : State) : State := l.foldl (fun s b => columnCut p (lineRx p b s)) s

/-- What ends a received frame: the blocks that come next, or a loss of signal or block lock (R210). -/
def columnEnd (p : Nat) (e : CpEnding) (s : State) : State :=
  match e with
  | .blocks l => lineRxs p l s
  | .loss => cpLoss p s

/-! ### Frames sent (R209, R210) -/

/-- A frame that ends on the line: its blocks, and the IDLE blocks that follow, at least one (R209). -/
def withIdle (idle : Nat) (l : List Block) : List Block := l ++ List.replicate (idle + 1) idleBlock

/-- The blocks of a frame up to a number of them, then ABORT. -/
def cutShort (n : Nat) (f : List Byte) : List Block := (frameBlocks f).take n ++ [abortBlock]

/-- A frame that cuts through ends on its egress with ABORT; its class pays for what went through (R210, R281). -/
def cutAbort (p n idle : Nat) (x : CutThru) (s : State) : State :=
  let f := s.cutBytes x
  cutStop x (creditPay x.egress x.cls f.length (linkSend p (withIdle idle (cutShort n f)) s))

/-- A transmitted frame ends on port p: with TERMn, or with ABORT because the source of a cut-through ended bad or the next bytes were
not ready; IDLE blocks follow (R209, R210). -/
def cpTxDone (p : Nat) (e : CpTxEnding) (s : State) : State :=
  match e, s.columnTx p, s.cutOut p with
  | .term idle, some q, _ =>
    columnTxEnd (p + 1) true (fire (125 + 8 * p)
      (linkSend p (withIdle idle.toNat (frameBlocks (withFcs q.data))) (s.inc (F.CP_TXOK p))))
  | .badSource n idle, _, some x => if x.bad then cutAbort p n.toNat idle.toNat x s else s
  | .underrun n idle, some q, _ =>
    columnTxEnd (p + 1) false (linkSend p (withIdle idle.toNat (cutShort n.toNat (withFcs q.data))) (s.inc (F.CP_TXUNDER p)))
  | .underrun n idle, none, some x => if x.bad then s else cutAbort p n.toNat idle.toNat x (s.inc (F.CP_TXUNDER p))
  | _, _, _ => s

/-- A frame ends on port p; in HOLD the port sends nothing, and its frames wait for the loss of signal (R218). -/
def cpTxOver (p : Nat) (e : CpTxEnding) (s : State) : State := if s.on F.PWR_STAT_HOLD then s else cpTxDone p e s

end Sys2Proof.Machine
end

