-- ==== Sys2Proof/Machine/CipherOps.lean ====
section
/-! DEFINITION. The command path of the cipher engine and the Larder (spec/11_cipher_larder.md): the parameter sets (R304), the
functions of C2 and their checks (R305 to R309), slots (R311 to R313), persistent records and the wrap key (R314, R315),
alarms (R316, R317), key rotation (R318), Rest and reset (R319). -/

namespace Sys2Proof.Machine

/-- Changes the engine's hidden state. -/
def State.modCiph (s : State) (f : CiphState → CiphState) : State := { s with ciph := f s.ciph }

/-- Changes burner b's parameter set. -/
def State.modC2 (s : State) (b : Nat) (f : C2Set → C2Set) : State :=
  s.modCiph fun c => { c with sets := modAt {} c.sets b f }

/-! ### Parameters (R304) -/

/-- ALEN. -/
def C2Set.alen (x : C2Set) : Nat := x.num 10 2
/-- MLEN. -/
def C2Set.mlen (x : C2Set) : Nat := x.num 12 1
/-- DIR. -/
def C2Set.dir (x : C2Set) : Nat := x.num 13 1 % 2
/-- ATTR. -/
def C2Set.attr (x : C2Set) : Nat := x.num 14 1
/-- KEK. -/
def C2Set.kek (x : C2Set) : Nat := x.num 15 1
/-- NONCE. -/
def C2Set.nonce (x : C2Set) : List Nat := (x.par.drop 16).take 16
/-- TAG. -/
def C2Set.tag (x : C2Set) : List Nat := (x.par.drop 32).take 16

/-- The register numbers the set defines, STAT apart. -/
def c2Par (cr : Nat) : Bool := cr < 48 && cr != 3 && cr != 7

/-- The byte of STAT. -/
def C2Set.stat (x : C2Set) : Nat := b2n x.busy + 2 * b2n x.err + 4 * b2n x.abort + 8 * b2n x.tagok + 16 * x.code

/-- A CRD of a C2 register, where it is defined; while the command runs only STAT shows (R304). -/
def c2Read (x : C2Set) (cr : Nat) : Option Nat :=
  if cr = 48 then some x.stat else if c2Par cr then some (if x.busy then 0 else x.par.getD cr 0) else none

/-- A CWR of a C2 register: ignored at STAT and while the command runs (R304). -/
def c2Write (x : C2Set) (cr v : Nat) : C2Set := if x.busy || !c2Par cr then x else { x with par := setAt 0 x.par cr v }

/-! ### Functions (R305) -/

/-- A function's operand has a bit the function does not use (R97, R305). -/
def c2Illegal (fn opd : Nat) : Bool := 13 < fn || (fn ≤ 10 && 128 ≤ opd)

/-- An address lies in SRAM, in a bank that is not retired, or in the frame buffer (R307, R461). -/
def State.c2Mem (s : State) (x : Nat) : Bool := s.sramAt x || region x == .fbuf

/-- The bytes from a to a + n − 1 lie in SRAM or the frame buffer and are open to burner b (R307). -/
def State.c2Range (s : State) (b a n : Nat) : Bool :=
  n == 0 || (List.range (n / 0x1000 + 2)).all fun i =>
    let x := a + min (0x1000 * i) (n - 1)
    s.c2Mem x && !s.closedTo b x

/-- The input bytes of a function. -/
def C2Set.inLen (x : C2Set) (fn : Nat) : Nat :=
  if fn = 1 ∨ fn = 2 then x.alen + x.len else if fn ≤ 6 then x.len else 0

/-- The output bytes of a function. -/
def C2Set.outLen (x : C2Set) (fn : Nat) : Nat := if fn ≤ 2 then x.len else 0

/-- LEN, ALEN, MLEN and KEK are in range for a function (R304, R305). -/
def C2Set.parOk (x : C2Set) (fn : Nat) : Bool :=
  (6 < fn || x.len ≤ 32768) &&
  (!(fn == 1 || fn == 2) || (x.alen ≤ 1024 && (x.mlen == 4 || x.mlen == 8 || x.mlen == 16))) &&
  (!(fn == 3 || fn == 4) || (1 ≤ x.mlen && x.mlen ≤ 16)) &&
  (fn != 5 || x.len % 16 == 0) && (fn != 6 || x.kek ≤ 0x80)

/-- The usage bits a data function needs of its slot (R309). -/
def c2Use (fn : Nat) (x : C2Set) : Nat :=
  match fn with
  | 0 => if x.dir = 0 then 0x04 else 0x08
  | 1 => 0x14
  | 2 => 0x18
  | _ => 0x10

/-- The slot a context names for a SETK0 or SETK1 is not valid (R318). -/
def State.setkEmpty (s : State) (c k : Nat) : Bool :=
  match s.ctxSlot c k with
  | some n => !s.on (F.LAR_ATTR_VALID n)
  | none => true

/-- A narrowing keeps ALG, adds no usage bit and clears neither OWNER nor ALMERASE (R311). -/
def narrows (old new : Nat) : Bool :=
  new % 4 == old % 4 && bitsOf new 2 4 &&& bitsOf old 2 4 == bitsOf new 2 4 &&
    bitsOf new 6 2 &&& bitsOf old 6 2 == bitsOf old 6 2

/-- A C2 command of a burner, with what its checks read. -/
structure C2Call where
  b : Nat
  fn : Nat
  /-- The slot, or the context of a rotation. -/
  n : Nat
  x : C2Set
  deriving DecidableEq, Repr

/-- The world rules (R307 code 3): what an open burner names. -/
def State.c2World (s : State) (c : C2Call) : Bool :=
  let ctx := 11 ≤ c.fn
  !s.brnSecure c.b &&
    ((!ctx && bitOf (s.slotAttr c.n) 6) || (c.fn == 6 && c.x.kek < 128 && bitOf (s.slotAttr c.x.kek) 6) ||
      (ctx && s.on F.BRN_SECMEM_CTX) || (c.fn == 7 && bitOf c.x.attr 6))

/-- A slot whose key the command needs is not valid (R307 code 4). -/
def State.c2Empty (s : State) (c : C2Call) : Bool :=
  let void (k : Nat) : Bool := !s.on (F.LAR_ATTR_VALID k)
  ((c.fn ≤ 5 || c.fn == 8 || c.fn == 10) && void c.n) || (c.fn == 6 && c.x.kek < 128 && void c.x.kek) ||
    ((c.fn == 11 || c.fn == 12) && s.setkEmpty c.n (c.fn - 11))

/-- A slot lacks a usage or names no key length, or GEN names ALG 11b (R307 code 5). -/
def State.c2Usage (s : State) (c : C2Call) : Bool :=
  (c.fn == 7 && c.x.attr % 4 == 3) || (c.fn ≤ 5 && !s.slotOk c.n (c2Use c.fn c.x)) || (c.fn == 6 && c.x.kek < 128 && !s.slotOk c.x.kek 0x20)

/-- The attributes of GEN name no key length, NARROW would widen, or IMPORT has a length no wrapped block has (R311,
R312). -/
def State.c2BadAttr (s : State) (c : C2Call) : Bool :=
  (c.fn == 7 && !algOk c.x.attr) || (c.fn == 10 && !narrows (s.slotAttr c.n) c.x.attr) ||
    (c.fn == 6 && (c.x.len % 8 != 0 || c.x.len < 24))

/-- The code of the first check a command fails at its start, 0 for none (R307). -/
def State.c2Code (s : State) (c : C2Call) : Nat :=
  if !s.ciphUp then 1
  else if (c.fn = 6 ∨ c.fn = 7 ∨ c.fn = 8) ∧ s.on F.LAR_STAT_ALARM then 2
  else if s.c2World c then 3
  else if s.c2Empty c then 4
  else if s.c2Usage c then 5
  else if (c.fn = 6 ∨ c.fn = 7) ∧ s.on (F.LAR_ATTR_VALID c.n) then 6
  else if !s.c2Range c.b c.x.src (c.x.inLen c.fn) ∨ !s.c2Range c.b c.x.dst (c.x.outLen c.fn) then 7
  else if !c.x.parOk c.fn ∨ (11 ≤ c.fn ∧ s.nctx ≤ c.n) then 8
  else if s.c2BadAttr c then 10
  else if (c.fn = 8 ∨ (c.fn = 9 ∧ s.on (F.LAR_ATTR_PERS c.n))) ∧ s.on F.PWR_STAT_NVILOW then 11
  else 0

/-! ### How a command ends (R306, R308) -/

/-- The Larder writes flash: a PERSIST or a tombstone is in progress, or an erasure is pending (R314, R316). -/
def State.larBusy (s : State) : Bool :=
  s.on F.LAR_STAT_ERASING ||
    match s.ciph.op with
    | some o => o.fn == 8 || (o.fn == 9 && s.on (F.LAR_ATTR_PERS (o.opd % 128)))
    | none => false

/-- FL_STAT.LARPEND follows the Larder (R335). -/
def larSync (s : State) : State := s.wrB F.FL_STAT_LARPEND s.larBusy

/-- The command in progress ends: with a code, 0 for success, or aborted (R306, R307). -/
def c2Finish (code : Nat) (abort : Bool) (s : State) : State :=
  match s.ciph.op with
  | none => s
  | some o =>
    let bad := code != 0 || abort
    let s1 := ((s.modCiph fun c => { c with op := none }).modC2 o.burner fun x =>
      { x with busy := false, err := code != 0, abort := abort, code := code }).clr F.CIPH_STAT_BUSY
    let s2 := s1.modBx o.burner fun x => { x with c2bad := bad }
    let s3 := if o.fn = 6 then fire 173 (if code = 0 then s2 else s2.inc F.LAR_IMPFAIL) else s2
    let s4 := if code = 11 then fire 183 (s3.inc F.FL_NVI_REFUSED) else s3
    let s5 := fire 168 s4
    larSync (csyncRelease 2 o.burner bad (if bad then fire 169 s5 else s5))

/-- The code of the first check that the accepted command fails. -/
def State.c2OpCode (s : State) (o : C2Op) : Nat := s.c2Code ⟨o.burner, o.fn, o.opd % 512, s.c2Set o.burner⟩

/-- An accepted command starts once no inline frame holds the engine: its checks are made, and one that fails a check ends (R306,
R307). -/
def c2Go (s : State) : State :=
  match s.ciph.op with
  | none => s
  | some o =>
    if o.checked || s.inlineHeld then s
    else
      let code := s.c2OpCode o
      if code = 0 then larSync (s.modCiph fun c => { c with op := some { o with checked := true } }) else c2Finish code false s

/-- A CX to C2: turned away with T = 0 while a command runs; else the set is copied, T := 1, and the command starts or waits for the
inline frame that holds the engine, which is counted once (R305 to R307). -/
def c2Start (b fn opd : Nat) (s0 : State) : State :=
  if s0.ciph.op.isSome then s0.setT b false
  else
    let s1 := (s0.setT b true).modCiph fun c => { c with op := some { burner := b, fn := fn, opd := opd } }
    let s2 := ((s1.set1 F.CIPH_STAT_BUSY).wr F.CIPH_STAT_BURNER b).modC2 b fun x =>
      { x with busy := true, err := false, abort := false, tagok := false, code := 0 }
    if s0.inlineHeld then larSync (s2.inc F.CIPH_SW_WAIT) else c2Go s2

/-! ### Slots (R311 to R313) -/

/-- Slot k takes a key and attributes. -/
def slotFill (k key attr : Nat) (s : State) : State :=
  ((s.modCiph fun c => { c with keys := setAt 0 c.keys k key }).set1 (F.LAR_ATTR_VALID k)).wr (F.LAR_ATTR_ATTR k) attr

/-- Slot k becomes empty, its key bits zeroed. -/
def slotClear (k : Nat) (s : State) : State :=
  ((s.modCiph fun c => { c with keys := setAt 0 c.keys k 0 }).clr (F.LAR_ATTR_VALID k)).clr (F.LAR_ATTR_ATTR k)

/-- The expanded key of a KEK number: a slot or the device root key (R311, R312). -/
def State.kekKey (s : State) (kek : Nat) : AesKey :=
  if kek < 128 then s.slotKey kek else roundKeys (numBytes 32 Config.rootKey)

/-- The attribute block and key as wrapped data holds them (R312). -/
def keyBlock (attr key : Nat) : List Nat := attr :: List.replicate 7 0 ++ numBytes (algBytes attr) key

/-- Unwrapped data in the form R312 gives: its attribute byte and key. -/
def readBlock (l : List Nat) : Option (Nat × Nat) :=
  let attr := l.headD 0
  if algOk attr ∧ (l.drop 1).take 7 = List.replicate 7 0 ∧ l.length = 8 + algBytes attr then
    some (attr, bytesNum (l.drop 8))
  else none

/-- IMPORT ends: UNWRAP, WORLD or BADATTR, or the slot takes the key (R307, R312). -/
def c2Import (b k : Nat) (x : C2Set) (s : State) : State :=
  match keyUnwrap (s.kekKey x.kek) (natBytes (s.cellBytes x.src x.len)) with
  | none => c2Finish 9 false s
  | some l =>
    if !s.brnSecure b && bitOf (l.headD 0) 6 then c2Finish 3 false s
    else match readBlock l with
      | none => c2Finish 10 false s
      | some (attr, key) => c2Finish 0 false (slotFill k key attr s)

/-! ### Persistent records (R314, R315) -/

/-- The Larder wrap key: fused, or in the latch. -/
def State.lwk (s : State) : AesKey :=
  roundKeys (numBytes 32 (if s.on F.LARDER_POLICY_MODE then s.ciph.latch.getD 0 else Config.lwkFused))

/-- The place of a record that is erased. -/
def erasedRec : List Byte := List.replicate 64 0xFF

/-- The records of a half that lie in readable sectors, 32 to a sector: a half-erased one reads as nothing known (R314, R327). -/
def State.halfRecords (s : State) (h : Nat) : List (List Byte) :=
  let l := if h = 0 then s.ciph.recA else s.ciph.recB
  (List.range l.length).filterMap fun i =>
    if (s.unit (192 + 8 * h + i / 32)).half then none else l[i]?.filter (· != erasedRec)

/-- The records of both halves. -/
def State.records (s : State) : List (List Byte) := s.halfRecords 0 ++ s.halfRecords 1

/-- A record's sequence number. -/
def recSeq (r : List Byte) : Nat := leNat ((r.drop 2).take 4)

/-- A record's CRC is right and its slot exists. -/
def recOk (r : List Byte) : Bool := leNat ((r.drop 56).take 4) == crc32 (r.take 56) && leNat (r.take 1) < 128

/-- The newest valid record of slot k. -/
def State.newest (s : State) (k : Nat) : Option (List Byte) :=
  (s.records.filter fun r => recOk r && leNat (r.take 1) == k).foldl
    (fun a r => match a with | none => some r | some x => if recSeq x < recSeq r then some r else a) none

/-- A record marks a tombstone. -/
def recTomb (r : List Byte) : Bool := leNat ((r.drop 1).take 1) == 0

/-- A record of slot k, with the wrapped block, or a tombstone. -/
def mkRec (k attr seq : Nat) (wrapped : List Nat) : List Byte :=
  let body := leBytes 1 k ++ leBytes 1 attr ++ leBytes 4 seq ++ leBytes 2 0 ++
    toBytes (wrapped ++ List.replicate (48 - wrapped.length) 0)
  body ++ leBytes 4 (crc32 body) ++ leBytes 4 0

/-- One higher than any sequence number in the area. -/
def State.nextSeq (s : State) : Nat := s.records.foldl (fun n r => max n (recSeq r + 1)) 0

/-- The records of the current half. -/
def State.curRecs (s : State) : List (List Byte) := if s.ciph.half = 0 then s.ciph.recA else s.ciph.recB

/-- Changes the records of half h. -/
def modHalf (h : Nat) (f : List (List Byte) → List (List Byte)) (s : State) : State :=
  s.modCiph fun c => if h = 0 then { c with recA := f c.recA } else { c with recB := f c.recB }

/-- The records of sector i of a half take values; the places after the last record stay free. -/
def sectorRecs (i : Nat) (g : Nat → List Byte) (l : List (List Byte)) : List (List Byte) :=
  (((List.range (max l.length (32 * i + 32))).map fun k =>
    if k / 32 = i then g (k % 32) else l.getD k erasedRec).reverse.dropWhile (· == erasedRec)).reverse

/-- Sector u of the Larder area is erased, journalled; one whose erase fails is retired with open contents, and one that takes no work
stays as it is (R335, R337, R338, R342). -/
def larErase (s : State) (u : Nat) : State :=
  if !s.takesWork u then s
  else
    let h := (u - 192) / 8
    let i := (u - 192) % 8
    let s1 := ownErase u s
    if (s1.unit u).ret then
      let f := s1.freeBytes 2048
      modHalf h (sectorRecs i fun k => (f.1.drop (64 * k)).take 64) f.2
    else modHalf h (sectorRecs i fun _ => erasedRec) s1

/-- The sectors of half h. -/
def halfUnits (h : Nat) : List Nat := (List.range 8).map (192 + 8 * h + ·)

/-- The first free place of the current half, past sectors that take no program; 256 where none is left (R314, R338). -/
def State.recPlace (s : State) : Nat :=
  let n := s.curRecs.length
  ((List.range 256).find? fun k =>
    n ≤ k && !(s.unit (192 + 8 * s.ciph.half + k / 32)).ret && !(s.unit (192 + 8 * s.ciph.half + k / 32)).half).getD 256

/-- The bytes of a record come to place p of the current half. -/
def recAt (p : Nat) (r : List Byte) (s : State) : State :=
  modHalf s.ciph.half (fun l => l ++ List.replicate (p - l.length) erasedRec ++ [r]) s

/-- A record takes the next place of the current half, if one is left; whether its program passes its verify is open, and one that does
not leaves open bytes, retires its sector and is tried in the next that takes programs, n times at most (R338,
notes/assumptions/31.md). -/
def putTry : Nat → List Byte → State → State
  | 0, _, s => s
  | n + 1, r, s =>
    let p := s.recPlace
    if 256 ≤ p then s
    else if bitOf s.free.1 0 then recAt p r s.free.2
    else
      let f := s.free.2.freeBytes 64
      putTry n r (flRetired (192 + 8 * s.ciph.half + p / 32) 1 (recAt p f.1 f.2))

/-- A record is written: a half has eight sectors to try it in. -/
def putRec (s : State) (r : List Byte) : State := putTry 8 r s

/-- A full half: the other half is erased, takes the newest record of every slot that is no tombstone, and becomes the
current one (R314). -/
def swapHalf (s : State) : State :=
  if s.recPlace < 256 then s
  else
    let h := 1 - s.ciph.half
    let s1 := (halfUnits h).foldl larErase s
    let keep := (List.range 128).filterMap fun k => match s1.newest k with
      | some r => if recTomb r then none else some r
      | none => none
    keep.foldl putRec (s1.modCiph fun c => { c with half := h })

/-- A record is appended (R314). -/
def appendRec (k attr : Nat) (wrapped : List Nat) (s : State) : State :=
  let s1 := swapHalf s
  flWork (putRec s1 (mkRec k attr s1.nextSeq wrapped))

/-- Under MODE = 1 the first PERSIST that finds the latch empty draws the key (R315). -/
def latchDraw (s : State) : State :=
  if s.on F.LARDER_POLICY_MODE ∧ s.ciph.latch.isNone then
    ((s.free.2).modCiph fun c => { c with latch := some (s.free.1 % 2 ^ 256) }).set1 F.LAR_STAT_LWKOK
  else s

/-- PERSIST writes the slot's record (R314); with the ECC partition retired it ends without one (R342, notes/assumptions/101.md). -/
def persistSlot (k : Nat) (s : State) : State :=
  if s.on F.FL_STAT_RET then s else
  let s1 := latchDraw s
  let attr := s1.slotAttr k
  let w := keyWrap s1.lwk (keyBlock attr (s1.ciph.keys.getD k 0))
  (appendRec k attr w s1).set1 (F.LAR_ATTR_PERS k)

/-- ERASE: the slot is zeroed and empty, and a persisted one gets a tombstone, unless the ECC partition is retired (R305, R342,
notes/assumptions/101.md). -/
def eraseSlot (k : Nat) (s : State) : State :=
  if s.on (F.LAR_ATTR_PERS k) && !s.on F.FL_STAT_RET then (appendRec k 0 [] (slotClear k s)).clr (F.LAR_ATTR_PERS k) else slotClear k s

/-- The latch is destroyed (R315). -/
def latchDestroy (s : State) : State := (s.modCiph fun c => { c with latch := none }).clr F.LAR_STAT_LWKOK

/-- Every record is erased and no slot shows a live one. -/
def eraseRecords (s : State) : State :=
  (List.range 128).foldl (fun s k => s.clr (F.LAR_ATTR_PERS k)) ((halfUnits 0 ++ halfUnits 1).foldl larErase s)

/-- The flash works or is about to: a command, the Larder, an install or a CLEAR that the supply lets go on, a page of morsels, a record
of the boot state (R341, R342, R360). -/
def State.flBusy (s : State) : Bool :=
  s.on F.FL_STAT_BUSY || s.larBusy || s.flRuns || !s.upd.jw.isEmpty ||
    ((s.on F.UPD_STAT_INSTALLING || s.upd.clearing) && !s.on F.PWR_STAT_NVILOW)

/-- LAR_ERASED: a pending erasure ends while the supply is above VNVI and the flash takes erases (R316, R335, R342). -/
def larErased (s : State) : State :=
  if s.on F.LAR_STAT_ERASING && !s.on F.PWR_STAT_NVILOW && !s.flRuns && !s.on F.FL_STAT_RET then
    fire 172 (larSync ((eraseRecords s).clr F.LAR_STAT_ERASING))
  else s

/-- A slot is restored from its newest record; one whose unwrapping fails is not (R315). -/
def restoreSlot (k : Nat) (s : State) : State :=
  match s.newest k with
  | none => s
  | some r =>
    if recTomb r then s
    else
      let n := 16 + algBytes (leNat ((r.drop 1).take 1))
      match (keyUnwrap s.lwk (natBytes ((r.drop 8).take n))).bind readBlock with
      | some (attr, key) => (slotFill k key attr s).set1 (F.LAR_ATTR_PERS k)
      | none => s

/-- Restoration at the release of a reset of the always-on domain (R315, R316). -/
def larRestore (s : State) : State :=
  let s1 :=
    if s.on F.LAR_STAT_ERASING then s
    else if s.on F.LARDER_POLICY_MODE && s.ciph.latch.isNone then
      if s.records.isEmpty then s
      else if s.on F.PWR_STAT_NVILOW then (s.set1 F.LAR_STAT_LOST).set1 F.LAR_STAT_ERASING
      else fire 172 ((eraseRecords s).set1 F.LAR_STAT_LOST)
    else (List.range 128).foldl (fun s k => restoreSlot k s) s
  larSync (s1.set1 F.LAR_STAT_READY)

/-! ### Data (R305, R308) -/

/-- The burner's TAG takes bytes. -/
def putTag (b : Nat) (t : List Nat) (s : State) : State :=
  s.modC2 b fun x => { x with par := x.par.take 32 ++ t ++ x.par.drop (32 + t.length) }

/-- A tag check ends: TAGOK, or code 12, event 170 and CIPH_TAGFAILS (R308). -/
def tagEnd (b : Nat) (ok : Bool) (s : State) : State :=
  if ok then c2Finish 0 false (s.modC2 b fun x => { x with tagok := true })
  else c2Finish 12 false (fire 170 (s.inc F.CIPH_TAGFAILS))

/-- A data function ends (R305, R308). -/
def c2Data (o : C2Op) (x : C2Set) (s : State) : State :=
  let k := s.slotKey (o.opd % 128)
  let input := natBytes (s.cellBytes x.src (x.inLen o.fn))
  let ad := input.take x.alen
  let msg := input.drop x.alen
  let n := x.nonce.take 13
  match o.fn with
  | 0 => c2Finish 0 false (s.setBytes x.dst (toBytes (aesCtr k x.nonce input)))
  | 1 => c2Finish 0 false (putTag o.burner (ccmTag k n ad msg x.mlen) (s.setBytes x.dst (toBytes (ccmCrypt k n msg))))
  | 2 =>
    let p := ccmCrypt k n msg
    let ok := ccmTag k n ad p x.mlen == x.tag.take x.mlen
    tagEnd o.burner ok (s.setBytes x.dst (if ok then toBytes p else List.replicate x.len 0))
  | 3 => c2Finish 0 false (putTag o.burner ((cmac k input).take x.mlen) s)
  | 4 => tagEnd o.burner ((cmac k input).take x.mlen == x.tag.take x.mlen) s
  | _ => c2Finish 0 false (putTag o.burner (cbcMac k input) s)

/-- A rotation sets TXK and may restart the counters (R318). -/
def setKey (c : Nat) (v restart : Bool) (s : State) : State :=
  let s1 := if restart then (((s.setCtx c 16 4 0).setCtx c 20 4 0).setCtx c 24 8 0).setCtxFlag c 1 false else s
  setTxk c v s1

/-- RETIRE clears the reference that TXK does not name, and may empty its slot (R318). -/
def retireKey (c : Nat) (wipe : Bool) (s : State) : State :=
  let k := 1 - b2n (s.ctxFlag c 5)
  match s.ctxSlot c k with
  | none => s
  | some n =>
    let s1 := s.setCtxFlag c (3 + k) false
    if wipe then slotClear n s1 else s1

/-- A command's input and output wait for the segment under the memory test, each counted (R461). -/
def c2Segs (fn : Nat) (x : C2Set) (s : State) : State := segHold x.dst (x.outLen fn) (segHold x.src (x.inLen fn) s)

/-- The command in progress has its effect and ends; one that writes flash waits for the flash controller (R305, R335). -/
def c2Effect (o : C2Op) (s : State) : State :=
  let x := s.c2Set o.burner
  let k := o.opd % 128
  let c := o.opd % 512
  if (s.on F.FL_STAT_BUSY || s.flRuns) && (o.fn == 8 || (o.fn == 9 && s.on (F.LAR_ATTR_PERS k))) then s
  else
    let s := c2Segs o.fn x s
    match o.fn with
    | 6 => c2Import o.burner k x s
    | 7 => c2Finish 0 false (slotFill k (s.free.1 % 2 ^ (8 * algBytes x.attr)) x.attr s.free.2)
    | 8 => c2Finish 0 false (persistSlot k s)
    | 9 => c2Finish 0 false (eraseSlot k s)
    | 10 => c2Finish 0 false (s.wr (F.LAR_ATTR_ATTR k) x.attr)
    | 11 => c2Finish 0 false (setKey c false (bitOf o.opd 9) s)
    | 12 => c2Finish 0 false (setKey c true (bitOf o.opd 9) s)
    | 13 => c2Finish 0 false (retireKey c (bitOf o.opd 9) s)
    | _ => c2Data o x s

/-- CIPH_DONE: the command that runs ends, once no inline frame holds the engine (R305, R306). -/
def c2Done (s : State) : State :=
  match s.ciph.op with
  | none => s
  | some o => if s.inlineHeld || !o.checked then s else c2Effect o s

/-- The command in progress is aborted, its output zeroed (R307, R308, R316). -/
def c2Abort (s : State) : State :=
  match s.ciph.op with
  | none => s
  | some o =>
    let x := s.c2Set o.burner
    c2Finish 0 true (if o.fn ≤ 2 && o.checked then (segHold x.dst x.len s).setBytes x.dst (List.replicate x.len 0) else s)

/-! ### Alarms (R316, R317) -/

/-- A secured frame that comes in on column port p is discarded (R316). -/
def inlineColumn (p : Nat) (s : State) : State :=
  match (s.cpx p).rx with
  | some l => if secured l then cutBad (p + 1) l (cpRxOver p s) else s
  | none => s

/-- The secured frame that column port p sends or cuts through is ended with ABORT and freed, with an IDLE block after it (R209, R210, R316). -/
def inlineSent (p : Nat) (s : State) : State :=
  match s.fwd.txs.find? fun e => e.port == p + 1 && secured e.data with
  | some _ => columnTxEnd (p + 1) false (linkSend p (withIdle 0 [abortBlock]) s)
  | none => { s with fwd := { s.fwd with cuts := s.fwd.cuts.map fun c =>
      if c.egress = p + 1 ∧ !c.bad ∧ s.ctxSlv c.ctx ≠ 0 then { c with bad := true, got := (s.cpx (c.ingress - 1)).rx.getD [] } else c } }

/-- Inline frames in progress are discarded, wherever they come in or go out (R316, notes/assumptions/36.md): a secured radio
transmission is aborted. -/
def inlineAbort (s : State) : State :=
  if s.inlineHeld then
    let s1 := inlineSent 1 (inlineSent 0 (inlineColumn 1 (inlineColumn 0 s)))
    let s2 := { s1 with
      mod := { s1.mod with
        slots := s1.mod.slots.map fun (x : Slot) => if bitsOf x.hdr 12 2 != 0 then { x with gone := true } else x
        rxq := s1.mod.rxq.filter fun (x : RxFrame) => x.chk == 0 }
      hp := { s1.hp with tx := s1.hp.tx.filter fun x => !secured x.2 }
      fwd := { s1.fwd with waits := s1.fwd.waits.filter fun w => match w with | .frame _ l _ => !secured l | _ => true } }
    let s3 := comingOver 2 (comingOver 1 s2)
    (if s3.fe.tx.any (fun (t : TxRun) => t.req.chk != 0) then feAbortTx s3 else s3).inc F.CIPH_ALARM_ABORT
  else s

/-- An alarm is raised by cause i of LAR_ALMEN, if that cause is enabled (R316). -/
def larAlarm (i : Nat) (s : State) : State :=
  if bitOf (s.rd F.LAR_ALMEN_EN) i then
    let s1 := (List.range 128).foldl (fun s k => if bitOf (s.slotAttr k) 7 then slotClear k s else s) s
    let s2 := if s1.on F.LARDER_POLICY_MODE then latchDestroy s1 else s1
    let s3 := if s2.ciph.op.isSome then c2Abort (s2.inc F.CIPH_ALARM_ABORT) else s2
    let s4 := inlineAbort s3
    let s5 := (((s4.set1 F.LAR_STAT_ALARM).setBit F.LAR_ALMSRC_SRC i).inc F.LAR_ALARMS).set1 F.LAR_STAT_ERASING
    larSync (fire 171 s5)
  else s

/-- LAR_ALMEN takes a value: a set bit stays set (R317). -/
def almEnWrite (v : Nat) (s : State) : State := s.wr F.LAR_ALMEN_EN (v ||| s.rd F.LAR_ALMEN_EN)

/-- The die lies outside LAR_TEMPLIM (R316). -/
def State.tempAlarm (s : State) : Bool :=
  let t := signed (s.rd F.PWR_TEMP_DEG) 16
  t < 2 * signed (s.rd F.LAR_TEMPLIM_LO) 8 || 2 * signed (s.rd F.LAR_TEMPLIM_HI) 8 < t

/-- Cause bits are cleared, those that still hold set again, and ALARM follows (R317). -/
def almSrcClear (m holds : Nat) (s : State) : State :=
  let v := clearMask (s.rd F.LAR_ALMSRC_SRC) m ||| (s.rd F.LAR_ALMSRC_SRC &&& m &&& holds)
  (s.wr F.LAR_ALMSRC_SRC v).wrB F.LAR_STAT_ALARM (v != 0)

/-! ### Rest and reset (R319) -/

/-- Rest entry: a command ends aborted; the parameter sets read 0 afterwards but for ABORT. -/
def ciphRest (s : State) : State :=
  (c2Abort s).modCiph fun c => { c with sets := c.sets.map fun x => { abort := x.abort } }

/-- The sectors that the Larder erases, if it erases any: all of them for an alarm, the other half where a record finds the current one
full. -/
def State.larErases (s : State) : List Nat :=
  if s.on F.PWR_STAT_NVILOW || s.flRuns || s.on F.FL_STAT_RET then []
  else if s.on F.LAR_STAT_ERASING then halfUnits 0 ++ halfUnits 1
  else if s.larBusy && s.recPlace = 256 then halfUnits (1 - s.ciph.half)
  else []

/-- How far the Larder has come with its erases when a reset ends them is open; one in progress leaves its sector half-erased (R337,
R340, notes/assumptions/96.md). -/
def larCut (s : State) : State :=
  let l := s.larErases
  let k := s.free.1 % (l.length + 1)
  let s1 := (l.take k).foldl larErase s.free.2
  match l.drop k with
  | u :: _ => if bitOf s1.free.1 0 && !(s1.unit u).ret then ownStart u s1.free.2 else s1.free.2
  | [] => s1

/-- A reset of the core domain: a command is aborted, the parameter sets are zero, EN clears. -/
def ciphResetCore (s : State) : State :=
  let s1 := (c2Abort (if s.larErases.isEmpty then s else larCut s)).modCiph fun c => { c with sets := List.replicate 16 {} }
  larSync ({ s1.clr F.CIPH_CTL_EN with
    brn := s1.brn.map fun x => { x with c2bad := false }
    latches := s1.latches.filter (fun l => l.page ≠ 0x50E)
    holds := s1.holds.filter (fun l => l.page ≠ 0x50E) })

/-- A reset of the always-on domain: the slots empty and every field takes its reset value, the fused policy and the bits of
the backup domain apart. -/
def ciphResetAon (s : State) : State :=
  let s1 := ciphResetCore s
  let mode := s1.on F.LARDER_POLICY_MODE
  let lwk := s1.on F.LAR_STAT_LWKOK
  let er := s1.on F.LAR_STAT_ERASING
  let s2 := (s1.resetPage 0x50E).modCiph fun c => { c with keys := List.replicate 128 0 }
  ((s2.wrB F.LARDER_POLICY_MODE mode).wrB F.LAR_STAT_LWKOK lwk).wrB F.LAR_STAT_ERASING er

end Sys2Proof.Machine
end

