-- ==== Sys2Proof/Machine/AdverbOps.lean ====
section
/-! DEFINITION. Adverbs (spec/04_sweune_isa.md, R112 to R120): what each does, and its wait for the end of a slice of its coprocessor's
partition (R42, R114, R459). -/

namespace Sys2Proof.Machine

/-- The coprocessor that an adverb addresses. -/
def Adverb.cp : Adverb → Nat
  | .cx c _ _ => c
  | .big _ _ => 3
  | .crd f => f.cp.toNat
  | .cwr f => f.cp.toNat
  | .csync f => f.cp.toNat

/-- An adverb's word (R112). -/
def Adverb.word : Adverb → Nat
  | .cx c fn opd => cxWord c fn opd
  | .big fn f => c3Word fn f
  | .crd f => crWord 1 f
  | .cwr f => crWord 2 f
  | .csync f => adverbWord 3 f.cp.toNat f.rsv.toNat

/-- Coprocessor c is absent (R113). -/
def State.absent (s : State) (c : Nat) : Bool := !bitOf s.cpresent c

/-- A slice runs on the partition of coprocessor c (R456). -/
def State.cpSliced (s : State) (c : Nat) : Bool := s.bistPart == some (if c = 2 then 10 else 18)

/-! ### CX -/

/-- The operand of a C0 function is legal: a SHRA's distance below 40, elsewhere no bit set (R97, R117). -/
def c0Legal (fn opd : Nat) : Bool := if fn = 6 then opd < 40 else opd == 0

/-- A C0 function by its number (R117). -/
def c0Fn (fn opd : Nat) : BurnerX → BurnerX :=
  match fn with
  | 0 => c0Clr
  | 1 => c0Mul
  | 2 => c0Mac
  | 3 => c0Msu
  | 4 => c0MulU
  | 5 => c0MacU
  | 6 => c0ShrA opd
  | _ => c0SatA

/-- The operand of a C1 function is legal: BFX and BFI use all of it, the others none (R97, R118). -/
def c1Legal (fn opd : Nat) : Bool := fn == 2 || fn == 3 || opd == 0

/-- A C1 function by its number (R118). -/
def c1Fn (fn opd : Nat) : BurnerX → BurnerX :=
  match fn with
  | 0 => c1Init
  | 1 => c1Fin
  | 2 => c1Bfx opd
  | 3 => c1Bfi opd
  | 4 => c1Brev
  | _ => c1Popc

/-! ### CRD and CWR -/

/-- The byte of a coprocessor register for burner b, where it is defined. -/
def State.cpRead (s : State) (b cp cr : Nat) : Option Nat :=
  match cp with
  | 0 => c0Read (s.bx b) cr
  | 1 => c1Read (s.bx b) cr
  | 2 => c2Read (s.c2Set b) cr
  | _ => c3Read s.c3Seen cr

/-- A coprocessor register byte is written. -/
def cpPut (b cp cr v : Nat) (s : State) : State :=
  match cp with
  | 0 => s.modBx b fun x => c0Write x cr v
  | 1 => s.modBx b fun x => c1Write x cr v
  | 2 => s.modC2 b fun x => c2Write x cr v
  | _ => if s.c3Busy then s else { s with c3 := c3Write s.c3 cr v }

/-! ### CSYNC -/

/-- An operation of burner b on coprocessor cp has not ended (R116). -/
def State.outstanding (s : State) (b cp : Nat) : Bool :=
  match cp with
  | 2 => (s.ciph.op.map fun o => o.burner == b).getD false
  | 3 => s.c3.busy && s.c3.issuer == b
  | _ => false

/-- The latest operation of burner b on coprocessor cp ended with an error or abort (R116). -/
def State.cpBad (s : State) (b cp : Nat) : Bool :=
  match cp with
  | 2 => (s.bx b).c2bad
  | 3 => (s.bx b).c3bad
  | _ => false

/-- A CSYNC (R116). -/
def csyncOp (b cp : Nat) (s : State) : WRes :=
  if s.outstanding b cp then .here (s.modBx b fun x => { x with csync := some cp })
  else .next (s.setT b (!s.cpBad b cp))

/-! ### An adverb's course -/

/-- An adverb's encoding is legal (R97, R112). Which registers of a coprocessor are defined does not depend on what they hold. -/
def Adverb.legal (a : Adverb) (s : State) (b : Nat) : Bool :=
  match a with
  | .cx 0 fn opd => c0Legal fn opd
  | .cx 1 fn opd => c1Legal fn opd
  | .cx _ fn opd => !c2Illegal fn opd
  | .big fn f => !c3Illegal fn f
  | .crd f => (s.cpRead b f.cp.toNat f.cr.toNat).isSome
  | .cwr f => (s.cpRead b f.cp.toNat f.cr.toNat).isSome
  | .csync f => f.rsv == 0

/-- An adverb to C0, C1 or C3 keeps their partition busy for 300 µs (R457, notes/assumptions/59.md). -/
def advHold (cp : Nat) (s : State) : State :=
  if cp = 2 then s else { s with bist := { s.bist with advAge := busyTicks } }

/-- What an adverb of burner b does (R112 to R120). -/
def adverbRun (b : Nat) (a : Adverb) (s0 : State) : WRes :=
  let s := advHold a.cp s0
  match a with
  | .cx 0 fn opd => .next (s.modBx b (c0Fn fn opd))
  | .cx 1 fn opd => .next (s.modBx b (c1Fn fn opd))
  | .cx _ fn opd => .next (c2Start b fn opd s)
  | .big fn f => .next (c3Start b fn f s)
  | .crd f => .next (s.setBreg b f.r.toNat ((s.cpRead b f.cp.toNat f.cr.toNat).getD 0))
  | .cwr f => .next (cpPut b f.cp.toNat f.cr.toNat (s.breg b f.r.toNat) s)
  | .csync f => csyncOp b f.cp.toNat s

/-- An adverb that passed its checks: during a slice of its coprocessor's partition it waits, counted once, with PC at it (R42, R114,
R459). -/
def adverbOp (b : Nat) (a : Adverb) (s : State) : WRes :=
  if s.cpSliced a.cp then
    .here (State.inc { s with bist := { s.bist with adverbs := s.bist.adverbs ++ [(b, a)] } } F.BIST_HOLD)
  else adverbRun b a s

/-- An adverb that waited for a slice completes; one whose coprocessor the slice retired raises ADVERB (R98, R113; DEDUCED,
notes/assumptions/59.md). A STOP or PARK that came meanwhile takes effect at its end, of both the STOP (R81). -/
def adverbGo (b : Nat) (a : Adverb) (s : State) : State :=
  let stop := (s.bx b).stopping
  let s0 := if stop then s.clr (F.BRN_STAT_PARKREQ b) else s
  let t := wordEnd b (if s0.absent a.cp then .exc { cause := 3, cp := a.cp, info := a.word } s0 else adverbRun b a s0)
  if stop then brnStopNow b t else t

/-- The adverbs that waited for a slice complete, in the order of their arrival (R42, R114). -/
def adverbsGo (s : State) : State :=
  s.bist.adverbs.foldl (fun s x => adverbGo x.1 x.2 s) { s with bist := { s.bist with adverbs := [] } }

end Sys2Proof.Machine
end

