-- ==== Sys2Proof/Machine/UpdOps.lean ====
section
/-! DEFINITION. Field update: the boot-state journal (R438), image checks (R440), morsels and their log (R446 to R450), the
install (R451 to R453), confirmation and revert (R445) and the owner lock (R454). -/

namespace Sys2Proof.Machine

/-- Changes the update block's hidden state. -/
def State.modUpd (s : State) (f : UpdState → UpdState) : State := { s with upd := f s.upd }

/-! ### The boot-state journal (R438) -/

/-- The address of word i of fine sector 8 or 9. -/
def bjAddr (j i : Nat) : Nat := 0x540000 + (8 + j) * 0x800 + 8 * i

/-- Word i of boot-state sector j; one that cannot be read is not valid (R327, R438). -/
def State.bjWord (s : State) (j i : Nat) : Nat :=
  if (s.cellQual (bjAddr j i)).unc then 0 else s.leAt (bjAddr j i) 8

/-- The sequence number of a boot-state sector's valid header. -/
def State.bjSeq (s : State) (j : Nat) : Option Nat :=
  let w := s.bjWord j 0
  if bitsOf w 56 8 = 0x6A ∧ bitsOf w 32 24 = 0 then some (w % 2 ^ 32) else none

/-- The current boot-state sector. -/
def State.bjCurrent (s : State) : Option Nat :=
  match s.bjSeq 0, s.bjSeq 1 with
  | none, none => none
  | some _, none => some 0
  | none, some _ => some 1
  | some a, some b => if a < b then some 1 else some 0

/-- A valid record word: kinds 1 to 7, slot 0 or 1. -/
def bjValid (w : Nat) : Bool :=
  bitsOf w 56 8 == 0x6B && 1 ≤ bitsOf w 48 8 && bitsOf w 48 8 ≤ 7 && bitsOf w 40 8 ≤ 1

/-- The kind, slot and LSEQ of a record word. -/
def bjKind (w : Nat) : Nat := bitsOf w 48 8
def bjSlot (w : Nat) : Nat := bitsOf w 40 8
def bjLseq (w : Nat) : Nat := w % 2 ^ 32

/-- A record word. -/
def bjRec (kind slot arb lseq : Nat) : Nat :=
  0x6B * 2 ^ 56 + kind * 2 ^ 48 + slot % 2 * 2 ^ 40 + arb % 256 * 2 ^ 32 + lseq % 2 ^ 32

/-- The words in use in a boot-state sector: up to the last that is not erased. -/
def State.bjUsed (s : State) (j : Nat) : Nat :=
  (List.range 256).foldl (fun n i => if s.bjWord j i = erasedWord then n else i + 1) 0

/-- The latest valid record of the current sector whose kind is among those given. -/
def State.bjLatest (s : State) (kinds : List Nat) : Option Nat :=
  match s.bjCurrent with
  | none => none
  | some j =>
    (List.range 255).foldl (fun found i =>
      let w := s.bjWord j (i + 1)
      if bjValid w && kinds.contains (bjKind w) then some w else found) none

/-- The active slot: that of the latest CONFIRM or FALLBACK record, or A. -/
def State.activeSlot (s : State) : Nat := ((s.bjLatest [3, 5]).map bjSlot).getD 0

/-- The inactive slot (R451). -/
def State.idleSlot (s : State) : Nat := 1 - s.activeSlot

/-- The latest lock record says LOCK. -/
def State.locked (s : State) : Bool := ((s.bjLatest [6, 7]).map bjKind).getD 7 == 6

/-- The latest record of kinds 1 to 5, when it is TRY or START: a trial is pending. -/
def State.trialRec (s : State) : Option Nat :=
  match s.bjLatest [1, 2, 3, 4, 5] with
  | some w => if bjKind w ≤ 2 then some w else none
  | none => none

/-- UPD_BOOT's view of the journal, and UPD_LOCKSEQ. -/
def updView (s : State) : State :=
  ((s.wr F.UPD_BOOT_ACTSLOT s.activeSlot).wrB F.UPD_BOOT_LOCK s.locked).wr F.UPD_LOCKSEQ_LSEQ
    (((s.bjLatest [6, 7]).map bjLseq).getD 0)

/-- A fresh sector takes the records still needed, and its header last; a sector that is retired, or whose erase fails, takes
none, and one whose program fails its verify is retired (R338, R438). -/
def bjCompact (s : State) : State :=
  let other := match s.bjCurrent with | some 0 => 1 | _ => 0
  let seq := match s.bjCurrent with | some j => (s.bjSeq j).getD 0 + 1 | none => 0
  let keep := [s.bjLatest [3, 5], s.bjLatest [6, 7], s.trialRec].filterMap id
  let s1 := ownErase (72 + other) s
  if !s1.takesWork (72 + other) then s1
  else (ownProgram (bjAddr other 0) (((0x6A * 2 ^ 56 + seq % 2 ^ 32) :: keep).flatMap (leBytes 8)) s1).2

/-- Boot-state sector j has a word left for a record. -/
def State.bjRoom (s : State) (j : Nat) : Bool := s.bjUsed j < 256 && s.takesWork (72 + j)

/-- A record is written (R438): a flash operation, which the retired ECC partition refuses (R333, R342, notes/assumptions/101.md), and
which is lost where it fails its verify. -/
def bjAppend (w : Nat) (s : State) : State :=
  if s.on F.FL_STAT_RET then s
  else
    let s1 := match s.bjCurrent with
      | none => bjCompact s
      | some j => if 256 - s.bjUsed j < 4 then bjCompact s else s
    match s1.bjCurrent with
    | none => s1
    | some j => if s1.bjRoom j then updView (ownProgram (bjAddr j (s1.bjUsed j)) (leBytes 8 w) s1).2 else s1

/-- The flash controller can take a write of the device's own now: nothing else runs or is pending, and the supply permits (R333, R335,
R347). -/
def State.flFree (s : State) : Bool :=
  !s.flRuns && !s.on F.FL_STAT_LARPEND && !s.on F.UPD_STAT_INSTALLING && !s.upd.clearing && !s.on F.PWR_STAT_NVILOW

/-- A record is written; CONFIRM and REVERT end the trial (R438, R445). -/
def bjRecord (w : Nat) (s : State) : State :=
  let s1 := bjAppend w s
  if bjKind w = 3 ∨ bjKind w = 4 then s1.clr F.UPD_TRIAL_ACTIVE else s1

/-- The records that wait are written once they can be. -/
def bjGo (s : State) : State :=
  if s.flFree then s.upd.jw.foldl (fun s w => bjRecord w s) (s.modUpd fun u => { u with jw := [] }) else s

/-- A record is to be written: at once, or when the flash controller and the supply permit (R438). -/
def bjWrite (w : Nat) (s : State) : State := bjGo (s.modUpd fun u => { u with jw := u.jw ++ [w] })

/-! ### Images (R435, R436, R440) -/

/-- The base of image slot A or B. -/
def slotBase (slot : Nat) : Nat := slot % 2 * 0x100000

/-- n bytes of an image header as a number. -/
def State.hdr (s : State) (slot off n : Nat) : Nat := s.flNum (slotBase slot + off) n

/-- Every byte of a range of flash reads 0. -/
def State.flZeros (s : State) (a n : Nat) : Bool := (s.flBytes a n).all (· == 0)

/-- Every byte from a to a + n − 1 of flash reads correctably (R326). -/
def State.readable (s : State) (a n : Nat) : Bool :=
  s.fl.qual.all (fun q => !q.2.unc || q.1 + (if q.1 < 0x400000 then 512 else 8) ≤ a || a + n ≤ q.1) &&
    (List.range (unitOf (a + n - 1) + 1 - unitOf a)).all fun i => !(s.unit (unitOf a + i)).half

/-- A read of a range of flash, whose cells are those of v, reports what any read does, up to the first cell that cannot be corrected
(R325, R326). -/
def scanReport (v : State) (a n : Nat) (s : State) : State :=
  let cells := (v.fl.qual.map (·.1)).filter fun c => c < a + n && a < c + (if c < 0x400000 then 512 else 8)
  let half := (((List.range (unitOf (a + n - 1) + 1 - unitOf a)).map (unitOf a + ·)).find? fun u => (v.unit u).half).map fun u =>
    max a (unitBase u)
  let bad := (cells.find? fun c => (v.cellQual c).unc).elim half fun c => some (half.elim c (min c))
  let s1 := (cells.filter fun c => bad.all fun b => c < b).foldl (fun s c => cellReport (max a c) (v.cellQual c) s) (flRead s)
  match bad with
  | some b => uncReport (max a b) s1
  | none => s1

/-- The device reads a range of flash for itself, while no command works in it. -/
def flScan (a n : Nat) (s : State) : State := scanReport s a n s

/-- A command of the update block reads a range of flash: it waits as any read does (R328, R329, R342). -/
def flScanWait (a n : Nat) (s : State) : State :=
  let s1 := flWait a s
  scanReport (flWaited a s1) a n s1

/-- The arrays as a read of the fine area finds them (R328). -/
def State.fineSeen (s : State) : State := flWaited 0x540000 s

/-- The address of the key record (R436). -/
def keyRecord : Nat := 0x543800

/-- The image-signing key, when its record is valid (R436). -/
def State.signKey (s : State) : Option (Nat × Nat) :=
  let q := s.flBytes keyRecord 64
  if s.readable keyRecord 68 && s.flNum (keyRecord + 64) 4 == crc32 q && sha256 (natBytes q) == Config.keyHash then
    some (beNat (q.take 32), beNat (q.drop 32))
  else none

/-- The signature r ‖ s at an address verifies over a digest. -/
def State.sigOk (s : State) (digest : Nat) (sig : List Byte) : Bool :=
  match s.signKey with
  | some key => P256.verify key digest (beNat (sig.take 32)) (beNat ((sig.drop 32).take 32))
  | none => false

/-- The ranges of R435 hold and every 00h field is 00h. -/
def State.imageShape (s : State) (slot : Nat) : Bool :=
  let b := slotBase slot
  let len := s.hdr slot 20 4
  let clim := s.hdr slot 24 2
  s.flZeros (b + 17) 3 && s.flZeros (b + 28) 100 && s.flZeros (b + 192) 64 && s.hdr slot 7 1 ≤ 1 && 3 ≤ len && len ≤ 0xFFF00 &&
    3 * (clim + 1) ≤ len && s.hdr slot 26 2 ≤ clim && s.hdr slot 16 1 ≤ 64

/-- The code with which a slot's image fails its checks, 0 for none (R440). -/
def State.imageCode (s : State) (slot : Nat) : Nat :=
  let b := slotBase slot
  let len := s.hdr slot 20 4
  if s.signKey.isNone then 9
  else if s.hdr slot 0 4 ≠ 0x7B3E0C51 then 1
  else if !s.imageShape slot then 2
  else if s.hdr slot 4 2 ≠ s.rd F.SYS_ID_TYPE then 3
  else if s.rd F.SYS_ID_REV < s.hdr slot 6 1 then 4
  else if s.hdr slot 7 1 = 1 ∧ s.hdr slot 8 8 ≠ s.rd F.MAC_EXT_EUI then 5
  else if s.hdr slot 16 1 < s.rd F.UPD_BOOT_ARB then 6
  else if !s.readable b (256 + len) then 7
  else if !s.sigOk (sha256 (natBytes (s.flBytes b 128 ++ s.flBytes (b + 256) len))) (s.flBytes (b + 128) 64) then 8
  else 0

/-- What the reads of an image check report: of the header, and of the image where the check reaches it. The key record is read once
before (R439, R440). -/
def imageReads (slot : Nat) (s : State) : State :=
  let code := s.imageCode slot
  if code = 9 then s
  else flScan (slotBase slot) (if code = 0 ∨ 7 ≤ code then 256 + s.hdr slot 20 4 else 256) s

/-- A slot's image is checked and its code recorded. -/
def imageCheck (slot : Nat) (s : State) : State :=
  (imageReads slot s).wr (if slot = 0 then F.UPD_BOOT_CODEA else F.UPD_BOOT_CODEB) (s.imageCode slot)

/-! ### Morsels (R446 to R450) -/

/-- Fields of a morsel. -/
def mImg (m : List Byte) : Nat := leNat (m.take 2)
def mIndex (m : List Byte) : Nat := leNat ((m.drop 2).take 2)
def mCount (m : List Byte) : Nat := leNat ((m.drop 4).take 2)
/-- The CRC-16 of a morsel (R446). -/
def mCrcOk (m : List Byte) : Bool :=
  let body := m.take 6 ++ m.drop 8
  leNat ((m.drop 6).take 2) == body.foldl (fun c b => crcByteL 16 0x1021 c b.toNat) 0xFFFF

/-- The bitmap word of an index (R450). -/
def bitmapAddr (i : Nat) : Nat := 0x540000 + (10 + i / 256) * 0x800 + i % 256 * 8

/-- An index is recorded: its word is not erased, which an unreadable one is not known to be (R450, notes/assumptions/101.md). -/
def State.recorded (s : State) (i : Nat) : Bool :=
  (s.cellQual (bitmapAddr i)).unc || s.leAt (bitmapAddr i) 8 != erasedWord

/-- The recorded indices. -/
def State.recordedCount (s : State) : Nat := ((List.range 5632).filter s.recorded).length

/-- The log's units that still take programs, in order. -/
def State.logUnits (s : State) : List Nat :=
  ((List.range (s.rd F.UPD_LOG_NBLK)).map (s.rd F.UPD_LOG_FIRST + ·)).filter fun u => u < 64

/-- The pages a log block has left. -/
def State.pagesLeft (s : State) (u : Nat) : Nat :=
  if (s.unit u).ret || (s.unit u).half then 0 else 128 - s.nextPage (unitBase u)

/-- The log's next page. -/
def State.logPage (s : State) : Option Nat :=
  (s.logUnits.find? fun u => s.pagesLeft u ≠ 0).map fun u => unitBase u + 512 * s.nextPage (unitBase u)

/-- The log has no page for another record: the page being programmed and the buffer with that record take theirs first. -/
def State.logFull (s : State) : Bool :=
  (s.logUnits.map s.pagesLeft).sum < (if s.upd.prog.isSome then 1 else 0) + (s.upd.buf.length + 2) / 2

/-- The log's blocks and the bitmap are empty (R447). -/
def State.logEmpty (s : State) : Bool :=
  s.logUnits.all (fun u => s.nextPage (unitBase u) == 0 && !(s.unit u).half) && s.recordedCount == 0

/-- UPD_LOG names blocks in units 32 to 63, and enough of them for COUNT (R447). -/
def State.logOk (s : State) : Bool :=
  let first := s.rd F.UPD_LOG_FIRST
  let n := s.rd F.UPD_LOG_NBLK
  32 ≤ first && first + n ≤ 64 && ceilDiv (s.rd F.UPD_CAMP_COUNT) 256 ≤ n

/-- UPD_CMD.OPEN (R447). -/
def updOpen (s : State) : State :=
  let count := s.rd F.UPD_CAMP_COUNT
  let code :=
    if s.on F.UPD_STAT_INSTALLING || s.upd.clearing then 1
    else if !s.logEmpty || count < 1 || 5462 < count || !s.logOk then 7 else 0
  let s1 := s.wr F.UPD_STAT_CCODE code
  if code = 0 then s1.set1 F.UPD_STAT_CAMP else s1

/-- n bytes at UPD_MSRC lie in SRAM that R84 leaves open to the issuer (R448, R454). -/
def State.srcOpen (s : State) (acc n : Nat) : Bool :=
  let a := s.rd F.UPD_MSRC_ADDR
  s.inSram a n && !s.closedTo acc a && !s.closedTo acc (a + n - 1)

/-- The result of a morsel (R448). -/
def State.mCode (s : State) (acc : Nat) : Nat :=
  let m := s.ramBytes (s.rd F.UPD_MSRC_ADDR) 200
  if !s.on F.UPD_STAT_CAMP then 1
  else if !s.srcOpen acc 200 then 8
  else if !mCrcOk m then 2
  else if mImg m ≠ s.rd F.UPD_CAMP_IMGID ∨ mCount m ≠ s.rd F.UPD_CAMP_COUNT then 3
  else if s.rd F.UPD_CAMP_COUNT ≤ mIndex m then 4
  else if s.recorded (mIndex m) then 5
  else if s.logFull then 6
  else if s.on F.UPD_STAT_INSTALLING || s.upd.clearing || (2 ≤ s.upd.buf.length && s.upd.prog.isSome) then 7
  else if s.on F.PWR_STAT_NVILOW then 9
  else 0

/-- The update block's own program or erase works in some arrays from here on, or has ended there; either way every line buffer is
empty (R78, R328). -/
def updArrays (l : List Nat) (s : State) : State := flWork (s.modFl fun f => { f with others := l })

/-- The program of a page in the log begins: in the bank of the log's next page, and then in the fine area, where its records are
marked (R328, R449, R450). -/
def updProgram (s : State) : State := updArrays (s.logPage.toList.map arrayOf ++ [4]) s

/-- A record's bitmap word. -/
def bitmapWord (m : List Byte) (addr : Nat) : Nat := 0xA5 * 2 ^ 56 + mImg m * 2 ^ 40 + addr

/-- A record's bitmap word is programmed (R450); one whose program fails its verify counts no record (R338, notes/assumptions/101.md). -/
def recordMorsel (m : List Byte) (addr : Nat) (s : State) : State :=
  let a := bitmapAddr (mIndex m)
  if s.recorded (mIndex m) || !s.takesWork (unitOf a) then s
  else
    match ownProgram a (leBytes 8 (bitmapWord m addr)) s with
    | (true, s1) => fire 188 (s1.incW F.UPD_RXCNT)
    | (false, s1) => s1

/-- The records whose page is programmed are marked in the bitmap. -/
def updMarks (s : State) : State :=
  s.upd.marks.foldl (fun s m => recordMorsel m.1 m.2 s) (s.modUpd fun u => { u with marks := [] })

/-- What waits for the flash goes to it once the supply and the ECC partition permit: the marks of the last page, a page that is to be
programmed in the next block, then a page buffer that is full or flushed, once the other is done (R342, R347, R449, R450). -/
def updStart (s0 : State) : State :=
  if s0.on F.PWR_STAT_NVILOW || s0.on F.FL_STAT_RET then s0
  else
    let s := updMarks s0
    let u := s.upd
    if u.prog.isSome then (if u.again then updProgram (s.modUpd fun u => { u with again := false }) else s)
    else if u.buf.length == 2 || (u.flush && !u.buf.isEmpty) then
      updProgram (s.modUpd fun u => { u with prog := some u.buf, buf := [], flush := false, again := false })
    else s

/-- What the reads of a morsel with a result report: the wait for SRAM under test, and the bitmap word where the check of R448 reaches it
(R326, R328, R461). -/
def morselReads (acc code : Nat) (s : State) : State :=
  let a := s.rd F.UPD_MSRC_ADDR
  let s1 := if s.on F.UPD_STAT_CAMP && s.srcOpen acc 200 then segHold a 200 s else s
  if code = 0 ∨ (5 ≤ code ∧ code ≠ 8) then flScanWait (bitmapAddr (mIndex (s.ramBytes a 200))) 8 s1 else s1

/-- UPD_CMD.MORSEL (R448). -/
def updMorsel (acc : Nat) (s : State) : State :=
  let code := s.fineSeen.mCode acc
  let s1 := (morselReads acc code s).wr F.UPD_STAT_MCODE code
  let s2 := if 2 ≤ code ∧ code ≤ 4 then s1.inc F.UPD_MBAD else if code = 5 then s1.inc F.UPD_MDUP else s1
  if code = 0 then updStart (s2.modUpd fun u => { u with buf := u.buf ++ [s.ramBytes (s.rd F.UPD_MSRC_ADDR) 200] }) else s2

/-- UPD_CMD.FLUSH and task 124 (R449). -/
def updFlush (s : State) : State :=
  if s.upd.buf.isEmpty then s else updStart (s.modUpd fun u => { u with flush := true })

/-- The bytes of a log page: one or two records at 0 and 256, 00h elsewhere (R449). -/
def logPageBytes (rs : List (List Byte)) : List Byte :=
  (rs.getD 0 [] ++ List.replicate 256 0).take 256 ++ (rs.getD 1 [] ++ List.replicate 256 0).take 256

/-- The page of the buffer ends its program: its records are marked, or its block is retired and the next takes the buffer; what the
supply does not permit to start waits (R347, R449, R450). -/
def morselRecorded (ok : Bool) (s : State) : State :=
  match s.upd.prog, s.logPage with
  | some rs, some p =>
    if s.fl.op.isSome || s.upd.again then s
    else if ok then
      updStart (updArrays [] ((putPage p (logPageBytes rs) (2 ^ 128 - 1) s).modUpd fun u =>
        { u with prog := none, marks := u.marks ++ rs.zipIdx.map fun m => (m.1, p + 256 * m.2) }))
    else updStart (updArrays [] ((flRetired (unitOf p) 1 (openBytes p 512 s)).modUpd fun u => { u with again := true }))
  | _, _ => s

/-- UPD_CMD.CLEAR (R447). -/
def updClear (s : State) : State :=
  if s.on F.UPD_STAT_INSTALLING || s.upd.clearing then s
  else updArrays ((s.logUnits.map fun u => u / 16) ++ [4])
    (s.modUpd fun u => { u with clearing := true, buf := [], prog := none, flush := false, again := false, marks := [] })

/-- The units of the log and the bitmap that still take an erase (R338, R447). -/
def State.clearUnits (s : State) : List Nat :=
  (s.logUnits ++ (List.range 22).map (74 + ·)).filter s.takesWork

/-- The erasure of log and bitmap ends; a unit whose erase fails is retired (R338, R447). -/
def updClearEnd (s : State) : State :=
  if s.upd.clearing && !s.on F.PWR_STAT_NVILOW && s.fl.op.isNone then
    let s1 := s.clearUnits.foldl (fun s u => ownErase u s) s
    ((updArrays [] (s1.modUpd fun u => { u with clearing := false })).clr F.UPD_STAT_CAMP).wr F.UPD_RXCNT s1.recordedCount
  else s

/-- What a CLEAR has erased when a reset ends it is open; an erase in progress leaves its unit half-erased (R340,
notes/assumptions/96.md). -/
def clearPart (s : State) : State :=
  let l := s.clearUnits
  let k := s.free.1 % (l.length + 1)
  let s1 := (l.take k).foldl (fun s u => ownErase u s) s.free.2
  match l.drop k with
  | u :: _ => if bitOf s1.free.1 0 then ownStart u s1.free.2 else s1.free.2
  | [] => s1

/-! ### Install (R451 to R453) -/

/-- A burner that is not OFF has a code window reaching into a slot. -/
def State.slotBusy (s : State) (slot : Nat) : Bool :=
  (List.range 16).any fun b =>
    s.bstate b != stOff && s.rd (F.BRN_CBASE_BASE b) < slotBase slot + 0x100000 &&
      slotBase slot < s.rd (F.BRN_CBASE_BASE b) + 3 * (s.rd (F.BRN_CLIM_LAST b) + 1)

/-- A block of a slot takes no work, or is protected (R342, notes/assumptions/101.md). -/
def State.slotProt (s : State) (slot : Nat) : Bool :=
  (List.range 16).any fun i => !s.takesWork (16 * slot + i) || s.flProt 2 (unitBase (16 * slot + i))

/-- A record is in a page buffer. -/
def State.bufPend (s : State) : Bool := !s.upd.buf.isEmpty || s.upd.prog.isSome || !s.upd.marks.isEmpty

/-- UPD_VMIN in millivolts: 2.0 V + 0.1 V × LEVEL, LEVEL 24 at most. -/
def State.updVmin (s : State) : Nat := 2000 + 100 * min 24 (s.rd F.UPD_VMIN_LEVEL)

/-- The code an install is refused with at a VBAT of so many millivolts, 0 for none (R451). -/
def State.installCode (s : State) (vbat : Nat) : Nat :=
  if s.on F.UPD_STAT_INSTALLING || s.upd.clearing || !s.upd.jw.isEmpty || s.bufPend then 1
  else if !s.on F.UPD_STAT_CAMP || s.rd F.UPD_RXCNT < s.rd F.UPD_CAMP_COUNT then 2
  else if s.locked then 3
  else if s.on F.PWR_STAT_ONBAT && vbat < s.updVmin then 4
  else if s.on F.LAR_STAT_ALARM then 5
  else if s.trialRec.isSome then 6
  else if s.slotBusy s.idleSlot then 7
  else if s.slotProt s.idleSlot then 8
  else if s.on F.PWR_STAT_NVILOW then 9
  else 0

/-- UPD_CMD.INSTALL (R451, R452). -/
def updInstall (vbat : Nat) (s : State) : State :=
  let code := s.installCode vbat
  if code = 0 then updArrays [s.idleSlot, 4] ((s.set1 F.UPD_STAT_INSTALLING).clr F.UPD_IPROG_PAGES)
  else fire 189 ((s.wr F.UPD_STAT_ICODE code).inc F.UPD_REFUSED)

/-- The blocks and pages of the campaign's image, 16 and 2,048 at most: a slot has no more (R452, notes/assumptions/80.md). -/
def State.installBlocks (s : State) : Nat := min 16 (ceilDiv (192 * s.rd F.UPD_CAMP_COUNT) 65536)
def State.installPages (s : State) : Nat := min 2048 (ceilDiv (192 * s.rd F.UPD_CAMP_COUNT) 512)

/-- The record at an address, where it is readable and names the image and an index with a right CRC. -/
def State.recordAt (s : State) (a i : Nat) : Option (List Byte) :=
  let m := s.flBytes a 200
  if a % 256 == 0 && s.logUnits.contains (unitOf a) && a < 0x400000 && s.readable a 200 && mImg m == s.rd F.UPD_CAMP_IMGID &&
      mIndex m == i && mCrcOk m then some m
  else none

/-- The newest record of an index in the log. -/
def State.searchLog (s : State) (i : Nat) : Option (List Byte) :=
  s.logUnits.foldl (fun found u =>
    (List.range 256).foldl (fun found r =>
      match s.recordAt (unitBase u + 256 * r) i with | some m => some m | none => found) found) none

/-- The record address in an index's bitmap word, where the word reads and its address can be one of the log (R326, R327, R452). -/
def State.bitmapRef (s : State) (i : Nat) : Option Nat :=
  let a := s.leAt (bitmapAddr i) 8 % 2 ^ 24
  if !(s.cellQual (bitmapAddr i)).unc && a % 256 == 0 && a < 0x400000 && s.logUnits.contains (unitOf a) then some a else none

/-- The record that an index's bitmap word leads to. -/
def State.namedRecord (s : State) (i : Nat) : Option (List Byte) := (s.bitmapRef i).bind fun a => s.recordAt a i

/-- The morsel an install takes for an index (R452). -/
def State.installRecord (s : State) (i : Nat) : Option (List Byte) := (s.namedRecord i).or (s.searchLog i)

/-- The bytes of a slot page, FFh beyond the last morsel; none when a morsel is missing. -/
def State.installBytes (s : State) (p : Nat) : Option (List Byte) :=
  let lo := 512 * p / 192
  let hi := min (s.rd F.UPD_CAMP_COUNT - 1) ((512 * p + 511) / 192)
  let ms := (List.range (hi + 1 - lo)).map fun i => s.installRecord (lo + i)
  if ms.all Option.isSome then
    let all := ms.flatMap fun m => (m.getD []).drop 8
    some (((all.drop (512 * p - 192 * lo)) ++ List.replicate 512 0xFF).take 512)
  else none

/-- An install is abandoned (R453). -/
def installAbort (cause : Nat) (s : State) : State :=
  fire 189 (((updArrays [] s).clr F.UPD_STAT_INSTALLING).wr F.UPD_ISTAT_IABORT cause)

/-- The first n blocks of a slot are erased. -/
def installErase (slot n : Nat) (s : State) : State := eraseUnits ((List.range n).map (16 * slot + ·)) s

/-- What the reads of an install's morsels for page p report: of the bitmap word, of the record that it names, and of the log where that
record is not the one sought (R326, R452). -/
def installReads (p : Nat) (s : State) : State :=
  let lo := 512 * p / 192
  let hi := min (s.rd F.UPD_CAMP_COUNT - 1) ((512 * p + 511) / 192)
  ((List.range (hi + 1 - lo)).map (lo + ·)).foldl (fun s i =>
    let s0 := flScan (bitmapAddr i) 8 s
    let s1 := (s.bitmapRef i).elim s0 fun a => flScan a 200 s0
    if (s.namedRecord i).isSome then s1 else s.logUnits.foldl (fun s u => flScan (unitBase u) 0x10000 s) s1) s

/-- Pages p, p + 1, … of a slot are programmed, n at most, until a morsel is missing; says whether one was. -/
def installProgram (slot : Nat) : Nat → Nat → State → State × Bool
  | 0, _, s => (s, false)
  | n + 1, p, s =>
    let s1 := installReads p s
    match s.installBytes p with
    | none => (s1, true)
    | some d =>
      installProgram slot n (p + 1) ((putPage (slotBase slot + 512 * p) d (2 ^ 128 - 1) s1).wr F.UPD_IPROG_PAGES (p + 1))

/-- A block of the slot is retired by a failed verify, and the install is abandoned (R453). -/
def installRetire (unit cause : Nat) (s : State) : State := installAbort 3 (flRetired unit cause s)

/-- What an abandoned install has done of its work is open: some of its blocks are erased and then some pages programmed
(R453). -/
def installPart (s : State) : State :=
  let slot := s.idleSlot
  let k := s.free.1 % (s.installBlocks + s.installPages + 1)
  let s1 := installErase slot (min k s.installBlocks) s.free.2
  if k ≤ s.installBlocks then s1 else (installProgram slot (k - s.installBlocks) 0 s1).1

/-- The flash work of an install ends; with the ECC partition retired it goes no further and is abandoned (R342, R452, R453,
notes/assumptions/101.md). -/
def installEnd (e : InstallEnding) (s : State) : State :=
  if !s.on F.UPD_STAT_INSTALLING || s.on F.PWR_STAT_NVILOW || s.fl.op.isSome then s
  else if s.on F.FL_STAT_RET then installAbort 3 (installPart s)
  else
    let slot := s.idleSlot
    match e with
    | .erase blk =>
      if blk.toNat < s.installBlocks then
        let u := 16 * slot + blk.toNat
        installRetire u 0 (openUnit u (ownStart u (installErase slot blk.toNat s)))
      else s
    | .page p =>
      if p.toNat < s.installPages then
        let r := installProgram slot p.toNat 0 (installErase slot s.installBlocks s)
        if r.2 then installAbort 4 r.1
        else
          let a := slotBase slot + 512 * p.toNat
          installRetire (unitOf a) 1 (openBytes a 512 r.1)
      else s
    | .whole =>
      let r := installProgram slot s.installPages 0 (installErase slot s.installBlocks s)
      if r.2 then installAbort 4 r.1
      else
        let s1 := bjAppend (bjRec 1 slot (r.1.hdr slot 16 1) 0) r.1
        fire 189 (((updArrays [] s1).clr F.UPD_STAT_INSTALLING).set1 F.UPD_ISTAT_DONE)

/-- What an install has done when a reset ends it is open, and so is whether the next erase or program had begun: it leaves a
half-erased block or a torn page (R340, notes/assumptions/96.md). -/
def installCut (s : State) : State :=
  let slot := s.idleSlot
  let n := s.installBlocks
  let k := s.free.1 % (n + s.installPages + 1)
  let s1 := installPart s
  if !bitOf s1.free.1 0 || k = n + s.installPages then s1.free.2
  else if k < n then ownStart (16 * slot + k) s1.free.2
  else tornPage (slotBase slot + 512 * (k - n)) s1.free.2

/-- A Larder alarm abandons an install (R453). -/
def installAlarm (s : State) : State := if s.on F.UPD_STAT_INSTALLING then installAbort 2 (installPart s) else s

/-! ### Confirmation, revert and lock (R445, R454) -/

/-- An install or a journal write runs (R445). -/
def State.jBusy (s : State) : Bool := s.on F.UPD_STAT_INSTALLING || !s.upd.jw.isEmpty

/-- UPD_CMD.CONFIRM (R445). -/
def updConfirm (s : State) : State :=
  match s.trialRec with
  | some w =>
    if s.jBusy then s.wr F.UPD_STAT_CCODE 1
    else if bjKind w ≠ 2 then s.wr F.UPD_STAT_CCODE 2
    else if s.on F.PWR_STAT_NVILOW then s.wr F.UPD_STAT_CCODE 3
    else
      let arb := s.hdr (s.rd F.UPD_BOOT_RUNSLOT) 16 1
      let blown := max (s.rd F.UPD_BOOT_ARB) (min arb 64)
      let s1 := { s.wr F.UPD_BOOT_ARB blown with fuse := { s.fuse with arb := blown } }
      bjWrite (bjRec 3 (bjSlot w) arb 0) (s1.clr F.UPD_STAT_CCODE)
  | none => s.wr F.UPD_STAT_CCODE (if s.jBusy then 1 else 2)

/-- UPD_CMD.REVERT (R445). -/
def updRevert (s : State) : State :=
  match s.trialRec with
  | some w =>
    if s.jBusy then s.wr F.UPD_STAT_CCODE 1
    else if s.on F.PWR_STAT_NVILOW then s.wr F.UPD_STAT_CCODE 3
    else bjWrite (bjRec 4 (bjSlot w) (s.hdr (bjSlot w) 16 1) 0) (s.clr F.UPD_STAT_CCODE)
  | none => s.wr F.UPD_STAT_CCODE (if s.jBusy then 1 else 2)

/-- The verification of a signature through C3 leaves its operands, MOD and STAT with open contents (R436, R454). -/
def c3Used (s : State) : State :=
  { s with c3 := { s.c3 with v := (List.range 16).map fun i => Config.free (s.freeSeq + i) % 2 ^ 256,
                             mod := Config.free (s.freeSeq + 16) % 4 }
           freeSeq := s.freeSeq + 17 }

/-- A lock command is laid out as R454 says and addressed to this device. -/
def State.lockShape (s : State) (acc : Nat) : Bool :=
  let a := s.rd F.UPD_MSRC_ADDR
  let m := s.ramBytes a 96
  let op := leNat (m.take 1)
  let zeros := fun o n => ((m.drop o).take n).all (· == 0)
  s.srcOpen acc 96 && (op == 1 || op == 2) && zeros 1 3 && zeros 16 16 && beNat ((m.drop 4).take 8) == s.rd F.MAC_EXT_EUI

/-- The code of a lock command before its signature is verified, 0 for none (R454). -/
def State.lockCode (s : State) (acc : Nat) : Nat :=
  if s.on F.UPD_STAT_INSTALLING || s.upd.clearing || !s.upd.jw.isEmpty || s.c3Busy then 1
  else if s.on F.PWR_STAT_NVILOW then 3
  else if !s.lockShape acc then 4
  else if leNat (s.ramBytes (s.rd F.UPD_MSRC_ADDR + 12) 4) ≤ s.rd F.UPD_LOCKSEQ_LSEQ then 5
  else if bitOf (s.rd F.BIST_RET_PART) 18 then 6
  else 0

/-- The ticks of XK32 that a lock command takes at most: 20 ms (R454). -/
def lockTicks : Nat := 656

/-- UPD_CMD.LOCKCMD (R454): a command that passes the other checks goes to C3, which verifies its signature. -/
def updLockcmd (acc : Nat) (s : State) : State :=
  let code := s.lockCode acc
  let a := s.rd F.UPD_MSRC_ADDR
  let s1 := if code ≠ 1 ∧ code ≠ 3 ∧ s.srcOpen acc 96 then segHold a 96 s else s
  if code ≠ 0 then s1.wr F.UPD_STAT_CCODE code
  else s1.modUpd fun u => { u with lock := some (s.ramBytes a 96), lockAge := lockTicks }

/-- The verification of a lock command ends: LOCK or UNLOCK is written, or the command refused (R454). -/
def lockEnd (s : State) : State :=
  match s.upd.lock with
  | none => s
  | some m =>
    let s1 := c3Used (flScanWait keyRecord 68 (s.modUpd fun u => { u with lock := none, lockAge := 0 }))
    if s.fineSeen.sigOk (sha256 (natBytes (m.take 32))) (m.drop 32) then
      bjWrite (bjRec (if leNat (m.take 1) = 1 then 6 else 7) 0 0 (leNat ((m.drop 12).take 4))) (s1.clr F.UPD_STAT_CCODE)
    else s1.wr F.UPD_STAT_CCODE 4

/-- C3_DONE: the operation of C3 in progress ends, a burner's or the update block's (R120, R454). -/
def c3Ends (s : State) : State := if s.c3.busy then c3DoneOp s else lockEnd s

/-- A tick of XK32 passes for a lock command (R454). -/
def lockTick (s : State) : State :=
  if s.upd.lock.isNone then s
  else if s.upd.lockAge ≤ 1 then lockEnd s
  else s.modUpd fun u => { u with lockAge := u.lockAge - 1 }

/-! ### Reset and Rest (R468) -/

/-- The install refuser (R360, R449, R452). -/
def State.updBusy (s : State) : Bool := s.on F.UPD_STAT_INSTALLING || s.bufPend

/-- Rest entry and a reset of the core domain lose the page buffers, what waits for the flash, a lock command that C3 verifies and the
install's progress. -/
def updRest (s : State) : State :=
  (updArrays [] (s.modUpd fun u =>
    { u with buf := [], prog := none, flush := false, again := false, marks := [], jw := [], lock := none, lockAge := 0 })).clr
      F.UPD_IPROG_PAGES

/-- A reset of the core domain: buffered records are lost and the page they were going to is torn, an install is abandoned, a CLEAR
ended. -/
def updResetCore (s : State) : State :=
  let inst := s.on F.UPD_STAT_INSTALLING
  let s0 := match s.logPage with
    | some p => if s.upd.prog.isSome && !s.upd.again then tornPage p s else s
    | none => s
  let s1 := if inst then (installCut s0).clr F.UPD_STAT_INSTALLING else if s.upd.clearing then clearPart s0 else s0
  let s2 := (updRest s1).modUpd fun u => { u with clearing := false, cut := u.cut || inst }
  { s2.clr F.UPD_STAT_READY with
    latches := s2.latches.filter (fun l => l.page ≠ 0x511)
    holds := s2.holds.filter (fun l => l.page ≠ 0x511) }

/-- A reset of the always-on domain: every field takes its reset value, the fuses apart. -/
def updResetAon (s : State) : State :=
  let arb := s.rd F.UPD_BOOT_ARB
  ({ (updResetCore s).resetPage 0x511 with upd := {} }).wr F.UPD_BOOT_ARB arb

/-- The record of index i as bitmap and log alone tell of it, with its address: the word reads and has the form of R450, and the record
that it leads to, in units 32 to 63, reads and is that of a campaign (R446, R447). -/
def State.keptRecord (s : State) (i : Nat) : Option (Nat × List Byte) :=
  let w := s.leAt (bitmapAddr i) 8
  let a := w % 2 ^ 24
  let m := s.flBytes a 200
  if !(s.cellQual (bitmapAddr i)).unc && w == bitmapWord m a && a % 256 == 0 && 0x200000 ≤ a && a < 0x400000 && s.readable a 200 &&
      mIndex m == i && mCrcOk m && 1 ≤ mCount m && mCount m ≤ 5462 then some (a, m)
  else none

/-- A campaign that a loss of both supplies closed resumes: IMGID and COUNT are those of the first record that the bitmap leads to, the log
the blocks that its words name, and as many as COUNT needs (R450, notes/assumptions/52.md). -/
def updReopen (s : State) : State :=
  let kept := ((List.range 5632).filter s.recorded).filterMap s.keptRecord
  match kept with
  | [] => s
  | (a, m) :: t =>
    let us := t.map fun x => unitOf x.1
    let lo := us.foldl min (unitOf a)
    let n := max (us.foldl max (unitOf a) + 1 - lo) (ceilDiv (mCount m) 256)
    let s1 := (s.wr F.UPD_CAMP_IMGID (mImg m)).wr F.UPD_CAMP_COUNT (mCount m)
    ((s1.wr F.UPD_LOG_FIRST lo).wr F.UPD_LOG_NBLK (min n (64 - lo))).set1 F.UPD_STAT_CAMP

/-- The update block at the release of a reset of the core domain: it reads the boot-state journal and the bitmap, sector by sector,
counts the bitmap, resumes a campaign, and records an abandoned install (R326, R438, R450, R453). -/
def updRelease (s0 : State) : State :=
  let s := (List.range 24).foldl (fun s i => flScan (bjAddr i 0) 0x800 s) s0
  let s1 := updView ((s.wr F.UPD_RXCNT s.recordedCount).set1 F.UPD_STAT_READY)
  let s2 := if s1.on F.UPD_STAT_CAMP || s1.rd F.UPD_RXCNT == 0 then s1 else updReopen s1
  if s2.upd.cut then installAbort 1 (s2.modUpd fun u => { u with cut := false }) else s2

end Sys2Proof.Machine
end

