-- ==== Sys2Proof/Machine/AlarmOps.lean ====
section
/-! DEFINITION. Raising a Larder alarm with everything that follows from it in other blocks: an install is abandoned (R453),
the debug level returns to 0 (R465) and Rest ends (R316, R364); and the die sensor, which can raise one (R349). -/

namespace Sys2Proof.Machine

/-- An alarm cause occurs (R316). -/
def raiseAlarm (i : Nat) (s : State) : State :=
  if bitOf (s.rd F.LAR_ALMEN_EN) i then noteWake (installAlarm ((larAlarm i s).clr F.DBG_STAT_LEVEL)) else s

/-- The cipher partition is retired (R320). -/
def ciphRetire (s : State) : State := raiseAlarm 5 (s.set1 F.CIPH_STAT_RET)

/-- The causes of LAR_ALMSRC that hold, where v tells of those that no state shows: the tamper pins, the supplies, the core clock (R316,
R384, notes/assumptions/94.md). A signature failure and task 112 are over at once. -/
def State.almHolds (s : State) (v : Nat) : Nat :=
  let pin (n : Nat) : Nat := b2n (s.on (F.RTC_TMPCFG_EN n) && bitOf v n) * 2 ^ n
  pin 0 + pin 1 + b2n (bitOf v 2) * 4 + b2n s.tempAlarm * 8 + b2n (bitOf v 4) * 16

/-- Alarm causes are cleared; one that still holds sets again at once (R317). -/
def almClear (m : Nat) (s : State) : State := almSrcClear m (s.almHolds s.free.1) s.free.2

/-- The die leaves LAR_TEMPLIM (R316). -/
def tempAlarmCheck (s : State) : State :=
  if s.tempAlarm && !bitOf (s.rd F.LAR_ALMSRC_SRC) 3 then raiseAlarm 3 s else s

/-! ### Monitors and the die sensor (R349) -/

/-- A monitor's bit sets once per crossing, with its event. -/
def monitor (f : Fld) (ev : Nat) (s : State) : State := if s.on f then s else fire ev (s.set1 f)

/-- The die sensor takes a sample: thresholds with 2 °C of hysteresis, and the Larder's limits (R316, R349). -/
def tempSample (v : Nat) (s : State) : State :=
  let s0 := s.wr F.PWR_TEMP_DEG v
  let t := signed v 16
  let hi := 2 * signed (s0.rd F.PWR_TEMPTHR_HI) 8
  let lo := 2 * signed (s0.rd F.PWR_TEMPTHR_LO) 8
  let s1 := if hi < t then monitor F.PWR_STAT_TEMPHI 14 s0 else if t < hi - 4 then s0.clr F.PWR_STAT_TEMPHI else s0
  let s2 := if t < lo then monitor F.PWR_STAT_TEMPLO 14 s1 else if lo + 4 < t then s1.clr F.PWR_STAT_TEMPLO else s1
  tempAlarmCheck s2

/-- A sample of the free-running sensor: every 1 ms while the core domain runs (R349). -/
def tempRun (v : Nat) (s : State) : State := if s.boot.held || s.inRest then s else tempSample v s

/-- The sample at the end of a compensation window in Rest; no command carries what the sensor finds there (R349;
notes/assumptions/5.md). -/
def tempRest (s : State) : State := if s.inRest && s.aonUp then tempSample (s.free.1 % 2 ^ 16) s.free.2 else s

end Sys2Proof.Machine
end

