-- ==== Sys2Proof/Machine/RegOps.lean ====
section
/-! DEFINITION. Registers by address: which register a byte belongs to, its value, and the merging of a write into its fields
by their access codes (R14, R44). -/

namespace Sys2Proof.Machine

/-- The base address of the copy of a register that covers a byte address. -/
def RegDesc.baseAt (r : RegDesc) (a : Nat) : Option Nat :=
  if a < r.addr then none
  else
    let i := if r.count ≤ 1 then 0 else (a - r.addr) / r.stride
    let b := r.addr + i * r.stride
    if i < max 1 r.count ∧ a < b + r.width / 8 then some b else none

/-- The register that covers a byte address, with the base address of its copy. -/
def regAt (a : Nat) : Option (RegDesc × Nat) :=
  (RegMap.block (a / 0x1000)).foldl (fun found r =>
    match found with
    | some x => some x
    | none => (r.baseAt a).map fun b => (r, b)) none

/-- The field a description stands for in the register at an address; a staged one is the staging copy (R17). -/
def FldDesc.fld (f : FldDesc) (base : Nat) : Fld := .at base f.lo f.w f.rst

/-- The bits of a register that hold a field; the others are reserved (R15). -/
def fieldMask (fields : List FldDesc) : Nat := fields.foldl (fun m f => m ||| (2 ^ f.w - 1) <<< f.lo) 0

/-- A register that a write can act on: some field of it is not RO (R14). -/
def RegDesc.writable (r : RegDesc) : Bool := r.fields.any fun f => f.acc != .ro

/-- The stored value of a register: its readable fields in place (R14). -/
def State.regVal (s : State) (fields : List FldDesc) (base : Nat) : Nat :=
  fields.foldl (fun v f => if f.acc = .wo then v else v + s.rd (f.fld base) * 2 ^ f.lo) 0

/-- One field meets a write of the bits in mask (R14, R44). -/
def mergeFld (base val mask : Nat) (f : FldDesc) (s : State) : State :=
  let h := f.fld base
  let v := bitsOf val f.lo f.w
  let m := bitsOf mask f.lo f.w
  match f.acc with
  | .rw => if m = 0 then s else s.wr h (clearMask (s.rd h) m + (v &&& m))
  | .w1c => if v &&& m = 0 then s else s.wr h (clearMask (s.rd h) (v &&& m))
  | .cnt => if m = 0 then s else s.clr h
  | .ro => s
  | .wo => s

/-- A write of the bits in mask meets every field of a register. -/
def mergeReg (fields : List FldDesc) (base val mask : Nat) (s : State) : State :=
  fields.foldl (fun s f => mergeFld base val mask f s) s

/-- A write of the bits in mask meets the register at an address. -/
def mergeAt (base val mask : Nat) (s : State) : State :=
  match regAt base with
  | some (r, b) => mergeReg r.fields b val mask s
  | none => s

end Sys2Proof.Machine
end

