-- ==== Sys2Proof/Machine/RtcOps.lean ====
section
/-! DEFINITION. The real-time clock (spec/14_rtc_calendar.md): the calendar (R370), counting and second boundaries (R368), the
writes and tasks that an XK32 cycle applies (R372), calendar sets (R373, R374, R376, R377), alarms (R375, R378), the periodic
wake (R379), temperature compensation (R380, R381), PWRON (R383), the tamper inputs (R384) and the backup domain's reset
(R386). -/

namespace Sys2Proof.Machine

/-- Changes the clock's hidden state. -/
def State.modRtc (s : State) (f : RtcState → RtcState) : State := { s with rtc := f s.rtc }

/-! ### The calendar (R370) -/

/-- A year (0 for 2000) is a leap year. -/
def isLeap (y : Nat) : Bool := y % 4 == 0 && (y % 100 != 0 || y % 400 == 0)

/-- The days of a month. -/
def monthDays (y m : Nat) : Nat := if m = 2 then (if isLeap y then 29 else 28) else if m = 4 ∨ m = 6 ∨ m = 9 ∨ m = 11 then 30 else 31

/-- A date and time of day. -/
structure CalTime where
  year : Nat
  month : Nat
  day : Nat
  hour : Nat
  min : Nat
  sec : Nat
  deriving DecidableEq, Repr

/-- Every field lies within R370. -/
def CalTime.ok (c : CalTime) : Bool :=
  c.year ≤ 999 && 1 ≤ c.month && c.month ≤ 12 && 1 ≤ c.day && c.day ≤ monthDays c.year c.month && c.hour ≤ 23 &&
    c.min ≤ 59 && c.sec ≤ 59

/-- The fields of a 64-bit register laid out as RTC_CAL. -/
def CalTime.ofWord (v : Nat) : CalTime :=
  ⟨bitsOf v 54 10, bitsOf v 48 4, bitsOf v 40 5, bitsOf v 32 5, bitsOf v 24 6, bitsOf v 16 6⟩

/-- The days before the first of January of a year, counted from 2000-01-01. -/
def yearDays (y : Nat) : Nat := 365 * y + (y + 3) / 4 - (y + 99) / 100 + (y + 399) / 400

/-- The days before a month in its year. -/
def monthStart (y m : Nat) : Nat := (List.range (m - 1)).foldl (fun n i => n + monthDays y (i + 1)) 0

/-- Days since 2000-01-01. -/
def CalTime.days (c : CalTime) : Nat := yearDays c.year + monthStart c.year c.month + (c.day - 1)

/-- Seconds since 2000-01-01 00:00:00. -/
def CalTime.secs (c : CalTime) : Nat := 86400 * c.days + 3600 * c.hour + 60 * c.min + c.sec

/-- The seconds the calendar covers: to the end of 2999 (R370). -/
def calSpan : Nat := 86400 * yearDays 1000

/-- The month and day of a day within a year. -/
def monthOf (y : Nat) : Nat → Nat → Nat → Nat × Nat
  | 0, m, d => (m, d + 1)
  | n + 1, m, d => if d < monthDays y m then (m, d + 1) else monthOf y n (m + 1) (d - monthDays y m)

/-- The year of a day since 2000-01-01: an estimate from the mean year, then at most one correction. -/
def yearOf (d : Nat) : Nat :=
  let y := d * 400 / 146097
  if d < yearDays y then y - 1 else if yearDays (y + 1) ≤ d then y + 1 else y

/-- The date and time a number of seconds after 2000-01-01 00:00:00. -/
def CalTime.ofSecs (n : Nat) : CalTime :=
  let d := n / 86400
  let y := yearOf d
  let md := monthOf y 11 1 (d - yearDays y)
  ⟨y, md.1, md.2, n / 3600 % 24, n / 60 % 60, n % 60⟩

/-- The weekday of a day since 2000-01-01, a Saturday (6). -/
def wdayOf (days : Nat) : Nat := (days + 6) % 7

/-- The calendar in force. -/
def State.cal (s : State) : CalTime :=
  ⟨s.rd F.RTC_CAL_YEAR, s.rd F.RTC_CAL_MONTH, s.rd F.RTC_CAL_DAY, s.rd F.RTC_CAL_HOUR, s.rd F.RTC_CAL_MIN, s.rd F.RTC_CAL_SEC⟩

/-- The calendar takes a value; WDAY follows the date. -/
def setCal (c : CalTime) (s : State) : State :=
  ((((((s.wr F.RTC_CAL_YEAR c.year).wr F.RTC_CAL_MONTH c.month).wr F.RTC_CAL_DAY c.day).wr F.RTC_CAL_WDAY
    (wdayOf c.days)).wr F.RTC_CAL_HOUR c.hour).wr F.RTC_CAL_MIN c.min).wr F.RTC_CAL_SEC c.sec

/-- The instant of alarm n. -/
def State.alm (s : State) (n : Nat) : CalTime :=
  ⟨s.rd (F.RTC_ALM_YEAR n), s.rd (F.RTC_ALM_MONTH n), s.rd (F.RTC_ALM_DAY n), s.rd (F.RTC_ALM_HOUR n), s.rd (F.RTC_ALM_MIN n),
    s.rd (F.RTC_ALM_SEC n)⟩

/-- The instant of alarm n takes a value. -/
def setAlm (n : Nat) (c : CalTime) (s : State) : State :=
  (((((s.wr (F.RTC_ALM_YEAR n) c.year).wr (F.RTC_ALM_MONTH n) c.month).wr (F.RTC_ALM_DAY n) c.day).wr (F.RTC_ALM_HOUR n)
    c.hour).wr (F.RTC_ALM_MIN n) c.min).wr (F.RTC_ALM_SEC n) c.sec

/-- RTC_CAL as one word, from the fields stored. -/
def State.calWord (s : State) : Nat :=
  s.rd F.RTC_CAL_YEAR * 2 ^ 54 + s.rd F.RTC_CAL_MONTH * 2 ^ 48 + s.rd F.RTC_CAL_DAY * 2 ^ 40 + s.rd F.RTC_CAL_WDAY * 2 ^ 37 +
    s.rd F.RTC_CAL_HOUR * 2 ^ 32 + s.rd F.RTC_CAL_MIN * 2 ^ 24 + s.rd F.RTC_CAL_SEC * 2 ^ 16 + s.rd F.RTC_CAL_SUB

/-! ### PWRON (R383) -/

/-- LATCH sets; the HOLD in force governs its release. -/
def pwronLatch (s : State) : State :=
  let h := s.rd F.RTC_PWRON_HOLD
  (s.modRtc fun r => { r with holdLeft := if h = 0 then none else some h }).set1 F.RTC_PWRON_LATCH

/-- LATCH clears, unless a firing set it in the same XK32 cycle. -/
def pwronClear (s : State) : State :=
  if s.rtc.latchNow then s else (s.modRtc fun r => { r with holdLeft := none }).clr F.RTC_PWRON_LATCH

/-- A source of LATCH fires: alarm 0 or 1, or the wake (2). -/
def pwronSource (i : Nat) (s : State) : State :=
  if bitOf (s.rd F.RTC_PWRON_SRC) i then pwronLatch (s.modRtc fun r => { r with latchNow := true }) else s

/-- A second boundary releases LATCH at the HOLD-th one after it set; a firing in the same XK32 cycle leaves it set. -/
def pwronSecond (s : State) : State :=
  match s.rtc.holdLeft with
  | none => s
  | some h =>
    if s.rtc.latchNow then s
    else if h ≤ 1 then (s.modRtc fun r => { r with holdLeft := none }).clr F.RTC_PWRON_LATCH
    else s.modRtc fun r => { r with holdLeft := some (h - 1) }

/-- PWRON is active. -/
def State.pwronActive (s : State) : Bool := s.on F.RTC_PWRON_SW || s.on F.RTC_PWRON_LATCH

/-- The level of the PWRON ball. -/
def State.pwronPin (s : State) : Bool := s.pwronActive != s.on F.RTC_PWRON_POL

/-! ### Alarms (R375 to R378) -/

/-- A counts as later than the calendar. -/
def State.almLater (s : State) (n : Nat) : Bool := s.rtc.past.getD n false || s.cal.secs < (s.alm n).secs

/-- A advances by whole periods until it is later than the calendar; one carried past the end of 2999 goes on from 2000. An
instant that R370 does not allow, as after a loss of VBK, advances to an open instant within one period. -/
def almAdvance (n per : Nat) (s : State) : State :=
  let now := s.cal.secs
  let a := (s.alm n).secs
  let s1 := if (s.alm n).ok then s else s.free.2
  let nxt := if (s.alm n).ok then (if a ≤ now then a + ((now - a) / per + 1) * per else a + per) else now + 1 + s.free.1 % per
  let c := CalTime.ofSecs (nxt % calSpan)
  setAlm n c (s1.modRtc fun r => { r with past := setAt false r.past n (decide (calSpan ≤ nxt)) })

/-- An alarm fires, on time or late (R375, R376, R378). -/
def almFire (n : Nat) (late : Bool) (s : State) : State :=
  let s1 := s.set1 (if n = 0 then F.RTC_ALMSTAT_FIRED0 else F.RTC_ALMSTAT_FIRED1)
  let s2 := if late then s1.set1 (if n = 0 then F.RTC_ALMSTAT_ALM_LATE0 else F.RTC_ALMSTAT_ALM_LATE1) else s1
  let s3 := pwronSource n (fire (41 + n) s2)
  let per := s3.rd (F.RTC_ALMCTL_REPEAT n)
  if per = 0 then s3.clr (F.RTC_ALMCTL_EN n) else almAdvance n per s3

/-- An armed alarm whose instant the calendar reaches fires. -/
def almCheck (n : Nat) (s : State) : State :=
  if s.on (F.RTC_ALMCTL_EN n) && !s.rtc.past.getD n false && s.alm n == s.cal then almFire n false s else s

/-- An alarm armed too late, or set to an instant that is past, fires at once (R378). -/
def almLateCheck (n : Nat) (s : State) : State :=
  if s.on (F.RTC_ALMCTL_EN n) && !s.almLater n then almFire n true s else s

/-- A forward set from a calendar value crosses an armed alarm (R376). -/
def almCrossed (old : Nat) (n : Nat) (s : State) : State :=
  if s.on (F.RTC_ALMCTL_EN n) && !s.almLater n && old < (s.alm n).secs then almFire n true s else s

/-! ### Counting (R368, R379, R381) -/

/-- The calendar advances by one second; after 2999 it wraps (R370). -/
def calAdvance (s : State) : State :=
  let n := s.cal.secs + 1
  if n = calSpan then
    (setCal (CalTime.ofSecs 0) (s.modRtc fun r => { r with past := [false, false] })).set1 F.RTC_STAT_WRAP
  else setCal (CalTime.ofSecs n) s

/-- A second boundary (R368): the calendar, RTC_SECCNT, event 40, the release of PWRON, the alarms. -/
def secondBoundary (s : State) : State :=
  almCheck 1 (almCheck 0 (pwronSecond (fire 40 ((calAdvance (s.clr F.RTC_CAL_SUB)).incW F.RTC_SECCNT))))

/-- The compensated ticks between two firings of the periodic wake (R379). -/
def State.wakePeriod (s : State) : Nat := 128 * (if s.rd F.RTC_WAKECFG_N = 0 then 2 ^ 24 else s.rd F.RTC_WAKECFG_N)

/-- The periodic wake's divider restarts. -/
def wakeRestart (s : State) : State := s.modRtc fun r => { r with wakeLeft := s.wakePeriod }

/-- The periodic wake elapses (R379, R383). -/
def rtcWakeOp (s : State) : State :=
  if s.on F.RTC_WAKECFG_EN then pwronSource 2 (fire 43 (wakeRestart s)) else s

/-- One compensated tick. -/
def compTick (s : State) : State :=
  let s1 :=
    if s.on F.RTC_WAKECFG_EN then
      if s.rtc.wakeLeft ≤ 1 then rtcWakeOp s else s.modRtc fun r => { r with wakeLeft := r.wakeLeft - 1 }
    else s
  if s1.rd F.RTC_CAL_SUB = 0x7FFF then secondBoundary s1 else s1.incW F.RTC_CAL_SUB

/-! ### Compensation (R380, R381) -/

/-- RES(k). -/
def State.rtcRes (s : State) (k : Nat) : Int := signed (s.rd (F.RTC_RES_RES k)) 8

/-- C from the curve, before clamping (R380). -/
def State.curveC (s : State) : Int :=
  let t := clampInt (-90) 210 (signed (s.rd F.PWR_TEMP_DEG) 16)
  let d := t - signed (s.rd F.RTC_CURVE_T0) 16
  let u := (t + 90).toNat
  let k := u / 20
  let r20 := if k = 15 then 20 * s.rtcRes 15 else 20 * s.rtcRes k + (s.rtcRes (k + 1) - s.rtcRes k) * (u % 20 : Nat)
  let num := signed (s.rd F.RTC_CURVOFS_OFS) 16 * 327680 + signed (s.rd F.RTC_CURVE_QK) 16 * d * d * 20 + r20 * 16384
  (2 * num + 327680) / 655360

/-- The correction of a new window (R380); with CALBAD the curve gives 0 (R382). -/
def State.windowC (s : State) : Int :=
  clampInt (-512) 512
    (match s.rd F.RTC_COMPCTL_MODE with
    | 0 => if s.on F.RTC_COMPCTL_CALBAD then 0 else s.curveC
    | 1 => signed (s.rd F.RTC_COMPCTL_FIX) 11
    | _ => 0)

/-- A window starts: C is fixed; the timebase's nominal increment follows it (R46, R380). While the always-on domain has no
power C stays (R381). -/
def windowStart (s : State) : State :=
  let s1 := s.modRtc fun r => { r with win := 0 }
  let s2 := if s1.boot.aonDown then s1 else s1.wr F.RTC_COMPNOW_C (ofInt s1.windowC 11)
  if s2.aonUp && s2.rd F.TB_STAT_STATE != tbGrid then s2.wr F.TB_INC_INC s2.tbNominal else s2

/-- A window ends: event 47; in Rest the die sensor samples; and the next window starts, with that sample (R349, R381). -/
def windowEnd (s : State) : State := windowStart (tempRest (fire 47 s))

/-- The compensated ticks that crystal cycle j of a window counts (R381). -/
def State.cycleTicks (s : State) (j : Nat) : Nat :=
  let c := signed (s.rd F.RTC_COMPNOW_C) 11
  if j * c.natAbs / 2 ^ 20 < (j + 1) * c.natAbs / 2 ^ 20 then (if 0 < c then 2 else 0) else 1

/-! ### Writes and tasks (R372 to R374) -/

/-- A set or instant outside R370 is refused (R373). -/
def calRefuse (s : State) : State :=
  fire 44 (((s.modRtc fun r => { r with refused := true }).set1 F.RTC_STAT_CAL_INVALID).inc F.RTC_CALREJ)

/-- A calendar set (R373, R374, R376, R377). -/
def calSetOp (v : Nat) (s : State) : State :=
  let c := CalTime.ofWord v
  if c.ok then
    let old := s.cal.secs
    let s1 := ((setCal c s).wr F.RTC_CAL_SUB (v % 2 ^ 15)).set1 F.RTC_STAT_TIMEVALID
    if old < c.secs then almCrossed old 1 (almCrossed old 0 s1) else s1
  else calRefuse s

/-- RTC_ALMn as one word, from the fields stored. -/
def State.almWord (s : State) (n : Nat) : Nat :=
  let c := s.alm n
  c.year * 2 ^ 54 + c.month * 2 ^ 48 + c.day * 2 ^ 40 + c.hour * 2 ^ 32 + c.min * 2 ^ 24 + c.sec * 2 ^ 16

/-- A write of an alarm's instant: the units in mask, of the others the register's own value (R40, R375, R378). -/
def almWrite (n v mask : Nat) (s : State) : State :=
  let c := CalTime.ofWord (clearMask (s.almWord n) mask + (v &&& mask))
  if c.ok then almLateCheck n (setAlm n c (s.modRtc fun r => { r with past := setAt false r.past n false })) else calRefuse s

/-- A W1C of a tamper flag while the pin may still be at its level: the level is an input, so its part is open (R384). -/
def tripClear (n : Nat) (s : State) : State :=
  let f := if n = 0 then F.RTC_TMPSTAT_TRIP0 else F.RTC_TMPSTAT_TRIP1
  if s.on f then
    let s1 := s.free.2
    s1.wrB f (s1.on (F.RTC_TMPCFG_EN n) && s.free.1 % 2 == 1)
  else s

/-- A pending write of the bits in mask to the register at an address takes effect. -/
def rtcWrite (addr val mask : Nat) (s : State) : State :=
  if addr = 0x505008 then calSetOp val s
  else if addr = 0x505020 then almWrite 0 val mask s
  else if addr = 0x505030 then almWrite 1 val mask s
  else if addr = 0x505028 then almLateCheck 0 (mergeAt addr val mask s)
  else if addr = 0x505038 then almLateCheck 1 (mergeAt addr val mask s)
  else if addr = 0x505044 then wakeRestart (mergeAt addr val mask s)
  else if addr = 0x505070 then
    let s1 := mergeAt addr val (clearMask mask 0x10) s
    if bitOf (val &&& mask) 4 then pwronClear s1 else s1
  else if addr = 0x50507C then
    let s1 := if bitOf (val &&& mask) 0 then tripClear 0 s else s
    if bitOf (val &&& mask) 1 then tripClear 1 s1 else s1
  else if addr = 0x505018 ∧ s.rtc.refused then mergeAt addr val (clearMask mask 1) s
  else mergeAt addr val mask s

/-- A pending task takes effect (R379, R383). -/
def rtcTask (n : Nat) (s : State) : State :=
  match n with
  | 16 => pwronLatch (s.set1 F.RTC_PWRON_SW)
  | 17 => pwronClear (s.clr F.RTC_PWRON_SW)
  | 18 => wakeRestart s
  | _ => s

/-- The write of a 16-bit register that is not LL whose highest unit has yet to be written (R372). -/
def rtcHalf (p : RtcPend) : Bool :=
  match p with
  | .write a _ m => m < 0x100 && [0x505048, 0x505054, 0x505070, 0x505078, 0x50507A, 0x505200].contains a
  | .task _ => false

/-- What waits takes effect in the order in which it arrived; a write whose highest unit is yet to come waits on (R372). -/
def rtcApply (s : State) : State :=
  if s.on F.RTC_STAT_XKRDY then
    (s.rtc.pend.filter (!rtcHalf ·)).foldl (fun s p => match p with
      | .write a v m => rtcWrite a v m s
      | .task n => rtcTask n s) (s.modRtc fun r => { r with pend := r.pend.filter rtcHalf })
  else s

/-- A new XK32 cycle begins: nothing has been set or refused in it yet. -/
def rtcCycle (s : State) : State := s.modRtc fun r => { r with latchNow := false, refused := false }

/-- RTC_WRITE_APPLY: the next XK32 cycle applies what waits (R372). -/
def rtcWriteApply (s : State) : State := if s.on F.RTC_STAT_XKRDY then rtcApply (rtcCycle s) else s

/-- A write of one register. -/
def RtcPend.isAt (addr : Nat) (p : RtcPend) : Bool :=
  match p with
  | .write a _ _ => a == addr
  | .task _ => false

/-- A register write waits for the next XK32 cycle; the units of one write go together, and a second write to the same register replaces
the first (R372). -/
def rtcQueue (addr val mask : Nat) (s : State) : State :=
  let new := match s.rtc.pend.find? (·.isAt addr) with
    | some (.write a v m) =>
      if rtcHalf (.write a v m) then .write addr (clearMask v mask + (val &&& mask)) (m ||| mask) else .write addr (val &&& mask) mask
    | _ => .write addr (val &&& mask) mask
  s.modRtc fun r => { r with pend := r.pend.filter (!·.isAt addr) ++ [new] }

/-- A task waits for the next XK32 cycle (R383). -/
def rtcQueueTask (n : Nat) (s : State) : State := s.modRtc fun r => { r with pend := r.pend ++ [.task n] }

/-- RTC_STAT.PENDING. -/
def State.rtcPending (s : State) : Bool :=
  s.rtc.pend.any fun p => match p with | .write _ _ _ => true | .task _ => false

/-- One XK32 cycle of the clock: the count with its correction, a second boundary and its alarms, then what waits (R372). -/
def rtcTick (s0 : State) : State :=
  if s0.on F.RTC_STAT_XKRDY then
    let s := rtcCycle s0
    let j := s.rtc.win
    let s1 := match s.cycleTicks j with
      | 0 => s
      | 1 => compTick s
      | _ => compTick (compTick s)
    let s2 := if j + 1 = 2 ^ 20 then windowEnd s1 else s1.modRtc fun r => { r with win := j + 1 }
    rtcApply s2
  else s0

/-- SECOND_BOUNDARY: the XK32 cycle in which SUB wraps (R368, R372). -/
def rtcSecond (s : State) : State := if s.on F.RTC_STAT_XKRDY then rtcApply (secondBoundary (rtcCycle s)) else s

/-- COMP_WINDOW: a compensation window ends (R381). -/
def compWindow (s : State) : State := if s.on F.RTC_STAT_XKRDY then windowEnd s else s

/-- The crystal is stable: counting starts, with a new window (R369, R381). -/
def xkReady (s : State) : State :=
  if s.rtc.vbk && !s.on F.RTC_STAT_XKRDY then windowStart (s.set1 F.RTC_STAT_XKRDY) else s

/-- The crystal has stopped for more than 1 ms (R369). -/
def xkStop (s : State) : State :=
  if s.rtc.vbk then ((s.set1 F.RTC_STAT_OSCFAIL).clr F.RTC_STAT_XKRDY).clr F.RTC_STAT_TIMEVALID else s

/-- PWRON_RELEASE: the second boundary at which HOLD releases LATCH (R383). -/
def pwronRelease (s : State) : State :=
  match s.rtc.holdLeft with
  | none => s
  | some _ => (s.modRtc fun r => { r with holdLeft := none }).clr F.RTC_PWRON_LATCH

/-! ### Tamper (R384) and the backup domain's reset (R386) -/

/-- The Larder's latch is destroyed over the tamper path; while the device runs, the records are erased afterwards
(R315). -/
def tamperKill (s : State) : State :=
  let s1 := latchDestroy s
  if s.on F.LARDER_POLICY_MODE && s.aonUp && !s.records.isEmpty then larSync (s1.set1 F.LAR_STAT_ERASING) else s1

/-- The time stamp of a trip. -/
def tamperStamp (n : Nat) (s : State) : State :=
  (((((((s.wr (F.RTC_TMPTS_YEAR n) (s.rd F.RTC_CAL_YEAR)).wr (F.RTC_TMPTS_MONTH n) (s.rd F.RTC_CAL_MONTH)).wr
    (F.RTC_TMPTS_DAY n) (s.rd F.RTC_CAL_DAY)).wr (F.RTC_TMPTS_WDAY n) (s.rd F.RTC_CAL_WDAY)).wr
    (F.RTC_TMPTS_HOUR n) (s.rd F.RTC_CAL_HOUR)).wr (F.RTC_TMPTS_MIN n) (s.rd F.RTC_CAL_MIN)).wr
    (F.RTC_TMPTS_SEC n) (s.rd F.RTC_CAL_SEC)).wr (F.RTC_TMPTS_SUB n) (s.rd F.RTC_CAL_SUB)

/-- Tamper input n trips (R384). -/
def tamperTrip (n : Nat) (s : State) : State :=
  if s.rtc.vbk && s.on (F.RTC_TMPCFG_EN n) then
    let f := if n = 0 then F.RTC_TMPSTAT_TRIP0 else F.RTC_TMPSTAT_TRIP1
    let s1 := if s.on f then s else (tamperStamp n s).set1 f
    let s2 := if s1.on (F.RTC_TMPCFG_KILL n) then tamperKill s1 else s1
    let s3 := if s2.on (F.RTC_TMPCFG_WIPE n) then s2.resetRange 0x505100 0x505140 else s2
    if s3.aonUp then raiseAlarm n (fire (45 + n) s3) else s3
  else s

/-- Loss of VBK: every field takes its value after VBK loss, but for the curve (R386). -/
def rtcReset (s : State) : State :=
  let s1 := ((s.resetRange 0x505000 0x505050).resetRange 0x505070 0x506000)
  { s1 with
    latches := s1.latches.filter (fun l => l.page ≠ 0x505)
    holds := s1.holds.filter (fun l => l.page ≠ 0x505)
    rtc := { vbk := false } }

/-- A reset of the always-on or core domain empties the latches only (R41, R386). -/
def rtcLatches (s : State) : State :=
  { s with latches := s.latches.filter (fun l => l.page ≠ 0x505), holds := s.holds.filter (fun l => l.page ≠ 0x505) }

end Sys2Proof.Machine
end

