-- ==== Sys2Proof/Machine/TimerOps.lean ====
section
/-! DEFINITION. The timers (spec/15_timers_lantern_io.md): counting, matches, wraps and one-shots (R389, R390), preloads (R391),
starting and stopping (R392), cascades (R393), captures (R394, R395), Rest and reset (R406, R407). -/

namespace Sys2Proof.Machine

/-- Changes the hidden state of the timers and the lantern I/O block. -/
def State.modLio (s : State) (f : LioState → LioState) : State := { s with lio := f s.lio }

/-- Timer n counts. -/
def State.tmrRun (s : State) (n : Nat) : Bool := s.on (F.TMR_STAT_RUN n)

/-- The count of timer n. -/
def State.tmrCnt (s : State) (n : Nat) : Nat := s.rd (F.TMR_CNT_VAL n)

/-- Timer n is the high half of a cascade (R393). -/
def State.tmrHigh (s : State) (n : Nat) : Bool := n % 2 == 1 && s.rd (F.TMR_CFG_SRC n) == 8

/-- The source of timer n runs in Rest (R389). -/
def State.tmrRestSrc (s : State) (n : Nat) : Bool :=
  let c := s.rd (F.TMR_CFG_SRC n)
  c == 2 || (4 ≤ c && c ≤ 7)

/-- Timer n counts and captures in the present power state: in Rest one on XK32 or a pin, and a high timer as its low one (R389,
R406). -/
def State.tmrAwake (s : State) (n : Nat) : Bool := !s.inRest || s.tmrRestSrc n || (s.tmrHigh n && s.tmrRestSrc (n - 1))

/-- The preloads of timer n become active (R391). -/
def tmrLoad (n : Nat) (s : State) : State :=
  ((s.wr (F.TMR_CMPACT_VAL n) (s.rd (F.TMR_CMP_VAL n))).wr (F.TMR_TOPACT_VAL n) (s.rd (F.TMR_TOP_VAL n))).clr
    (F.TMR_STAT_PRELD n)

/-- A write of TMR_CMP or TMR_TOP of timer n: at once while it is stopped, else at the next wrap (R391). -/
def tmrPreload (n : Nat) (s : State) : State := if s.tmrRun n then s.set1 (F.TMR_STAT_PRELD n) else tmrLoad n s

/-- The prescaler of timer n restarts. -/
def preReset (n : Nat) (s : State) : State := s.modLio fun l => { l with pre := setAt 0 l.pre n 0 }

/-- START: the timer counts on from its count; a one-shot that stands at TOP starts from 0 (R390, R392). -/
def tmrStart (n : Nat) (s : State) : State :=
  let s1 := if s.rd (F.TMR_CFG_MODE n) = 1 ∧ s.tmrCnt n = s.rd (F.TMR_TOPACT_VAL n) then s.clr (F.TMR_CNT_VAL n) else s
  (preReset n s1).set1 (F.TMR_STAT_RUN n)

/-- STOP. -/
def tmrStop (n : Nat) (s : State) : State := s.clr (F.TMR_STAT_RUN n)

/-- CLEAR: the count becomes 0 and the preloads apply (R391, R392). -/
def tmrClear (n : Nat) (s : State) : State := tmrLoad n ((preReset n s).clr (F.TMR_CNT_VAL n))

/-- A write of TMR_CTL: CLEAR acts before START, and STOP wins over START (R392). -/
def tmrCtl (n v : Nat) (s : State) : State :=
  let s1 := if bitOf v 2 then tmrClear n s else s
  if bitOf v 1 then tmrStop n s1 else if bitOf v 0 then tmrStart n s1 else s1

/-- TMR_GSTART. -/
def tmrGstart (set : Nat) (s : State) : State := (bitsSet 8 set).foldl (fun s n => tmrStart n s) s
/-- TMR_GSTOP. -/
def tmrGstop (set : Nat) (s : State) : State := (bitsSet 8 set).foldl (fun s n => tmrStop n s) s

/-- An increment from c by d under TOP matches CMP (R390). -/
def tmrMatches (c d top cmp : Nat) : Bool :=
  let w := (c + d) / (top + 1)
  cmp ≤ top && ((c < cmp && cmp ≤ c + d) || (top < c + d && cmp ≤ (c + d) % (top + 1)) || (top < c + d && 2 ≤ w))

/-- The match of timer n in an increment: CMPF, its event, auto-add (R390). -/
def tmrMatch (n : Nat) (s : State) : State :=
  let s1 := fire (48 + 3 * n) (s.set1 (F.TMR_STAT_CMPF n))
  if s1.rd (F.TMR_CFG_MODE n) = 2 then
    s1.wr (F.TMR_CMPACT_VAL n)
      ((s1.rd (F.TMR_CMPACT_VAL n) + s1.rd (F.TMR_INTV_VAL n)) % (s1.rd (F.TMR_TOPACT_VAL n) + 1))
  else s1

/-- The wraps of an increment by d of timer n (R390). -/
def State.tmrWraps (s : State) (n d : Nat) : Nat :=
  let c := s.tmrCnt n + d
  if s.rd (F.TMR_TOPACT_VAL n) < c then c / (s.rd (F.TMR_TOPACT_VAL n) + 1) else 0

/-- Timer n's count increases by d: match, wrap, preloads, one-shot end (R390, R391). The second component gives the wraps. -/
def tmrAdd (n d : Nat) (s : State) : State × Nat :=
  let c := s.tmrCnt n
  let top := s.rd (F.TMR_TOPACT_VAL n)
  let hit := tmrMatches c d top (s.rd (F.TMR_CMPACT_VAL n))
  if s.rd (F.TMR_CFG_MODE n) = 1 then
    if top ≤ c + d then
      let s1 := if hit ∧ s.rd (F.TMR_CMPACT_VAL n) ≤ top ∧ c < s.rd (F.TMR_CMPACT_VAL n) then s.set1 (F.TMR_STAT_CMPF n) else s
      (fire (48 + 3 * n) (((s1.wr (F.TMR_CNT_VAL n) top).clr (F.TMR_STAT_RUN n)).set1 (F.TMR_STAT_ENDF n)), 0)
    else
      let s1 := s.wr (F.TMR_CNT_VAL n) (c + d)
      (if hit then tmrMatch n s1 else s1, 0)
  else
    let w := s.tmrWraps n d
    let s1 := s.wr (F.TMR_CNT_VAL n) (if w = 0 then c + d else (c + d) % (top + 1))
    let s2 := if hit then tmrMatch n s1 else s1
    (if w ≠ 0 ∧ s2.on (F.TMR_STAT_PRELD n) then tmrLoad n s2 else s2, w)

/-- k source events reach a running timer through its prescaler (R389). -/
def tmrFeed (n k : Nat) (s : State) : State × Nat :=
  if s.tmrRun n && k != 0 then
    let p := s.lio.pre.getD n 0 + k
    let m := 2 ^ s.rd (F.TMR_CFG_PS n)
    let s1 := s.modLio fun l => { l with pre := setAt 0 l.pre n (p % m) }
    if p / m = 0 then (s1, 0) else tmrAdd n (p / m) s1
  else (s, 0)

/-- Wraps of timer n clock a cascaded high timer (R393). -/
def tmrCarry (n w : Nat) (s : State) : State :=
  if n % 2 = 0 ∧ s.tmrHigh (n + 1) then (tmrFeed (n + 1) w s).1 else s

/-- k source events reach timer n, and its wraps the timer above. -/
def tmrEvents (n k : Nat) (s : State) : State := let r := tmrFeed n k s; tmrCarry n r.2 r.1

/-- Timer n counts by d, and its wraps reach the timer above. -/
def tmrCount (n d : Nat) (s : State) : State := let r := tmrAdd n d s; tmrCarry n r.2 r.1

/-- Timer n counts events of its own: SRC 8 on an even timer and SRC 9 to 15 count nothing, a high timer counts the wraps of the timer below
(R389). -/
def State.tmrCounts (s : State) (n : Nat) : Bool := decide (s.rd (F.TMR_CFG_SRC n) < 8)

/-- The counts to timer n's next wrap; one that stands above TOP wraps at its next increment (R390). -/
def State.tmrLeft (s : State) (n : Nat) : Nat := max 1 (s.rd (F.TMR_TOPACT_VAL n) + 1 - s.tmrCnt n)

/-- Timer n runs freely, its source counting in the present power state. -/
def State.tmrFree (s : State) (n : Nat) : Bool :=
  s.tmrRun n && s.rd (F.TMR_CFG_MODE n) != 1 && s.tmrCounts n && s.tmrAwake n

/-- The next wrap of the timer below brings high timer n at least d counts (R393). -/
def State.tmrLifted (s : State) (n d : Nat) : Bool :=
  s.tmrFree (n - 1) &&
    decide (d ≤ (s.lio.pre.getD n 0 + s.tmrWraps (n - 1) (s.tmrLeft (n - 1))) / 2 ^ s.rd (F.TMR_CFG_PS n))

/-- A running timer runs on by d counts, the last of which its prescaler has just passed; a high timer counts in the wrap of the timer
below, where the next one takes it so far (R389, R393). -/
def tmrRunOn (n d : Nat) (s : State) : State :=
  if s.tmrHigh n then
    if s.tmrLifted n d then tmrCount (n - 1) (s.tmrLeft (n - 1)) (preReset (n - 1) s) else s
  else if s.tmrCounts n && s.tmrAwake n then tmrCount n d (preReset n s)
  else s

/-- TIMER_MATCH: a running timer counts to its compare (R390). -/
def tmrToMatch (n : Nat) (s : State) : State :=
  let cmp := s.rd (F.TMR_CMPACT_VAL n)
  if s.tmrRun n && s.tmrCnt n < cmp && cmp ≤ s.rd (F.TMR_TOPACT_VAL n) then tmrRunOn n (cmp - s.tmrCnt n) s else s

/-- TIMER_WRAP: a running timer that wraps counts to its wrap (R390, R391). -/
def tmrToWrap (n : Nat) (s : State) : State :=
  if s.tmrRun n && s.rd (F.TMR_CFG_MODE n) != 1 then tmrRunOn n (s.tmrLeft n) s else s

/-- ONESHOT_END: a running one-shot counts to TOP (R390). -/
def tmrToEnd (n : Nat) (s : State) : State :=
  if s.tmrRun n && s.rd (F.TMR_CFG_MODE n) == 1 then tmrRunOn n (s.rd (F.TMR_TOPACT_VAL n) - s.tmrCnt n) s else s

/-- The running timers on a source count k events; those below a cascade first (R389). -/
def tmrSource (src k : Nat) (s : State) : State :=
  (List.range 8).foldl (fun s n => if s.rd (F.TMR_CFG_SRC n) = src then tmrEvents n k s else s) s

/-- n advances of one fraction each reach the timers on FRAC. -/
def fracFine : Nat → State → State
  | 0, s => s
  | n + 1, s => fracFine n (tmrSource 3 1 s)

/-- Each tick of an advance reaches them with its whole advance at once. -/
def fracTicks (c : TbLine) : Nat → Nat → Int → State → State
  | 0, _, _, s => s
  | k + 1, i, from_, s =>
    let p := max from_ (c.at i)
    fracTicks c k (i + 1) p (tmrSource 3 (p / 2 ^ 24 - from_ / 2 ^ 24).toNat s)

/-- The timers on FRAC meet one advance of network time (R47, R389). -/
def fracAdvance (a : TbAdv) (s : State) : State :=
  match a with
  | .fine _ start stop => fracFine (stop / 2 ^ 24 - start / 2 ^ 24).toNat s
  | .ticks c start k => fracTicks c k 1 start s

/-- The timers on FRAC count the fractions that network time has advanced; frozen in Rest (R389, R406). -/
def tmrFractions (s : State) : State :=
  let s1 := { s with tb := { s.tb with adv := [] } }
  if s1.inRest || (List.range 8).all (fun n => s1.rd (F.TMR_CFG_SRC n) != 3 || !s1.tmrRun n) then s1
  else s.tb.adv.foldl (fun s a => fracAdvance a s) s1

/-! ### Captures (R394, R395) -/

/-- The fields of capture A (false) or B (true) of timer n: its value, CAPNEW and CAPOVR. -/
def capVal (n : Nat) (b : Bool) : Fld := if b then F.TMR_CAPB_VAL n else F.TMR_CAPA_VAL n
/-- CAPNEW. -/
def capNew (n : Nat) (b : Bool) : Fld := if b then F.TMR_STAT_CAPNEWB n else F.TMR_STAT_CAPNEWA n
/-- CAPOVR. -/
def capOvr (n : Nat) (b : Bool) : Fld := if b then F.TMR_STAT_CAPOVRB n else F.TMR_STAT_CAPOVRA n

/-- A capture: the count in force is copied, of a cascade both halves; its event, CAPNEW and perhaps CAPOVR (R134, R394, R395). A trigger
of a cascade's high timer is ignored. -/
def tmrCapture (n : Nat) (b : Bool) (s : State) : State :=
  if s.tmrHigh n then s
  else
    let s1 := s.wr (capVal n b) (s.tmrCnt n)
    let s2 := if n % 2 = 0 ∧ s.tmrHigh (n + 1) then s1.wr (capVal (n + 1) b) (s.tmrCnt (n + 1)) else s1
    let s3 := if s2.on (capNew n b) then s2.set1 (capOvr n b) else s2
    fire (if b then 50 + 3 * n else 49 + 3 * n) (s3.set1 (capNew n b))

/-- CAPxEDGE of timer n's capture. -/
def State.capEdge (s : State) (n : Nat) (b : Bool) : Nat := s.rd (if b then F.TMR_CFG_CAPBEDGE n else F.TMR_CFG_CAPAEDGE n)
/-- CAPxPIN. -/
def State.capPin (s : State) (n : Nat) (b : Bool) : Nat := s.rd (if b then F.TMR_CFG_CAPBPIN n else F.TMR_CFG_CAPAPIN n)

/-- An edge of CNTpin, rising or falling, triggers timer n's capture, but for a timer that Rest has frozen (R394, R406). -/
def State.capMeets (s : State) (pin : Nat) (rising : Bool) (n : Nat) (b : Bool) : Bool :=
  s.tmrAwake n && s.capPin n b == pin && bitOf (s.capEdge n b) (if rising then 0 else 1)

/-- Timer n counts an edge of CNTpin (R389). -/
def State.cntMeets (s : State) (pin : Nat) (rising : Bool) (n : Nat) : Bool :=
  s.rd (F.TMR_CFG_SRC n) == 4 + pin && (if rising then s.rd (F.TMR_CFG_CNTEDGE n) != 2 else decide (2 ≤ s.rd (F.TMR_CFG_CNTEDGE n)))

/-- An edge comes at CNTpin: the captures that it triggers take the counts before it (notes/assumptions/102.md), then the timers that count
it count one (R389, R394). -/
def cntPinEdge (pin : Nat) (rising : Bool) (s : State) : State :=
  let caps := (List.range 16).filter fun i => s.capMeets pin rising (i / 2) (i % 2 == 1)
  let s1 := caps.foldl (fun s i => tmrCapture (i / 2) (i % 2 == 1) s) s
  ((List.range 8).filter (s.cntMeets pin rising)).foldl (fun s n => tmrEvents n 1 s) s1

/-- TIMER_CAPTURE: the task of a capture, or an edge at the pin that it names (R394). -/
def tmrTrigger (n : Nat) (t : CapTrig) (s : State) : State :=
  match t with
  | .task b => tmrCapture n b s
  | .edge b rising => cntPinEdge (s.capPin n b) rising s

/-- A read of a capture register's lowest unit (R395). -/
def capRead (n : Nat) (b : Bool) (s : State) : State := s.clr (capNew n b)

/-! ### Tasks and reset -/

/-- Tasks 24 to 47 (R392, R394). -/
def tmrTask (t : Nat) (s : State) : State :=
  let n := (t - 24) / 3
  match (t - 24) % 3 with
  | 0 => tmrStart n s
  | 1 => tmrCapture n true s
  | _ => tmrCapture n false s

/-- A reset of the core domain stops every timer (R407). -/
def tmrResetCore (s : State) : State :=
  let s1 := (List.range 8).foldl (fun s n => tmrStop n s) s
  { s1 with latches := s1.latches.filter (fun l => l.page ≠ 0x506), holds := s1.holds.filter (fun l => l.page ≠ 0x506) }

/-- A reset of the always-on domain (R407). -/
def tmrResetAon (s : State) : State := (s.resetPage 0x506).modLio fun l => { l with pre := List.replicate 8 0 }

end Sys2Proof.Machine
end

