-- ==== Sys2Proof/Machine/LioOps.lean ====
section
/-! DEFINITION. The lantern outputs and inputs (spec/15_timers_lantern_io.md): local angles (R388), dimming (R396 to R398), the
relays (R399, R400), the sense ADC (R401, R402), the traffic classifier (R403, R404), and the block's commit, Rest and reset
(R405 to R407). -/

namespace Sys2Proof.Machine

/-! ### Local angles (R388) -/

/-- TB_OFS.OFS while it is valid, else 0. -/
def State.localOfs (s : State) : Nat := if s.on F.TB_OFS_VAL then s.rd F.TB_OFS_OFS else 0

/-- The first network time later than t whose fraction, modulo a step of 2^e fractions, is f. -/
def nextFrac (t f e : Nat) : Nat :=
  let m := 2 ^ e
  (t + 1 + (f % m + m - (t + 1) % m) % m) % 2 ^ 48

/-- The first network time later than t at a local angle. -/
def State.nextAngle (s : State) (t a : Nat) : Nat := nextFrac t ((a + s.localOfs) % 65536) 16

/-! ### Dimming (R396 to R398) -/

/-- The dimming clock that the committed settings select is absent. -/
def State.dimClockGone (s : State) : Bool := !s.on F.LIO_DIMCFG_MODE && s.on F.LIO_DIMCFG_CLK && !s.on F.SYS_CLK_XORDY

/-- DIM0 to DIM3 are at the LAMPSAFE level (R396). -/
def State.dimSafe (s : State) : Bool :=
  !s.on F.LIO_CTL_EN || s.on F.PWR_STAT_HOLD || (s.dimClockGone && !s.inRest)

/-- A lost dimming clock is recorded (R396). -/
def dimClockCheck (s : State) : State := if s.dimClockGone && !s.inRest then s.set1 F.LIO_STAT_CLKLOSS else s

/-- The length of a dimming period in clock cycles, or in fractions in phase mode. -/
def State.dimPer (s : State) : Nat :=
  if s.on F.LIO_DIMCFG_MODE then 2 ^ (16 - s.rd F.LIO_DIMCFG_M) else s.rd F.LIO_DIMCFG_PER + 1

/-- h_k of channel c: its active span in period k (R397, R398). -/
def State.dimSpan (s : State) (c k : Nat) : Nat :=
  let d := s.rd (F.LIO_DIM_DUTY c)
  if d = 0xFFFF then s.dimPer else (k + 1) * d * s.dimPer / 65536 - k * d * s.dimPer / 65536

/-- What drives a DIM ball: nothing, a fixed level, or a waveform that is active for a span of each period and then inactive. -/
inductive DimDrive where
  | highZ
  | level (high : Bool)
  | wave (span : Nat) (activeHigh : Bool)
  deriving DecidableEq, Repr

/-- What drives DIMc: nothing while VDDIO is absent; while a reset of the core domain is asserted, for want of a supply too, the LAMPSAFE
ball itself (R351, R396, R406, R475; notes/assumptions/95.md). -/
def State.dimDrive (s : State) (c : Nat) : DimDrive :=
  if s.on F.PWR_STAT_VDDIOLOW then .highZ
  else if s.boot.held then .level (Config.lampBall s.freeSeq)
  else if s.dimSafe then .level (s.on F.PWR_STRAP_LAMPSAFE)
  else if s.inRest then .level (bitOf (s.rd F.LIO_DIMOUT_RESTLVL) c)
  else
    let low := bitOf (s.rd F.LIO_DIMOUT_POL) c
    if bitOf (s.rd F.LIO_DIMOUT_EN) c then .wave (s.lio.span.getD c 0) (!low) else .level low

/-- The consistency rules of a commit (R405). -/
def lioCheck (s : State) : Nat :=
  let clk := if s.on F.LIO_DIMCFG_CLK.stg then 32000000 else 48000000
  let rising (f : Nat → Fld) : Bool := (List.range 6).all fun k => s.rd (f k).stg < s.rd (f (k + 1)).stg
  if !s.on F.LIO_DIMCFG_MODE.stg ∧ 25000 * (s.rd F.LIO_DIMCFG_PER.stg + 1) < clk then 1
  else if (List.range 4).any (fun c =>
      bitOf (s.rd F.LIO_ADCCFG_CHEN.stg) c && s.rd (F.LIO_THR_HI c).stg < s.rd (F.LIO_THR_LO c).stg) then 2
  else if !rising F.TRF_EDGE_U ∨ !rising F.TRF_GEDGE_U then 3
  else 0

/-- A commit boundary of the block: an applied commit restarts the count of periods (R397, R405). -/
def lioCommit (s : State) : State :=
  let ok := commitApplies 0x507 lioCheck s
  let s1 := commitWith 0x507 lioCheck s
  dimClockCheck (if ok then s1.modLio fun l => { l with k := 0 } else s1)

/-- With EN = 0 or no channel enabled the block's boundary source is stopped (R37, R405). -/
def State.dimStopped (s : State) : Bool := !s.on F.LIO_CTL_EN || s.rd F.LIO_DIMOUT_EN == 0

/-- The fraction at which period 0 of a cycle starts in phase mode (R398). -/
def State.dimFrac (s : State) : Nat := (s.rd F.LIO_DIMPH_PH + s.localOfs) % 65536

/-- The start of the next period in phase mode (R398). -/
def State.dimNext (s : State) : Nat := nextFrac s.now s.dimFrac (16 - s.rd F.LIO_DIMCFG_M)

/-- Period 0 of a cycle starts at an instant: event 82, once where network time passes the instant twice (R55, R398). -/
def dimCycle (t : Nat) (s : State) : State := fire 82 (s.modLio fun l => { l with dimDone := some t })

/-- The next period starts: in phase mode time comes to its local angle, and period 0 fires event 82 (R398). -/
def dimStart (s : State) : State :=
  if s.on F.LIO_DIMCFG_MODE then
    let t := s.dimNext
    let s1 := timeTo t s
    if t % 65536 = s.dimFrac ∧ !passed48 s.lio.dimDone t then dimCycle t s1 else s1
  else s

/-- Each channel takes its span in the period that starts (R397). -/
def dimSpans (s : State) : State :=
  s.modLio fun l => { l with k := l.k + 1, span := (List.range 4).map fun c => s.dimSpan c l.k }

/-- Network time stands where the block's boundary is: in phase mode at the start of a period (R398, R405). -/
def State.dimAtStart (s : State) : Bool :=
  !s.on F.LIO_DIMCFG_MODE || (s.now + 65536 - s.dimFrac) % 2 ^ (16 - s.rd F.LIO_DIMCFG_M) == 0

/-- The block's boundary is reached: at once where its source is stopped, else at the start of a period, which needs the dimming clock (R37,
R396, R405). -/
def lioBoundary (s : State) : State :=
  if s.dimStopped || (!s.dimClockGone && s.dimAtStart) then lioCommit s else s

/-- DIM_PERIOD: a period starts, which is the commit boundary; the spans are those of the settings committed there (R397, R398, R405).
Without its clock no period starts. -/
def dimPeriod (s : State) : State :=
  if s.dimStopped || s.dimClockGone then dimClockCheck s else dimSpans (lioCommit (dimStart s))

/-- LIO_CTL.EN takes a value; the first 1 after a reset ends the LAMPSAFE drive (R351, R396). -/
def lioEnable (v : Bool) (s : State) : State := s.wrB F.LIO_CTL_EN v

/-! ### Relays (R399, R400) -/

/-- Relay n. -/
def State.rly (s : State) (n : Nat) : RlyX := s.lio.rly.getD n {}

/-- RLYn at its ball (R399, R475). -/
def State.rlyBall (s : State) (n : Nat) : Option Bool := s.outBall (some (s.rly n).pin)

/-- Changes relay n. -/
def State.modRly (s : State) (n : Nat) (f : RlyX → RlyX) : State := s.modLio fun l => { l with rly := modAt {} l.rly n f }

/-- An angle is honoured: GRID without HOLD, with a valid offset (R400). -/
def State.angleOk (s : State) : Bool :=
  s.rd F.TB_STAT_STATE == tbGrid && !s.on F.TB_STAT_HOLD && s.on F.TB_OFS_VAL

/-- F: the operate time of relay n in fractions, halves rounded upward (R400). -/
def State.rlyF (s : State) (n : Nat) : Nat := roundDiv (s.rd (F.LIO_RLYCFG_DELAY n) * 65536 * s.hz) 1000000

/-- The first drive instant of relay n later than t: a contact instant minus F. -/
def State.nextDrive (s : State) (n t : Nat) : Nat :=
  let f := s.rlyF n
  (s.nextAngle ((t + f) % 2 ^ 48) (s.rd (F.LIO_RLYCFG_ANGLE n)) + 2 ^ 48 - f) % 2 ^ 48

/-- PEND of relay n follows its request. -/
def rlyPend (n : Nat) (s : State) : State :=
  s.wr F.LIO_RLYSTAT_PEND (setBits (s.rd F.LIO_RLYSTAT_PEND) n 1 (b2n (s.rly n).req.isSome))

/-- LEVEL of relay n follows its output. -/
def rlyLevel (n : Nat) (s : State) : State :=
  s.wr F.LIO_RLYSTAT_LEVEL (setBits (s.rd F.LIO_RLYSTAT_LEVEL) n 1 (b2n (s.rly n).pin))

/-- A request without an angle under NOGRID = 1 switches at once (R400). -/
def rlyNoAngle (n : Nat) (s : State) : State :=
  match (s.rly n).req with
  | some (lvl, .waits _) =>
    if !s.angleOk && s.on (F.LIO_RLYCFG_NOGRID n) then
      (s.modRly n fun _ => { pin := lvl, req := some (lvl, .noAngle) }).inc F.RLY_NOANGLE
    else s
  | _ => s

/-- A request of a level for relay n (R399). -/
def rlyRequest (n : Nat) (lvl : Bool) (s : State) : State :=
  let x := s.rly n
  if s.on F.PWR_STAT_HOLD then s.inc F.HOLD_BLOCKED
  else if x.req.isNone ∧ x.pin = lvl then s
  else
    let s1 := if x.req.isSome then s.inc F.RLY_CANCEL else s
    if x.pin = lvl then rlyLevel n (rlyPend n (s1.modRly n fun x => { x with req := none }))
    else
      rlyNoAngle n (rlyPend n (s1.modRly n fun x => { x with req := some (lvl, .waits s1.angleOk) }))

/-- LIO_RLYCMD: the relays marked by VAL request the levels of LEVEL (R399). -/
def rlyCmd (val lvl : Nat) (s : State) : State :=
  (bitsSet 2 val).foldl (fun s n => rlyRequest n (bitOf lvl n) s) s

/-- Relay n is driven for a contact at an instant. -/
def rlyGo (n : Nat) (lvl : Bool) (contact : Nat) (s : State) : State :=
  s.modRly n fun _ => { pin := lvl, req := some (lvl, .driven contact) }

/-- RLY_DRIVE: the next drive instant, with a request pending; where GRID is left on the way, the request waits on (R400). -/
def rlyDrive (n : Nat) (s : State) : State :=
  match (s.rly n).req with
  | some (lvl, .waits _) =>
    if s.angleOk then
      let t := s.nextDrive n s.now
      let s1 := timeTo t s
      if s1.angleOk then rlyGo n lvl ((t + s.rlyF n) % 2 ^ 48) s1 else s1
    else s
  | _ => s

/-- A request ends at its contact: PEND clears, LEVEL shows the new level, event 81 fires (R400). -/
def rlyDone (n : Nat) (s : State) : State :=
  fire 81 (rlyLevel n (rlyPend n (s.modRly n fun x => { x with req := none })))

/-- RLY_CONTACT: the contact instant of a driven relay. -/
def rlyContact (n : Nat) (s : State) : State :=
  match (s.rly n).req with
  | some (_, .driven x) => rlyDone n (timeTo x s)
  | _ => s

/-- RLY_NOANGLE_DONE: DELAY µs after a switch without an angle. -/
def rlyNoAngleDone (n : Nat) (s : State) : State :=
  match (s.rly n).req with
  | some (_, .noAngle) => rlyDone n s
  | _ => s

/-- A relay fires late: LATE sets, and TB_LATE_FIRE counts (R42, R55). -/
def rlyLate (n : Nat) (s : State) : State := (s.setBit F.LIO_RLYSTAT_LATE n).inc F.TB_LATE_FIRE

/-- A step of network time over a drive instant drives at once, one over a contact instant ends the request at once, each with LATE
(R55, R400). -/
def rlyStep (old new : Nat) (n : Nat) (s : State) : State :=
  match (s.rly n).req with
  | some (lvl, .waits true) =>
    if between48 (s.nextDrive n old) old new && s.angleOk then rlyLate n (rlyGo n lvl (s.nextAngle new (s.rd (F.LIO_RLYCFG_ANGLE n))) s) else s
  | some (_, .driven x) => if between48 x old new then rlyLate n (rlyDone n s) else s
  | _ => s

/-- A waiting request notes whether an angle is honoured; without one under NOGRID = 1 it switches at once (R400). -/
def rlyLook (n : Nat) (s : State) : State :=
  match (s.rly n).req with
  | some (lvl, .waits _) => rlyNoAngle n (s.modRly n fun x => { x with req := some (lvl, .waits s.angleOk) })
  | _ => s

/-- The relays follow the lock and its loss (R400). -/
def rlySettle (s : State) : State := rlyLook 1 (rlyLook 0 s)

/-- Pending requests end: at Rest entry counted, at a reset of the core domain not (R406, R407). -/
def rlyEnd (count : Bool) (s : State) : State :=
  (List.range 2).foldl (fun s n =>
    if (s.rly n).req.isSome then
      let s1 := if count then s.inc F.RLY_CANCEL else s
      rlyLevel n (rlyPend n (s1.modRly n fun x => { x with req := none }))
    else s) s

/-! ### Sense ADC (R401, R402) -/

/-- A set starts with the enabled channels; a trigger while one runs is ignored and counted (R401). -/
def adcStart (s : State) : State :=
  if !s.lio.adcq.isEmpty then s.inc F.ADC_OVR
  else s.modLio fun l => { l with adcq := bitsSet 4 (s.rd F.LIO_ADCCFG_CHEN) }

/-- Task 48 or LIO_CTL.GO: a trigger under TRIG = 10b. -/
def adcGo (s : State) : State := if s.rd F.LIO_ADCCFG_TRIG = 2 then adcStart s else s

/-- The first instant of the phase trigger later than a network time: its local angle in a cycle that is a multiple of 2^DIV (R401). -/
def State.adcInstantAfter (s : State) (t0 : Nat) : Nat :=
  let t := s.nextAngle t0 (s.rd F.LIO_ADCCFG_PH)
  let m := 2 ^ s.rd F.LIO_ADCCFG_DIV
  (t + (m - t / 65536 % m) % m * 65536) % 2 ^ 48

/-- The phase trigger's next instant that has not fired. -/
def State.adcInstant (s : State) : Nat := s.adcInstantAfter (fireFrom s.lio.adcDone s.now)

/-- The phase trigger fires for an instant. -/
def adcPhase (t : Nat) (s : State) : State := adcStart (s.modLio fun l => { l with adcDone := some t })

/-- A step of network time over an instant of the phase trigger that has not fired starts a set at once; several instants passed over
start one (R55, R401; notes/assumptions/83.md). -/
def adcStep (old new : Nat) (s : State) : State :=
  let t := s.adcInstantAfter (fireFrom s.lio.adcDone old)
  if s.rd F.LIO_ADCCFG_TRIG = 3 ∧ between48 t old new then (adcPhase new s).inc F.TB_LATE_FIRE else s

/-- A step of network time over the start of a period 0 that has not fired fires event 82 at once (R55, R398; notes/assumptions/83.md). -/
def dimStep (old new : Nat) (s : State) : State :=
  let t := nextFrac (fireFrom s.lio.dimDone old) s.dimFrac 16
  if s.coreUp && s.on F.LIO_DIMCFG_MODE && !s.dimStopped && between48 t old new then (dimCycle new s).inc F.TB_LATE_FIRE else s

/-- The block meets a step of network time. -/
def lioStepped (old new : Nat) (s : State) : State := dimStep old new (adcStep old new (rlyStep old new 1 (rlyStep old new 0 s)))

/-- ADC_SET_START: the trigger that TRIG selects comes; the phase trigger comes at its instant. -/
def adcTrigger (s : State) : State :=
  match s.rd F.LIO_ADCCFG_TRIG with
  | 0 => s
  | 3 => let t := s.adcInstant; adcPhase t (timeTo t s)
  | _ => adcStart s

/-- The event of channel c (R402). -/
def adcEvent (c : Nat) : Nat := match c with | 0 => 84 | 1 => 86 | 2 => 85 | _ => 87

/-- The limits meet a conversion of channel c (R402). -/
def adcLimit (c v : Nat) (s : State) : State :=
  let deb := max 1 (s.rd F.LIO_ADCCFG_DEB)
  let out := decide (s.rd (F.LIO_THR_HI c) < v) || decide (v < s.rd (F.LIO_THR_LO c))
  let n := (if out then s.lio.adcOut else s.lio.adcIn).getD c 0 + 1
  let s1 := s.modLio fun l => { l with
    adcOut := setAt 0 l.adcOut c (if out then n else 0)
    adcIn := setAt 0 l.adcIn c (if out then 0 else n) }
  if out then
    if deb ≤ n && !bitOf (s1.rd F.LIO_STAT_OUT) c then fire (adcEvent c) (s1.setBit F.LIO_STAT_OUT c) else s1
  else if deb ≤ n then s1.clrBit F.LIO_STAT_OUT c
  else s1

/-- ADC_CONVERSION_END: the result of the set's next channel; after the last one event 83, and under TRIG = 01b the next set
(R401). -/
def adcEnd (v : Nat) (s : State) : State :=
  match s.lio.adcq with
  | [] => s
  | c :: rest =>
    let s1 := adcLimit c v ((s.modLio fun l => { l with adcq := rest }).wr (F.LIO_ADC_VAL c) v)
    if rest.isEmpty then
      let s2 := fire 83 s1
      if s2.rd F.LIO_ADCCFG_TRIG = 1 then adcStart s2 else s2
    else s1

/-! ### Traffic classifier (R403, R404) -/

/-- Input n of the classifier. -/
def State.trf (s : State) (n : Nat) : TrfX := s.lio.trf.getD n {}

/-- Changes input n. -/
def State.modTrf (s : State) (n : Nat) (f : TrfX → TrfX) : State := s.modLio fun l => { l with trf := modAt {} l.trf n f }

/-- The bin of a duration in units of 2^−10 s, by the edges (R403). -/
def trfBin (s : State) (edge : Nat → Fld) (d : Nat) : Nat :=
  ((List.range 7).filter fun k => d < s.rd (edge k)).headD 7

/-- A bin counts one; one that reaches FFFFh sets SATF and fires event 80 (R404). -/
def trfCount (n : Nat) (gap : Bool) (k : Nat) (s : State) : State :=
  let old := (if gap then (s.trf n).gapBins else (s.trf n).occBins).getD k 0
  let v := min (old + 1) 0xFFFF
  let s1 := s.modTrf n fun x =>
    if gap then { x with gapBins := setAt 0 x.gapBins k v } else { x with occBins := setAt 0 x.occBins k v }
  if old = 0xFFFE then fire 80 (s1.set1 F.TRF_STAT_SATF) else s1

/-- FILT of input n: the cycles for which a level has been held when it is accepted (R403). -/
def State.trfFilt (s : State) (n : Nat) : Nat := s.rd (F.TRF_CFG_FILT n)

/-- A duration that ended when the level now accepted began, in units of 2^−10 s (R403). -/
def State.trfDur (s : State) (n c : Nat) : Nat := (c - s.trfFilt n) / 32

/-- An arrival on CNTn is accepted, stamped with the first cycle of its level: the gap is binned, event 72 + n (R403). -/
def trfArrival (n : Nat) (s : State) : State :=
  if s.on (F.TRF_CFG_EN n) && (s.trf n).occ.isNone then
    let s1 := match (s.trf n).gap with
      | some c =>
        let d := s.trfDur n c
        trfCount n true (if 65535 ≤ d then 7 else trfBin s F.TRF_GEDGE_U d) s
      | none => s
    fire (72 + n) (s1.modTrf n fun x => { x with occ := some (s.trfFilt n), gap := none })
  else s

/-- A departure on CNTn is accepted, stamped with the first cycle of its level: the occupancy is binned, then event 76 + n (R403). -/
def trfDeparture (n : Nat) (s : State) : State :=
  if s.on (F.TRF_CFG_EN n) && (s.trf n).gap.isNone then
    let s1 := match (s.trf n).occ with
      | some c => trfCount n false (trfBin s F.TRF_EDGE_U (s.trfDur n c)) s
      | none => s
    fire (76 + n) (s1.modTrf n fun x => { x with occ := none, gap := some (s.trfFilt n) })
  else s

/-- The XK32 cycles at which an occupancy counts as stuck (R403). -/
def stuckAt : Nat := 65535 * 32

/-- An occupancy on CNTn reaches 65,535 u (R403). -/
def trfStuckOp (n : Nat) (s : State) : State := (s.setBit F.TRF_STAT_STUCK n).inc F.TRF_STUCKS

/-- TRF_STUCK: an occupancy in progress runs on to 65,535 u. -/
def trfStuck (n : Nat) (s : State) : State :=
  match (s.trf n).occ with
  | some c => if c < stuckAt then trfStuckOp n (s.modTrf n fun x => { x with occ := some stuckAt }) else s
  | none => s

/-- One XK32 cycle of input n. -/
def trfTick (n : Nat) (s : State) : State :=
  let x := s.trf n
  match x.occ, x.gap with
  | some c, _ =>
    let s1 := s.modTrf n fun x => { x with occ := some (c + 1) }
    if c + 1 = stuckAt then trfStuckOp n s1 else s1
  | none, some g => s.modTrf n fun x => { x with gap := some (g + 1) }
  | none, none => s

/-- TRF_CFG.EN of input n has been written: an occupancy in progress at its setting is not counted (R403). -/
def trfEnabled (n : Nat) (was : Bool) (s : State) : State :=
  if was && s.on (F.TRF_CFG_EN n) then s else s.modTrf n fun x => { x with occ := none, gap := none }

/-- A snapshot: all bins are copied and cleared, TRF_SNAPTS and SNAPF (R404). -/
def trfSnap (s : State) : State :=
  let s1 := (List.range 32).foldl (fun s i =>
    let x := s.trf (i / 8)
    (s.wr (F.TRF_OCC i) (x.occBins.getD (i % 8) 0)).wr (F.TRF_GAP i) (x.gapBins.getD (i % 8) 0)) s
  let s2 := (List.range 4).foldl (fun s n =>
    s.modTrf n fun x => { x with occBins := List.replicate 8 0, gapBins := List.replicate 8 0 }) s1
  ((s2.wr F.TRF_SNAPTS_SEC (s2.rd F.RTC_SECCNT)).set1 F.TRF_STAT_SNAPF).modLio fun l => { l with snap := false }

/-- TRF_CMD.SNAP or task 49: a snapshot at the next XK32 cycle (R404). -/
def trfSnapReq (s : State) : State := s.modLio fun l => { l with snap := true }

/-- One XK32 cycle of the lantern I/O block and of the timers on SLOW. -/
def lioTick (s : State) : State :=
  let s1 := tmrSource 2 1 s
  let s2 := (List.range 4).foldl (fun s n => trfTick n s) s1
  if s2.lio.snap then trfSnap s2 else s2

/-! ### Tasks, Rest and reset -/

/-- Tasks 48 to 53. -/
def lioTask (t : Nat) (s : State) : State :=
  match t with
  | 48 => adcGo s
  | 49 => trfSnapReq s
  | 50 => rlyRequest 0 true s
  | 51 => rlyRequest 0 false s
  | 52 => rlyRequest 1 true s
  | 53 => rlyRequest 1 false s
  | _ => s

/-- Rest entry (R406). -/
def lioRest (s : State) : State := (rlyEnd true s).modLio fun l => { l with adcq := [] }

/-- A reset of the core domain (R407). -/
def lioResetCore (s : State) : State :=
  let s1 := (rlyEnd false s).clr F.LIO_CTL_EN
  { s1 with latches := s1.latches.filter (fun l => l.page ≠ 0x507), holds := s1.holds.filter (fun l => l.page ≠ 0x507) }

/-- A reset of the always-on domain (R407). -/
def lioResetAon (s : State) : State := (s.resetPage 0x507).modLio fun l => { pre := l.pre }

end Sys2Proof.Machine
end

