-- ==== Sys2Proof/Machine/HpOps.lean ====
section
/-! DEFINITION. The host port behind its window (spec/16_host_port.md): the status word and HREQ (R414, R425), the frame FIFOs
(R421 to R423), mailboxes (R424), mastering (R429, R430), Rest, reset and retirement (R432, R433). -/

namespace Sys2Proof.Machine

/-- Changes the port's hidden state. -/
def State.modHp (s : State) (f : HpState → HpState) : State := { s with hp := f s.hp }

/-- HP_ERR as one word. -/
def State.hpErr (s : State) : Nat :=
  s.rd F.HP_ERR_MISSED * 256 + s.rd F.HP_ERR_SELECT_FAULT * 128 + s.rd F.HP_ERR_CBAD * 64 + s.rd F.HP_ERR_TXREF * 32 +
    s.rd F.HP_ERR_MBBUSY * 16 + s.rd F.HP_ERR_DENY * 8 + s.rd F.HP_ERR_WRAP * 4 + s.rd F.HP_ERR_UNDERRUN * 2 +
    s.rd F.HP_ERR_FRAME_SHORT

/-- HREQ is driven low (R425, R433). -/
def State.hreq (s : State) : Bool :=
  s.on F.HP_CTL_EN && !s.on F.HP_STAT_PRET &&
    ((s.rd F.HP_MBSTAT_MBOUT &&& s.rd F.HP_CFG_MBMASK) != 0 || (!s.hp.rx.isEmpty && s.on F.HP_CFG_RXEN) ||
      (s.hpErr != 0 && s.on F.HP_CFG_ERREN) || s.on F.HP_CTL_HREQSW)

/-- HREQ at its ball, an open drain: low, or at high impedance (R425, R475). -/
def State.hreqBall (s : State) : Option Bool := s.outBall (if s.hreq then some false else none)

/-- What HSDO carries of what the port sends: nothing while VDDIO is absent (R475). -/
def State.onIo (s : State) (l : List Nat) : List Nat := if s.ioOff then [] else l

/-- The words of the last host frame that HSDO carried; none while it stays at high impedance (R475). -/
def State.hsdo (s : State) : List Nat := s.onIo s.hp.sent

/-- HSCK as an output: its mode and its divider while a master transfer runs; else it is an input (R429, R430). -/
def State.hsckOut (s : State) : Option (Bool × Nat) :=
  if s.on F.HP_STAT_MASTER && !s.ioOff then some (s.on F.HP_MCFG_MODE, s.rd F.HP_MCFG_DIV + 1) else none

/-- The free bytes of the transmit FIFO. -/
def State.txRoom (s : State) : Nat :=
  match s.hp.tx with
  | none => 4096
  | some (_, l) => 4096 - l.length

/-- The status word (R414). -/
def State.hostStatus (s : State) : Nat :=
  b2n s.hreq * 2 ^ 15 + b2n (!s.hp.rx.isEmpty) * 2 ^ 14 + b2n (decide (1536 ≤ s.txRoom)) * 2 ^ 13 +
    s.rd F.PWR_STAT_HOLD * 2 ^ 12 + s.rd F.HP_STAT_HID * 2 ^ 8 + s.rd F.HP_MBSTAT_MBOUT

/-- The port serves: enabled and not retired. -/
def State.hpUp (s : State) : Bool := s.on F.HP_CTL_EN && !s.on F.HP_STAT_PRET

/-- FRAME_SHORT, UNDERRUN or CBAD sets: event 186. -/
def hpFault (f : Fld) (s : State) : State := fire 186 (s.set1 f)

/-! ### Receive FIFO (R421, R422) -/

/-- HF_RXHEAD. -/
def State.rxHead (s : State) : Nat :=
  match s.hp.rx with
  | [] => 0
  | f :: _ => 2 ^ 15 + f.cls % 8 * 2 ^ 12 + f.data.length % 2 ^ 11

/-- A read of HF_RXHEAD sets the read position to 0. -/
def rxRewind (s : State) : State := s.modHp fun h => { h with pos := 0 }

/-- The word at the read position; 0 past the frame's end. -/
def State.rxWord (s : State) : Nat :=
  match s.hp.rx with
  | [] => 0
  | f :: _ => leNat ((f.data.drop (2 * s.hp.pos)).take 2)

/-- A word has been shifted out whole: the read position advances (R422). -/
def rxTake (s : State) : State :=
  match s.hp.rx with
  | [] => s
  | f :: _ =>
    let n := (f.data.length + 1) / 2
    if s.hp.pos < n then s.modHp fun h => { h with pos := h.pos + 1, taken := h.taken || decide (h.pos + 1 = n) } else s

/-- The head frame is released; the next one is presented. -/
def rxRelease (s : State) : State :=
  s.modHp fun h => { h with rx := h.rx.drop 1, pos := 0, taken := false, owedLo := false, owedHi := false }

/-- The reply to a compatibility frame has been shifted out up to an edge: the FIFO words that are out whole are taken, that of
ADDR + 1 in bits [39:24] first (R422, R428). -/
def replyTaken (edges : Nat) (s : State) : State :=
  let s1 := if s.hp.owedHi && decide (40 ≤ edges) then rxTake (s.modHp fun h => { h with owedHi := false }) else s
  if s1.hp.owedLo && decide (56 ≤ edges) then rxTake (s1.modHp fun h => { h with owedLo := false }) else s1

/-- The end of a host frame releases a head frame whose last word was completed in it. -/
def rxFrameEnd (s : State) : State := if s.hp.taken then rxRelease s else s

/-! ### Transmit FIFO (R423) -/

/-- A write of HF_TXLEN. -/
def txOpen (len : Nat) (s : State) : State :=
  let s1 := if s.hp.tx.isSome then (s.set1 F.HP_ERR_TXREF).modHp fun h => { h with tx := none } else s
  if 10 ≤ len ∧ len ≤ 1536 ∧ len ≤ s1.txRoom then s1.modHp fun h => { h with tx := some (len, []) }
  else s1.set1 F.HP_ERR_TXREF

/-- A word written to the aperture: it fills the open frame, which enters forwarding on port 3 when it is complete. -/
def txWord (v : Nat) (s : State) : State :=
  match s.hp.tx with
  | none => s.set1 F.HP_ERR_TXREF
  | some (len, l) =>
    let l1 := l ++ leBytes 2 v
    if len ≤ l1.length then macReceive 3 (l1.take len) none (s.modHp fun h => { h with tx := none })
    else s.modHp fun h => { h with tx := some (len, l1) }

/-! ### Mailboxes (R424) -/

/-- HP_MBSET: outbound mailboxes become full. -/
def hpMbset (v : Nat) (s : State) : State := s.wr F.HP_MBSTAT_MBOUT (s.rd F.HP_MBSTAT_MBOUT ||| v % 256)

/-- The host writes word k of inbound mailbox m. -/
def mbIn (m k v : Nat) (s : State) : State :=
  if bitOf (s.rd F.HP_MBSTAT_MBIN) m then s.set1 F.HP_ERR_MBBUSY
  else
    let s1 := s.wr (F.HP_MBIN_WORD (8 * m + k)) v
    if k = 7 then fire 185 (s1.setBit F.HP_MBSTAT_MBIN m) else s1

/-- The host clears outbound mailbox bits. -/
def mbOutClear (m : Nat) (s : State) : State := s.wr F.HP_MBSTAT_MBOUT (clearMask (s.rd F.HP_MBSTAT_MBOUT) m)

/-- HP_ERR bits are cleared by a mask of ones. -/
def hpErrClear (m : Nat) (s : State) : State :=
  let c (i : Nat) (f : Fld) (s : State) : State := if bitOf m i then s.clr f else s
  c 8 F.HP_ERR_MISSED (c 7 F.HP_ERR_SELECT_FAULT (c 6 F.HP_ERR_CBAD (c 5 F.HP_ERR_TXREF (c 4 F.HP_ERR_MBBUSY
    (c 3 F.HP_ERR_DENY (c 2 F.HP_ERR_WRAP (c 1 F.HP_ERR_UNDERRUN (c 0 F.HP_ERR_FRAME_SHORT s))))))))

/-! ### Mastering (R429, R430) -/

/-- A master transfer starts, unless the port is off or retired or one runs. -/
def hpMasterStart (s : State) : State :=
  if s.hpUp && !s.on F.HP_STAT_MASTER then
    if s.rd (F.SYS_PINCFG_FUNC (s.rd F.HP_MCFG_SELPIN)) = 3 then
      (s.set1 F.HP_STAT_MASTER).modHp fun h => { h with selOff := none }
    else fire 184 ((s.clr F.HP_MSTAT_MCNT).set1 F.HP_MSTAT_MDONE)
  else s

/-- GO or task 120; during a slice of the port's partition it waits for the slice's end, during a frame for the frame's (R42, R429). -/
def hpMasterGo (s : State) : State :=
  if s.bistPart = some 17 then (s.inc F.BIST_HOLD).modHp fun h => { h with goWait := true }
  else if s.hp.frame then s.modHp fun h => { h with goWait := true }
  else hpMasterStart s

/-- A start that waited for a slice's or a frame's end takes place. -/
def hpMasterWaited (s : State) : State :=
  if s.hp.goWait then hpMasterStart (s.modHp fun h => { h with goWait := false }) else s

/-- The bytes of a transfer; the spec states none for LEN above 64, where the number is open (notes/assumptions/5.md). -/
def State.masterLen (s : State) : Nat :=
  let n := s.rd F.HP_MCTL_LEN
  if n = 0 then 64 else if 64 < n then s.free.1 % 64 + 1 else n

/-- A transfer ends with these bytes exchanged: they replace those sent, which HSDO carried unless VDDIO is absent; MDONE, MCNT, event 184
(R429, R475). -/
def masterEnd (rx : List Byte) (s : State) : State :=
  let s0 := s.modHp fun h => { h with msent := s.onIo ((List.range rx.length).map fun i => s.rd (F.HP_MBUF_BYTE i)) }
  let s1 := (List.range rx.length).foldl (fun s i => s.wr (F.HP_MBUF_BYTE i) (rx.getD i 0).toNat) s0
  fire 184 (((s1.wr F.HP_MSTAT_MCNT rx.length).set1 F.HP_MSTAT_MDONE).clr F.HP_STAT_MASTER)

/-- The first n bytes received, 00h for bytes not given. -/
def rxBytes (n : Nat) (rx : List Byte) : List Byte := (List.range n).map fun i => rx.getD i 0

/-- MASTER_DONE: the transfer ends whole. -/
def masterDone (rx : List Byte) (s : State) : State :=
  if s.on F.HP_STAT_MASTER then
    let n := s.masterLen
    masterEnd (rxBytes n rx) (if 64 < s.rd F.HP_MCTL_LEN then s.free.2 else s)
  else s

/-- The most bytes that a transfer can have exchanged. -/
def State.masterMost (s : State) : Nat :=
  let n := s.rd F.HP_MCTL_LEN
  if n = 0 then 64 else min 64 n

/-- The select pin is released to high impedance until the next transfer (R430, R477). -/
def selRelease (s : State) : State := s.modHp fun h => { h with selOff := some (s.rd F.HP_MCFG_SELPIN) }

/-- ABORT: the transfer ends with the bytes exchanged so far, its lines released (R430). -/
def masterAbort (rx : List Byte) (s : State) : State :=
  if s.on F.HP_STAT_MASTER then masterEnd (rx.take s.masterMost) (selRelease s) else s

/-- ABORT by a register write: how many bytes were exchanged, and what was received, is open. -/
def masterAbortOpen (s : State) : State :=
  if s.on F.HP_STAT_MASTER then
    let n := s.free.1 % (min 64 s.masterLen + 1)
    let s1 := selRelease s.free.2
    masterEnd (s1.freeBytes n).1 { s1 with freeSeq := s1.freeSeq + n }
  else s

/-- A transfer that HSEL ended is recorded, and a slice kept away for 300 µs (R430, R433). -/
def selectEnd (s : State) : State := fire 187 (((s.set1 F.HP_ERR_SELECT_FAULT).inc F.SELECT_FAULT).modHp fun h => { h with selAge := busyTicks })

/-- SELECT_FAULT: HSEL falls during a transfer (R430). -/
def selectFault (rx : List Byte) (s : State) : State :=
  if s.on F.HP_STAT_MASTER then selectEnd (masterAbort rx s) else s

/-- A foreign frame during a transfer: as SELECT_FAULT, with an open number of bytes exchanged. -/
def selectFaultOpen (s : State) : State := selectEnd (masterAbortOpen s)

/-! ### Rest, reset, self-test (R409, R432, R433) -/

/-- The host-transaction refuser (R432). -/
def State.hpBusy (s : State) : Bool := s.on F.HP_STAT_SEL || s.on F.HP_STAT_MASTER || s.hp.tx.isSome

/-- The fields that neither Rest nor a reset of the core domain holds. -/
def hpLose (s : State) : State :=
  let s1 := ((((s.resetRange 0x510000 0x510001).resetRange 0x510008 0x510009).resetRange 0x510044 0x510048).resetRange
    0x510060 0x510062).resetRange 0x510064 0x510065
  ((s1.resetRange 0x510200 0x510240).clr F.HP_STAT_MASTER).clr F.HP_STAT_SEL

/-- What outlives Rest and a reset of the core domain beside registers: what HSDO carried, a released select pin, which stays so
until the next transfer (R477), and for how long HSEL has been high (R433). -/
def HpState.kept (h : HpState) : HpState := { sent := h.sent, msent := h.msent, selOff := h.selOff, selAge := h.selAge }

/-- Rest entry: both FIFOs are emptied, their frames counted (R432). -/
def hpRest (s : State) : State :=
  let n := s.hp.rx.length + (if s.hp.tx.isSome then 1 else 0)
  (hpLose ((List.range n).foldl (fun s _ => s.inc F.FWD_RESTDROP) s)).modHp HpState.kept

/-- A reset of the core domain; an open transmit frame is discarded with TXREF (R423, R432). -/
def hpResetCore (s : State) : State :=
  let s0 := if s.hp.tx.isSome then s.set1 F.HP_ERR_TXREF else s
  let s1 := (hpLose s0).modHp HpState.kept
  { s1 with latches := s1.latches.filter (fun l => l.page ≠ 0x510), holds := s1.holds.filter (fun l => l.page ≠ 0x510) }

/-- A reset of the always-on domain. -/
def hpResetAon (s : State) : State := { s.resetPage 0x510 with hp := {} }

/-- The straps are sampled at a release (R409). -/
def hpStraps (hid : Nat) (hmode : Bool) (s : State) : State := (s.wr F.HP_STAT_HID hid).wrB F.HP_STAT_HMODE hmode

/-- The port's partition is retired: a transfer that runs is served no further (R433). -/
def hpRetire (s : State) : State :=
  let s1 := s.set1 F.HP_STAT_PRET
  if s1.on F.HP_STAT_MASTER then selRelease (s1.clr F.HP_STAT_MASTER) else s1

/-- The end of a slice of the port's partition: a frame that was ignored in it is reported, and a start that waited takes place
(R42, R433). -/
def hpSliceEnd (s : State) : State :=
  let s1 := if s.hp.missed then s.set1 F.HP_ERR_MISSED else s
  hpMasterWaited (s1.modHp fun h => { h with missed := false })

/-- A tick of XK32 passes since HSEL last rose (R433). -/
def hpTick (s : State) : State := s.modHp fun h => { h with selAge := h.selAge - 1 }

/-- Tasks 120 to 122. -/
def hpTask (t : Nat) (s : State) : State :=
  match t with
  | 120 => hpMasterGo s
  | 121 => s.set1 F.HP_CTL_HREQSW
  | 122 => s.clr F.HP_CTL_HREQSW
  | _ => s

end Sys2Proof.Machine
end

