-- ==== Sys2Proof/Machine/BistOps.lean ====
section
/-! DEFINITION. Self-test (R456 to R461): passes, the slices of the logic partitions, retirement, and the memory segments. -/

namespace Sys2Proof.Machine

/-- Changes the self-test's hidden state. -/
def State.modBist (s : State) (f : BistState → BistState) : State := { s with bist := f s.bist }

/-- The slices of each partition (R456). -/
def bistSlices : List Nat := [8, 8, 8, 8, 8, 8, 8, 8, 12, 12, 6, 10, 6, 6, 2, 4, 8, 3, 8]

/-- A slot of any lane is out of IDLE. -/
def State.anySlot (s : State) : Bool := s.mod.slots.any (·.busy)

/-- The fraction of a point of every cycle lies at most 300 µs ahead or 50 µs behind. -/
def State.nearFrac (s : State) (x : Nat) : Bool :=
  ofInt ((x : Int) - s.now) 16 ≤ s.usFracs 300 || ofInt ((s.now : Int) - x) 16 ≤ s.usFracs 50

/-- The instant of an enabled comparator lies at most 300 µs ahead (R65). -/
def State.nearCmp (s : State) (i : Nat) : Bool :=
  s.on (cmpEn i) && ofInt ((s.cmpVal i : Int) - s.now) 48 ≤ s.usFracs 300

/-- The timebase's partition is busy: near a cycle boundary, the crossing that GRID predicts, before a comparator's instant, or after one
or a beacon (R457). When the next beacon will be delivered nothing in state tells: that comes with the command. -/
def State.tbBusy (s : State) : Bool :=
  s.nearFrac 0 || s.nearCmp 0 || s.nearCmp 1 || s.tb.busyAge != 0 ||
    (s.on F.TB_CFG_ZCEN && s.rd F.TB_STAT_STATE == tbGrid && s.nearFrac (s.rd F.TB_OFS_OFS))

/-- A partition is busy as far as state shows it (R171, R200, R226, R263, R296, R320, R342, R433, R457). -/
def State.partBusy (s : State) (p : Nat) : Bool :=
  if p < 8 then s.laneLive p || (s.slot p 0).busy || (s.slot p 1).busy
  else if p < 10 then s.cpSt (p - 8) != cpOff && s.cpSt (p - 8) != cpRetired
  else match p with
    | 10 => s.on F.CIPH_CTL_EN && (s.ciph.op.isSome || s.inlineHeld || s.fe.req.any fun r => r.chk != 0)
    | 11 => s.on F.FWD_CTL_EN && (!s.fwd.frames.isEmpty || s.fe_st == feRx || s.cpSt 0 == cpData || s.cpSt 1 == cpData ||
        s.on F.HP_STAT_SEL)
    | 12 => (s.on F.MAC_CTL_EN &&
        (s.mac.tx.isSome || !s.mac.owed.isEmpty || s.mac.ackTx || !s.mac.wins.isEmpty || s.anySlot)) || s.macDemand
    | 13 => s.fe_st != feOff && s.fe_st != feStby
    | 14 => s.tbBusy
    | 15 => s.flBusy || s.fl.readAge != 0
    | 16 => s.whiskAge.getD (s.bist.next.getD 16 0) 0 != 0
    | 17 => !s.on F.HP_CFG_STOK || s.on F.HP_STAT_SEL || s.hp.selAge != 0
    | 18 => s.c3Busy || s.bist.advAge != 0
    | _ => false

/-- A partition is not free for want of its clock (R457). -/
def State.partStopped (s : State) (p : Nat) : Bool := (p < 10 || p == 13) && !s.on F.SYS_CLK_XORDY

/-- A slice of partition p runs (R459). -/
def sliceStart (p : Nat) (s : State) : State :=
  let n := s.bist.next.getD p 0
  let s1 := (((s.set1 F.BIST_STAT_RUN).wr F.BIST_STAT_PART p).wr F.BIST_STAT_SLICE n)
  { s1 with bistPart := some p, whiskTest := if p = 16 then some n else s1.whiskTest }

/-- The banks the memory test may take: enabled, not retained in Rest and not retired (R461). -/
def State.memBankOk (s : State) (b : Nat) : Bool :=
  bitOf (s.rd F.BIST_MEMEN_BANK) b && !bitOf (s.rd F.PWR_RET_BANK) b && !bitOf (s.rd F.BIST_MEMRET_BANK) b

/-- The memory segment of a pass starts, or the pass ends for want of a bank (R461). -/
def segStart (s : State) : State :=
  match ((List.range 16).map fun i => (s.bist.bank + 1 + i) % 16).find? s.memBankOk with
  | none => s.modBist fun x => { x with run := false }
  | some b =>
    (((s.modBist fun x => { x with seg := true, bank := b }).set1 F.BIST_STAT_RUN).wr F.BIST_STAT_PART 0x1F).wr
      F.BIST_STAT_SLICE (s.bist.segs.getD b 0)

/-- A pass goes on at partition p: the next one that is free takes a slice, those that are busy are deferred; at the end a
memory segment is tested (R458). -/
def bistGo (busy : Nat) : Nat → Nat → State → State
  | 0, _, s => segStart s
  | fuel + 1, p, s =>
    if !bitOf (s.rd F.BIST_EN_EN) p || bitOf (s.rd F.BIST_RET_PART) p then bistGo busy fuel (p + 1) s
    else if bitOf busy p || s.partBusy p || s.partStopped p then bistGo busy fuel (p + 1) (s.inc F.BIST_DEFER)
    else sliceStart p s

/-- A pass starts at partition 0 (R458). -/
def bistPass (busy : Nat) (s : State) : State :=
  if s.on F.BIST_CTL_EN && !s.inRest && !s.bist.run then bistGo busy 19 0 (s.modBist fun x => { x with run := true })
  else s

/-- GO or task 125 where nothing tells which partitions are busy by the time that has passed: that is open. -/
def bistPassOpen (s : State) : State := bistPass s.free.1 s.free.2

/-- The retirement of a partition reaches its owner (R459, R460). -/
def partRetire (p : Nat) (s : State) : State :=
  if p < 8 then retireLane p 8 s
  else if p < 10 then cpRetirePart (p - 8) s
  else match p with
    | 10 => ciphRetire s
    | 11 => fwdCommit (s.clr F.FWD_CTL_EN)
    | 12 => s.clr F.MAC_CTL_EN
    | 13 => feRetire s
    | 14 => tbRetire s
    | 15 => s.set1 F.FL_STAT_RET
    | 17 => hpRetire s
    | _ => s

/-- A confirmed mismatch: partition p, or the Whisk group under test, is retired (R459). -/
def bistRetire (p slice : Nat) (s : State) : State :=
  if p = 16 then
    let s1 := s.setBit F.WHISK_GRPRET_RET slice
    fire 191 (if s1.rd F.WHISK_GRPRET_RET = 255 then s1.setBit F.BIST_RET_PART 16 else s1)
  else fire 191 (partRetire p (s.setBit F.BIST_RET_PART p))

/-- The slice's result: a match after a mismatch counts, a first mismatch is to be repeated, a second retires (R459). -/
def sliceResult (p slice : Nat) (ok : Bool) (s : State) : State :=
  let susp := bitOf (s.rd F.BIST_SUSP_PART) p
  let next := s.modBist fun x => { x with next := setAt 0 x.next p ((slice + 1) % bistSlices.getD p 1) }
  if ok then (if susp then (next.clrBit F.BIST_SUSP_PART p).inc F.BIST_TRANSIENT else next)
  else if susp then bistRetire p slice (next.clrBit F.BIST_SUSP_PART p)
  else s.setBit F.BIST_SUSP_PART p

/-- What a slice held reaches its partition (R42, R114, R200, R226, R263, R296, R433, R457). -/
def sliceRelease (p : Nat) (s : State) : State :=
  match p with
  | 8 => cpSliceEnd 0 s
  | 9 => cpSliceEnd 1 s
  | 10 => adverbsGo (cutSliceEnd (fwdSliceEnd s))
  | 11 => cutSliceEnd (fwdSliceEnd s)
  | 12 => fwdSliceEnd s
  | 13 => feSliceEnd s
  | 14 => tbSliceEnd s
  | 15 => flSliceEnd s
  | 17 => hpSliceEnd s
  | 18 => adverbsGo s
  | _ => s

/-- The slice of partition p is over: a Whisk group under test delivers the firings it held (R136), before it can be stopped. -/
def sliceOver (p : Nat) (s : State) : State :=
  let s1 := { s with bistPart := none }.clr F.BIST_STAT_RUN
  if p = 16 then whiskRelease s1 else s1

/-- A slice ends (R459), and the pass goes on. -/
def sliceEnd (ok : Bool) (busy : Nat) (s : State) : State :=
  match s.bistPart with
  | none => s
  | some p =>
    let slice := s.bist.next.getD p 0
    let s2 := sliceRelease p (sliceResult p slice ok (fire 190 ((sliceOver p s).inc F.BIST_SLICES)))
    bistGo busy (18 - p) (p + 1) s2

/-- A bank of SRAM is retired: its addresses count as unassigned (R461). -/
def bankRetire (b : Nat) (s : State) : State := fire 191 (s.setBit F.BIST_MEMRET_BANK b)

/-- A memory segment's test ends, and the pass with it (R461). -/
def segEnd (ok : Bool) (s : State) : State :=
  if s.bist.seg then
    let b := s.bist.bank
    let s1 := (s.modBist fun x => { x with run := false, seg := false, segs := modAt 0 x.segs b fun n => (n + 1) % 8 }).clr
      F.BIST_STAT_RUN
    if ok then s1 else bankRetire b s1
  else s

/-- A tick of XK32 passes since the last adverb to C0, C1 or C3 (R457). -/
def bistTick (s : State) : State := s.modBist fun x => { x with advAge := x.advAge - 1 }

/-- A slice or a memory segment runs: refuser 8 (R360). -/
def State.bistBusy (s : State) : Bool := s.bistPart.isSome || s.bist.seg

/-- A pass in progress is abandoned, at Rest entry or a reset of the core domain; where the next pass goes on stays (R458, R468,
notes/assumptions/97.md). -/
def bistStop (s : State) : State :=
  let s1 := match s.bistPart with | some p => sliceRelease p (sliceOver p s) | none => s
  (s1.modBist fun x => { x with run := false, seg := false }).clr F.BIST_STAT_RUN

/-- A reset of the core domain clears EN (R468). -/
def bistResetCore (s : State) : State :=
  let s1 := (bistStop s).clr F.BIST_CTL_EN
  { s1 with latches := s1.latches.filter (fun l => l.page ≠ 0x512), holds := s1.holds.filter (fun l => l.page ≠ 0x512) }

/-- A reset of the always-on domain. -/
def bistResetAon (s : State) : State :=
  { s.resetPage 0x512 with bist := {}, bistPart := none, whiskTest := none, whiskHeld := [], whiskAge := List.replicate 8 0 }

end Sys2Proof.Machine
end

