-- ==== Sys2Proof/Machine/PowerOps.lean ====
section
/-! DEFINITION. Supplies and monitors (R345 to R349), the resets and what each clears (R350), the watchdog (R352), and Rest
(R359 to R366). -/

namespace Sys2Proof.Machine

/-- Changes the power block's hidden state. -/
def State.modPwr (s : State) (f : PwrState → PwrState) : State := { s with pwr := f s.pwr }

/-- The latches and holding copies of a block empty (R41). -/
def emptyLatches (page : Nat) (s : State) : State :=
  { s with latches := s.latches.filter (fun l => l.page ≠ page), holds := s.holds.filter (fun l => l.page ≠ page) }

/-! ### Resets (R350) -/

/-- XO32 is off at a reset of the core domain, whose own blocks are reset too; the timebase loses ZC_IN (R62, R474). -/
def xoReset (s : State) : State :=
  let s1 := s.clr F.SYS_CLK_XOEN
  if s1.on F.SYS_CLK_XORDY then zcStop ((s1.clr F.SYS_CLK_XORDY).clr F.SYS_CLK_PLLLOCK) else s1

/-- System control keeps its registers through a reset of the core domain but for SRC and XOEN (R474, R477, SYS_CLK). -/
def sysResetCore (s : State) : State := emptyLatches 0x500 (xoReset (s.clr F.SYS_CLK_SRC))

/-- The power block at a reset of the core domain: the watchdog stops, HOLD ends (R352, R357). -/
def pwrResetCore (s : State) : State :=
  emptyLatches 0x501 (((s.clr F.PWR_WDTCFG_EN).clr F.PWR_STAT_HOLD).modPwr fun p => { p with wdt := 0, first := false })

/-- Every block's part in a reset of the core domain: what a slice of the Whisk held is delivered before burner control is reset (R93,
R136); a column port that sends a frame is cut off in it (R204); the modem's receptions end without END, before the front end leaves RX,
and its registers stand at their reset values after it (R170). -/
def coreBlocks (s : State) : State :=
  let s0 := columnPart 1 (columnPart 0 (if s.bistPart = some 16 then sliceOver 16 s else s))
  let s1 := burnerReset (emptyLatches 0x502 (pwrResetCore (sysResetCore s0)))
  let s2 := lioResetCore (tmrResetCore (rtcLatches (emptyLatches 0x504 s1)))
  let s3 := cpResetCore 1 (cpResetCore 0 (modReset (feResetCore (modReset (macResetCore s2)))))
  let s4 := updResetCore (hpResetCore (ciphResetCore (fwdResetCore s3)))
  emptyLatches 0x513 (bistResetCore (flReset s4))

/-- The core domain is reset and held: the boot ROM will start anew, and Rest ends (R93, R350, R366); of the tasks that channels have
driven those of the blocks outside it stand (notes/assumptions/78.md). -/
def coreReset (s : State) : State :=
  let s1 := coreBlocks { s with rest := .running, boot := { s.boot with held := true } }
  { s1 with
    boot := { s1.boot with handedOver := false, started := false, wait := none, parts := [], blobLen := 0, blobParts := 0 }
    pwr := { s1.pwr with wake := false }
    taskq := s1.taskq.filter taskInRest }

/-- A reset of the core domain for a cause (R350). -/
def coreResetBy (cause : Fld) (s : State) : State := coreReset (s.set1 cause)

/-- The self-test block, the debug block and the update block keep their fuses; the power block's supply bits show the
supplies as they are (R345, R347, R349). -/
def pwrResetAon (s : State) : State :=
  let keep := [F.PWR_STAT_ONBAT, F.PWR_STAT_MAINOK, F.PWR_STAT_NVILOW, F.PWR_STAT_VBATLOW, F.PWR_STAT_VDDIOLOW]
  keep.foldl (fun t f => t.wr f (s.rd f)) { s.resetPage 0x501 with pwr := {} }

/-- The debug block at a reset of the always-on domain: the level is 0 again (R465, R468). -/
def dbgResetAon (s : State) : State :=
  let k := s.on F.DBG_STAT_KILLED
  { s.resetPage 0x513 with dbg := {} }.wrB F.DBG_STAT_KILLED k

/-- Every block's part in a reset of the always-on domain. -/
def aonBlocks (s : State) : State :=
  let s1 := tbReset ((pwrResetAon (s.resetPage 0x500)).resetPage 0x502)
  let s2 := modResetAon (feResetAon (lioResetAon (tmrResetAon s1)))
  let s3 := fwdResetAon (macResetAon (cpResetAon 1 (cpResetAon 0 s2)))
  let s4 := hpResetAon (flResetAon (ciphResetAon s3))
  dbgResetAon (bistResetAon (updResetAon s4))

/-- SRAM, the frame buffer and the context RAM lose their supply (R268, R363). -/
def loseAllRam (s : State) : State :=
  let s1 := (List.range 16).foldl (fun s b => s.loseRam b (0x400000 + b * 0x8000) (0x408000 + b * 0x8000)) s
  let s2 := s1.loseRam 16 0x490000 0x4B0000
  { s2 with mem := eraseRange s2.mem 0x480000 0x488000 }

/-- The always-on domain, and with it the core domain, is reset for a cause: RSTCAUSE shows that cause alone (R350); a task driven to
the clock stands (R386). -/
def aonResetBy (cause : Fld) (s : State) : State :=
  let s1 := loseAllRam (aonBlocks (coreReset s))
  (({ s1 with boot := { s1.boot with aon := true }, taskq := s1.taskq.filter fun t => taskBlock t == some 5 }.clr F.PWR_RSTCAUSE_POR).set1 cause)

/-- A brownout (R346). -/
def brownout (s : State) : State :=
  let s1 := aonResetBy F.PWR_RSTCAUSE_POR s
  { s1 with boot := { s1.boot with aonDown := true } }

/-- A write of PWR_RST.CORE (R350). -/
def swResetCore (acc : Nat) (s : State) : State :=
  if s.accSecure acc then coreResetBy F.PWR_RSTCAUSE_SWCORE s else brnErr acc s

/-- A write of PWR_RST.AON (R350). -/
def swResetAon (acc : Nat) (s : State) : State :=
  if s.accSecure acc then aonResetBy F.PWR_RSTCAUSE_SWAON s else brnErr acc s

/-- VBK falls: the backup domain is reset, a pending erasure's bit with it, and a latched wrap key is lost (R315, R316, R350). -/
def vbkLoss (s : State) : State :=
  let s1 := tamperKill (larSync ((rtcReset s).clr F.LAR_STAT_ERASING))
  if s1.boot.aonDown then s1 else s1.set1 F.PWR_RSTCAUSE_VBK

/-- VBK counts as present (R350). -/
def vbkPresent (s : State) : State := s.modRtc fun r => { r with vbk := true }

/-! ### The watchdog (R352) -/

/-- XK32 ticks of the watchdog's period. -/
def State.wdtTicks (s : State) : Nat := 128 * max 1 (s.rd F.PWR_WDTCFG_PER)

/-- The watchdog expires: the core domain is reset, and a trial counts it (R352, R444). -/
def wdtExpire (s : State) : State :=
  let s1 := s.inc F.PWR_WDTEXP
  coreResetBy F.PWR_RSTCAUSE_WDT (if s1.on F.UPD_TRIAL_ACTIVE then s1.inc F.UPD_TRIAL_EXPS else s1)

/-- A write of PWR_WDTKICK. -/
def wdtKick (v : Nat) (s : State) : State :=
  if !s.on F.PWR_WDTCFG_EN then s
  else if v = 0xC3 then s.modPwr fun p => { p with wdt := s.wdtTicks }
  else wdtExpire s

/-- The watchdog counts in the present power state. -/
def State.wdtCounts (s : State) : Bool := s.on F.PWR_WDTCFG_EN && (!s.inRest || s.on F.PWR_WDTCFG_REST)

/-- An XK32 tick of the watchdog. -/
def wdtTick (s : State) : State :=
  if s.wdtCounts then
    if s.pwr.wdt ≤ 1 then wdtExpire s else s.modPwr fun p => { p with wdt := p.wdt - 1 }
  else s

/-- PWR_WDTCFG.EN is written: 1 starts the count, a write of 0 is ignored, and HOLD ignores both (R352, R357). -/
def wdtEnable (v : Bool) (s : State) : State :=
  if v && !s.on F.PWR_WDTCFG_EN && !s.on F.PWR_STAT_HOLD then
    (s.set1 F.PWR_WDTCFG_EN).modPwr fun p => { p with wdt := s.wdtTicks }
  else s

/-- A trial period ends: LEFT counts down, and at 0 the core domain is reset as by the watchdog (R444). -/
def trialPeriod (s : State) : State :=
  if s.on F.UPD_TRIAL_ACTIVE && s.rd F.UPD_TRIAL_LEFT != 0 then
    let s1 := (s.wr F.UPD_TRIAL_LEFT (s.rd F.UPD_TRIAL_LEFT - 1)).modUpd fun u => { u with trial := u.period }
    if s1.rd F.UPD_TRIAL_LEFT = 0 then coreResetBy F.PWR_RSTCAUSE_WDT (s1.inc F.PWR_WDTEXP) else s1
  else s

/-- An XK32 tick of a trial. -/
def trialTick (s : State) : State :=
  if s.on F.UPD_TRIAL_ACTIVE && s.upd.trial != 0 then
    if s.upd.trial = 1 then trialPeriod s else s.modUpd fun u => { u with trial := u.trial - 1 }
  else s

/-! ### Supplies and monitors (R345, R347, R349) -/

/-- An operation of the supplies and the reset controller, which run while the device is powered (R345 to R350). -/
def whenPowered (f : State → State) (s : State) : State := if s.boot.aonDown then s else f s

/-- An operation of the always-on domain. -/
def whenAon (f : State → State) (s : State) : State := if s.aonUp then f s else s

/-- The power path moves (R345). -/
def pathToVbat (s : State) : State :=
  if s.on F.PWR_STAT_ONBAT then s else fire 5 ((s.set1 F.PWR_STAT_ONBAT).clr F.PWR_STAT_MAINOK)
def pathToVmain (s : State) : State :=
  if s.on F.PWR_STAT_ONBAT then fire 6 ((s.clr F.PWR_STAT_ONBAT).set1 F.PWR_STAT_MAINOK) else s.set1 F.PWR_STAT_MAINOK

/-! ### Rest (R359 to R366) -/

/-- Some burner is in a state. -/
def State.anyIn (s : State) (st : Nat) : Bool := (List.range 16).any fun b => s.bstate b == st

/-- The condition of a Rest attempt (R359), but for EN and HOLD. -/
def State.restBurners (s : State) : Bool := !s.anyIn stRun && s.anyIn stSleep

/-- EN and HOLD permit Rest. -/
def State.restPermitted (s : State) : Bool := s.on F.PWR_RESTCTL_EN && !s.on F.PWR_STAT_HOLD

/-- The MAC holds the radio (R261). -/
def State.macRefuses (s : State) : Bool :=
  s.mac.tx.isSome || !s.mac.owed.isEmpty || s.mac.ackTx || !s.mac.wins.isEmpty || s.mac.pwin

/-- PWR_REFUSERS.PRESENT: refuser n in bit n − 1 (R360). Between commands only a firing that a self-test slice holds has a wake on its
way to burner control (R134). -/
def State.refusers (s : State) : Nat :=
  let cp (p : Nat) : Bool := s.cpSt p == cpTrain || s.cpSt p == cpData || s.cpSt p == cpProbe
  let fe := s.fe_st
  b2n (cp 0 || cp 1) +
  2 * b2n (s.anySlot || fe == feRampup || fe == feTx || fe == feRampdn || fe == feCalSt || s.macRefuses) +
  4 * b2n s.flBusy +
  8 * b2n s.hpBusy + 16 * b2n (s.whiskHeld.any (·.masked)) + 32 * b2n (s.anyIn stWait) + 64 * b2n s.updBusy + 128 * b2n s.bistBusy

/-- The lowest refuser present. -/
def lowestRefuser (mask : Nat) : Nat := (((List.range 8).find? (bitOf mask)).map (· + 1)).getD 0

/-- A refused or aborted entry counts (R361, R362). -/
def restRefused (code : Nat) (abort : Bool) (s : State) : State :=
  fire 11 (((s.inc F.REST_REFUSED).wr F.PWR_RESTREF_CODE code).wrB F.PWR_RESTREF_ABORT abort)

/-- A refusal that a half-full page buffer alone causes among installs flushes it (R449). -/
def flushForRest (s : State) : State :=
  if !s.on F.UPD_STAT_INSTALLING && s.upd.prog.isNone && s.upd.marks.isEmpty && s.upd.buf.length == 1 then updFlush s else s

/-- A Rest attempt: refused, counted only where the refusers have changed, or closing begins (R359 to R362). -/
def restAttempt (s : State) : State :=
  if s.rest = .running && s.restPermitted && s.restBurners then
    let m := s.refusers
    if m = 0 then { s with rest := .closing }.modPwr fun p => { p with wake := false }
    else
      let s1 := flushForRest s
      if s.pwr.counted = some m then s1
      else restRefused (lowestRefuser m) false (s1.modPwr fun p => { p with counted := some m })
  else s

/-- During the closing: a refuser, a burner that leaves the condition, or a wake aborts the entry; the loss of EN or HOLD
gives it up without a refusal (R362). -/
def restCheck (s : State) : State :=
  if s.rest ≠ .closing then s
  else if !s.restPermitted then { s with rest := .running }
  else if s.refusers ≠ 0 then restRefused (lowestRefuser s.refusers) true { s with rest := .running }
  else if s.pwr.wake then restRefused 5 true { s with rest := .running }
  else if !s.restBurners then restRefused 6 true { s with rest := .running }
  else s

/-- Burner control at Rest entry: what the save RAM does not hold is lost (R92, R121). -/
def brnRest (s : State) : State :=
  { s with
    brn := s.brn.map fun x => { await := x.await, csync := x.csync, c2bad := x.c2bad, c3bad := x.c3bad }
    c3 := if s.c3.busy || s.c3.ended then { ended := true, issuer := s.c3.issuer } else {}
    latches := []
    holds := [] }

/-- The clocks in Rest: the PLL is off, and XO32 unless it is kept warm (R28, R365). -/
def clkRest (s : State) : State :=
  let s1 := (s.clr F.SYS_CLK_SRC).clr F.SYS_CLK_PLLLOCK
  if s1.on F.SYS_CLK_XOWARM then s1 else s1.clr F.SYS_CLK_XORDY

/-- Isolation: every block takes its Rest entry (R362). -/
def restIsolation (s : State) : State :=
  if s.rest ≠ .closing then s
  else
    let s0 := { (s.incW F.PWR_RESTS).modPwr (fun p => { p with counted := none }) with rest := .isolated }
    let s1 := cpRest 1 (cpRest 0 (macRest (modReset (feRest (modReset (zcStop s0))))))
    let s2 := lioRest (hpRest (ciphRest (fwdRest s1)))
    brnRest (clkRest (bistStop (updRest s2)))

/-- Power-down: the memories that are not retained lose their contents (R362, R363). -/
def restPowerdown (s : State) : State :=
  if s.rest ≠ .isolated then s
  else
    let lost (b : Nat) : Bool := !bitOf (s.rd F.PWR_RET_BANK) b || bitOf (s.rd F.BIST_MEMRET_BANK) b
    let s1 := (List.range 16).foldl
      (fun s b => if lost b then s.loseRam b (0x400000 + b * 0x8000) (0x408000 + b * 0x8000) else s) s
    let s2 := s1.loseRam 16 0x490000 0x4B0000
    let s3 := if s2.on F.PWR_RET_CTX then s2 else { s2 with mem := eraseRange s2.mem 0x480000 0x488000 }
    { s3 with rest := .asleep }

/-- A wake cause starts the exit (R364). -/
def restWake (s : State) : State :=
  if s.rest = .asleep && s.pwr.wake then { s with rest := .exiting }.modPwr fun p => { p with wake := false } else s

/-- The first word after a Rest exit issues: source 10 fires, and source 175 where Rest ended a C3 operation (R121, R365). -/
def firstWord (s : State) : State :=
  if s.pwr.first then
    let s1 := s.modPwr fun p => { p with first := false }
    fire 10 (if s1.c3.ended then fire 175 { s1 with c3 := { s1.c3 with ended := false } } else s1)
  else s

/-- The exit ends: burner state is restored, a woken burner issues its first word (R92, R121, R365). -/
def restExitDone (temp : Nat) (s : State) : State :=
  if s.rest ≠ .exiting then s
  else
    let s0 := { s with rest := .running }.modPwr fun p => { p with first := true }
    let s1 := if s0.c3.ended then
        { s0 with c3 := { s0.c3 with abort := true } }.modBx s0.c3.issuer fun x => { x with c3bad := true }
      else s0
    let s2 := cpSeek 1 (cpSeek 0 (macWake (fwdWake (tempSample temp s1))))
    let s3 := (List.range 16).foldl (fun s b => wakeOp b s) s2
    if s3.anyIn stRun then firstWord s3 else s3

end Sys2Proof.Machine
end

