-- ==== Sys2Proof/Machine/BootOps.lean ====
section
/-! DEFINITION. Start-up (R353, R439): the configuration record (R354 to R356, R443), HOLD and its recovery (R357, R358), the
choice of an image (R441) and the handover (R442). -/

namespace Sys2Proof.Machine

/-! ### The configuration record -/

/-- The bytes of the sector that holds copy j (R354). -/
def State.cfgBytes (s : State) (j : Nat) : List Byte := s.flBytes (0x541000 + j * 0x800) 0x800

/-- A field of a record: n bytes at an offset, least significant first. -/
def cfgAt (r : List Byte) (off n : Nat) : Nat := leNat ((r.drop off).take n)

/-- A field of a record's body. -/
def bodyAt (r : List Byte) (off n : Nat) : Nat := cfgAt r (16 + off) n

/-- The bytes from an offset on are 00h. -/
def cfgZero (r : List Byte) (off n : Nat) : Bool := ((r.drop off).take n).all (· == 0)

/-- BLEN. -/
def cfgLen (r : List Byte) : Nat := cfgAt r 8 2

/-- Every byte shown as 00h in R354 and R355 is 00h. -/
def cfgZeros (r : List Byte) : Bool :=
  cfgZero r 3 1 && cfgZero r 10 6 && cfgZero r (20 + cfgLen r) 4 && cfgZero r 26 22

/-- The system fields and the boot fields lie in their ranges (R355, R443). -/
def cfgRanges (r : List Byte) : Bool :=
  bodyAt r 0 1 ≤ 2 && bodyAt r 1 1 ≤ 8 && bodyAt r 2 1 ≤ 24 && bodyAt r 3 1 ≤ 1 && bodyAt r 6 1 ≤ 1 && bodyAt r 7 1 ≤ 1 &&
    1 ≤ bodyAt r 8 2 && 1 ≤ bodyAt r 32 1 && bodyAt r 33 1 ≤ 2 && bodyAt r 34 1 ≤ 1 && bodyAt r 35 1 ≤ 24 &&
    1 ≤ bodyAt r 38 2 && bodyAt r 38 2 ≤ 60000 && cfgZero r 56 24 && cfgAt r 4 4 ≠ 0xFFFFFFFF

/-- The code with which a record fails its checks, 0 for none; readable says whether its bytes read correctably (R356). -/
def cfgCode (r : List Byte) (readable : Bool) : Nat :=
  let n := cfgLen r
  if cfgAt r 0 2 ≠ 0xC7F1 then 1
  else if cfgAt r 2 1 ≠ 1 then 2
  else if n < 64 ∨ 2000 < n ∨ n % 8 ≠ 0 then 3
  else if cfgAt r (16 + n) 4 ≠ crc32 (r.take (16 + n)) then 4
  else if !cfgZeros r then 5
  else if !cfgRanges r then 6
  else if bodyAt r 2 1 < bodyAt r 1 1 + 6 then 7
  else if !readable then 8
  else 0

/-- The code of copy j as it stands in flash. -/
def State.copyCode (s : State) (j : Nat) : Nat :=
  let r := s.cfgBytes j
  cfgCode r (s.readable (0x541000 + j * 0x800) (24 + min 2000 (cfgLen r)))

/-- The copy in force: the valid one with the higher SEQ, copy 0 on a tie. -/
def State.copySel (s : State) : Option Nat :=
  let ok0 := s.copyCode 0 == 0
  let ok1 := s.copyCode 1 == 0
  if ok0 && ok1 then some (if cfgAt (s.cfgBytes 0) 4 4 < cfgAt (s.cfgBytes 1) 4 4 then 1 else 0)
  else if ok0 then some 0 else if ok1 then some 1 else none

/-- The fields of the record in force reach their registers (R355, R443). -/
def cfgApply (r : List Byte) (s : State) : State :=
  let s1 := (s.wr F.SYS_ROLE_ROLE.stg (bodyAt r 0 1)).set1 F.SYS_COMMIT_PEND
  let s2 := (s1.wr F.PWR_NVI_LEVEL (bodyAt r 1 1)).wr F.PWR_VBATWARN_LEVEL (bodyAt r 2 1)
  let s3 := s2.wr F.TB_CFG_HZ.stg (bodyAt r 3 1)
  let s4 := if s3.rd F.TB_STAT_STATE = tbVirtual then s3.set1 F.TB_COMMIT_PEND else s3
  let s5 := ((s4.wr F.PWR_RET_BANK (bodyAt r 4 2)).wr F.PWR_RET_CTX (bodyAt r 6 1)).wr F.PWR_RESTCTL_EN (bodyAt r 7 1)
  let s6 := (s5.wr F.PWR_WDTCFG_PER (bodyAt r 8 2)).modUpd fun u => { u with period := 128 * bodyAt r 8 2 }
  let s7 := (s6.wr F.DBG_STAT_MAX (bodyAt r 33 1)).wr F.DBG_STAT_LEVEL (min (s6.rd F.DBG_STAT_LEVEL) (bodyAt r 33 1))
  ((s7.wr F.BIST_CTL_EN (bodyAt r 34 1)).wr F.UPD_VMIN_LEVEL (bodyAt r 35 1)).wr F.BIST_CFG_PER (bodyAt r 38 2)

/-- PWR_CFGSTAT records the outcome, and source 13 fires for each copy that is not valid (R356). -/
def cfgRecord (s : State) : State :=
  let c0 := s.copyCode 0
  let c1 := s.copyCode 1
  let reads := fun (j : Nat) (s : State) =>
    let n := cfgLen (s.cfgBytes j)
    flScan (0x541000 + j * 0x800) (if n < 64 ∨ 2000 < n then 16 else 24 + n) s
  let s1 := ((reads 1 (reads 0 s)).wr F.PWR_CFGSTAT_C0CODE c0).wr F.PWR_CFGSTAT_C1CODE c1
  let s2 := match s.copySel with
    | some j => (s1.wr F.PWR_CFGSTAT_SEL j).wr F.PWR_CFGSTAT_SEQ (cfgAt (s.cfgBytes j) 4 4)
    | none => (s1.wr F.PWR_CFGSTAT_SEL 2).clr F.PWR_CFGSTAT_SEQ
  let s3 := if c0 = 0 then s2 else fire 13 s2
  if c1 = 0 then s3 else fire 13 s3

/-! ### HOLD (R357, R358) -/

/-- The device enters HOLD: a link stops transmitting, in the middle of a frame too, and the highest debug level is 2 (R218, R357,
R464). -/
def enterHold (s : State) : State :=
  let s1 := [0, 1].foldl (fun s p => if s.cpUp p then columnPart p s else s) s
  fire 12 ((s1.set1 F.PWR_STAT_HOLD).wr F.DBG_STAT_MAX 2)

/-- A staged field takes a value in both copies. -/
def wrBoth (f : Fld) (v : Nat) (s : State) : State := (s.wr f.stg v).wr f v

/-- BAND and the LO 200 kHz above the recovery channel, 434.650 or 869.850 MHz by the board's band, rounded to the nearest step of FRAC
(R174, R176, R358). -/
def recoveryLo (s : State) : State :=
  let frac := if Config.lowBand then 0x96CCCD else 0x306666
  wrBoth F.FE_LO_FRAC frac (wrBoth F.FE_LO_INT (if Config.lowBand then 13 else 27) (wrBoth F.FE_CFG_BAND (b2n !Config.lowBand) s))

/-- The boot ROM sets lane 0 to listen for a recovery record (R358). -/
def holdListen (s : State) : State :=
  let s1 := (s.set1 F.SYS_CLK_XOEN).clr F.MAC_CTL_EN
  let s2 := recoveryLo s1
  let s3 := ((((s2.set1 (F.LANE_CFG_EN 0)).clr (F.LANE_CFG_NIDANY 0)).wr (F.LANE_CFG_BW 0) 1).wr (F.LANE_CFG_ORD 0) 0x20).wr
    (F.LANE_OFS_OFS 0) (ofInt (-4000) 16)
  let s4 := ((s3.wr F.MOD_NID_NID 0x3FF).set1 F.MOD_CTL_EN).set1 (F.LANE_CTL_SRCH 0)
  feRxReq (s4.set1 F.FE_CTL_EN)

/-! ### Choosing an image (R441, R442) -/

/-- The handover to a slot (R442, R466). -/
def handOver (slot : Nat) (s : State) : State :=
  let s1 := ((s.wr (F.BRN_CBASE_BASE 0) (slotBase slot + 0x100)).wr (F.BRN_CLIM_LAST 0) (s.hdr slot 24 2)).setPc 0
    (s.hdr slot 26 2)
  let s2 := emptyLines (s1.wr F.UPD_BOOT_RUNSLOT slot)
  let s3 := { s2 with boot := { s2.boot with handedOver := true, wait := none } }
  if s3.on F.DBG_CTL_HALTBOOT && s3.rd F.DBG_STAT_LEVEL == 2 then park 0 s3 else s3

/-- A journal record is written at boot, or the boot ROM waits for the supply and the flash controller (R335, R347, R438). -/
def bootWrite (w : Nat) (f : State → State) (s : State) : State :=
  if s.flFree then f (bjAppend w s) else { s with boot := { s.boot with wait := some .journal } }

/-- Steps 3 to 5 of R441. -/
def bootActive (s : State) : State :=
  let a := s.activeSlot
  let s1 := imageCheck a s
  if s1.imageCode a = 0 then handOver a s1
  else
    let s2 := imageCheck (1 - a) s1
    if s2.imageCode (1 - a) = 0 then
      bootWrite (bjRec 5 (1 - a) (s2.hdr (1 - a) 16 1) 0) (fun s => handOver (1 - a) (s.set1 F.UPD_BOOT_FALLBACK)) s2
    else holdListen (enterHold s2)

/-- A trial has failed: REVERT is written (R441). -/
def bootRevert (w : Nat) (count : Bool) (s : State) : State :=
  bootWrite (bjRec 4 (bjSlot w) (s.hdr (bjSlot w) 16 1) 0) (fun s =>
    let s1 := (s.set1 F.UPD_BOOT_REVERTED).clr F.UPD_TRIAL_ACTIVE
    bootActive (if count then s1.inc F.UPD_REVERTS else s1)) s

/-- A trial begins: START is written and the counters load (R441, R444). -/
def bootTrial (w trialN : Nat) (s : State) : State :=
  let slot := bjSlot w
  bootWrite (bjRec 2 slot (s.hdr slot 16 1) 0) (fun s =>
    let s1 := (((s.set1 F.UPD_TRIAL_ACTIVE).wr F.UPD_TRIAL_SLOT slot).wr F.UPD_TRIAL_LEFT trialN).clr F.UPD_TRIAL_EXPS
    handOver slot (s1.modUpd fun u => { u with trial := u.period })) s

/-- TRIALN of the record in force. -/
def State.trialN (s : State) : Nat :=
  match s.copySel with | some j => bodyAt (s.cfgBytes j) 32 1 | none => 1

/-- The boot ROM chooses a slot (R441). -/
def bootChoose (s0 : State) : State :=
  let s := (s0.clr F.UPD_BOOT_REVERTED).clr F.UPD_BOOT_FALLBACK
  match s.trialRec with
  | some w =>
    if bjKind w = 1 then
      let s1 := imageCheck (bjSlot w) s
      if s1.imageCode (bjSlot w) = 0 then bootTrial w s.trialN s1 else bootRevert w false s1
    else if s.on F.UPD_TRIAL_ACTIVE && s.rd F.UPD_TRIAL_LEFT != 0 then
      let s1 := imageCheck (bjSlot w) s
      if s1.imageCode (bjSlot w) = 0 then handOver (bjSlot w) s1 else bootRevert w true s1
    else bootRevert w true s
  | none => bootActive s

/-! ### Start-up (R353, R439) -/

/-- Fields take open values, their source being a table whose layout the spec does not give. -/
def loadFree (fs : List Fld) (s : State) : State := fs.foldl (fun s f => s.wrFree f) s

/-- Fields take 0. -/
def loadZero (fs : List Fld) (s : State) : State := fs.foldl (fun s f => s.clr f) s

/-- The fields of the RTC's curve, of the power table and of the gain table. -/
def curveFlds : List Fld :=
  [F.RTC_CURVE_QK, F.RTC_CURVE_T0, F.RTC_CURVOFS_OFS] ++ (List.range 16).map F.RTC_RES_RES
def powerFlds : List Fld :=
  (List.range 32).flatMap fun j => [F.FE_PWRTAB_VALID j, F.FE_PWRTAB_AMP j, F.FE_PWRTAB_GAIN j, F.FE_PWRTAB_BIAS j]
def gainFlds : List Fld :=
  (List.range 24).flatMap fun g =>
    [F.FE_GAINTAB_VALID g, F.FE_GAINTAB_GAIN g, F.FE_GAINTAB_VGA g, F.FE_GAINTAB_MIX g, F.FE_GAINTAB_LNA g]

/-- Stage 3: the calibration tables load; CALBAD shows whether they could (R199, R382). -/
def bootCal (r : Release) (s0 : State) : State :=
  let s := loadZero [F.RTC_COMPCTL_CALBAD, F.FE_STAT_CALBAD] s0
  let s1 := if r.rtcCal then loadFree curveFlds s else (loadZero curveFlds s).set1 F.RTC_COMPCTL_CALBAD
  let s2 := if r.pwrCal then loadFree powerFlds s1
    else (loadZero ((List.range 32).map F.FE_PWRTAB_VALID) s1).set1 F.FE_STAT_CALBAD
  if r.gainCal then loadFree gainFlds s2
  else (loadZero ((List.range 24).map F.FE_GAINTAB_VALID) s2).set1 F.FE_STAT_CALBAD

/-- Stage 5: the banks named in MEMBOOT lose their contents to the test, and those that fail are retired (R461, R462). -/
def bootMem (banks fail : Nat) (s : State) : State :=
  (bitsSet 16 banks).foldl (fun s b =>
    let s1 := s.loseRam b (0x400000 + b * 0x8000) (0x408000 + b * 0x8000)
    if bitOf fail b then bankRetire b s1 else s1) s

/-- The monitors as the release of an always-on reset finds the supplies (R345 to R349). -/
def bootSupplies (r : Release) (s : State) : State :=
  ((((s.wrB F.PWR_STAT_ONBAT r.onBat).wrB F.PWR_STAT_MAINOK r.mainOk).wrB F.PWR_STAT_NVILOW r.nviLow).wrB
    F.PWR_STAT_VBATLOW r.vbatLow).wrB F.PWR_STAT_VDDIOLOW r.vddioLow

/-- The fuses load: MAC_EXT, LARDER_POLICY, the anti-rollback counter and DBG_KILL; SYS_ID's value is one the spec prints (R16,
R353, R436, R437, R467). -/
def fuseLoad (s : State) : State :=
  (((s.wr F.MAC_EXT_EUI Config.fuseEui).wrB F.LARDER_POLICY_MODE Config.fuseLatched).wr F.UPD_BOOT_ARB s.fuse.arb).wrB
    F.DBG_STAT_KILLED Config.fuseKilled

/-- What the hardware does at a release before the boot ROM's stages: the fuses, straps, supplies, the compensated increment of network
time, the die sample, the journal scan, the Larder's restoration after a reset of the always-on domain, the bitmap (R46, R337, R315,
R349, R351, R409, R450). -/
def releaseHw (r : Release) (s : State) : State :=
  let s1 := hpStraps r.hid.toNat r.hmode ((fuseLoad s).wrB F.PWR_STRAP_LAMPSAFE r.lamp)
  let s2 := tempSample r.temp.toNat (if s.boot.aon then (bootSupplies r s1).wr F.TB_INC_INC s1.tbNominal else s1)
  let s3 := journalScan s2
  updRelease (larSync (if s.boot.aon then larRestore s3 else s3))

/-- Stage 3 reads the key record; where it is not valid both slots take code 9 (R436, R439). -/
def keyCheck (s : State) : State :=
  let s1 := flScan keyRecord 68 s
  if s.signKey.isNone then (s1.wr F.UPD_BOOT_CODEA 9).wr F.UPD_BOOT_CODEB 9 else s1

/-- The stages of the boot ROM (R439). -/
def bootStages (r : Release) (s : State) : State :=
  if !r.pipeOk then park 0 (enterHold (fire 191 (s.setBit F.BIST_RET_PART 19)))
  else
    let s1 := cfgRecord (keyCheck (bootCal r s))
    match s1.copySel with
    | none => holdListen (enterHold s1)
    | some j =>
      let rec_ := s1.cfgBytes j
      bootChoose (bootMem (bodyAt rec_ 36 2) r.memFail.toNat (cfgApply rec_ s1))

/-- A reset is released and the device starts up (R353). -/
def resetRelease (r : Release) (s : State) : State :=
  if s.boot.held || !s.boot.started then
    let s0 := { s with boot := { s.boot with held := false, aonDown := false, started := true } }
    let s1 := bootStages r (releaseHw r s0)
    { s1 with boot := { s1.boot with aon := false } }
  else s

/-! ### Recovery (R358) -/

/-- A frame of the form a recovery part has: its part index, part count, blob length and data. -/
def recoveryPart (frame : List Byte) : Option (Nat × Nat × Nat × List Byte) :=
  match parseFrame frame with
  | none => none
  | some f =>
    let p := f.payload
    let i := leNat ((p.drop 1).take 1)
    let n := leNat ((p.drop 2).take 1)
    let len := leNat ((p.drop 4).take 2)
    let d := p.drop 6
    if f.typ == 0 && f.dst == .short 0xFFFF && f.src == .none && f.slv == 0 && f.loc.isNone && 6 ≤ p.length &&
        leNat (p.take 1) == 0x52 && leNat ((p.drop 3).take 1) == 0 && 1 ≤ n && n ≤ 9 && i < n && 232 * (n - 1) < len &&
        len ≤ 232 * n && d.length == min 232 (len - 232 * i) then some (i, n, len, d)
    else none

/-- The record is written into copy j; a sector that is retired, or whose erase fails, takes none, and one whose program fails its verify
is retired (R338). -/
def recoveryCopy (rec_ : List Byte) (s : State) (j : Nat) : State :=
  let s1 := ownErase (66 + j) s
  if s1.takesWork (66 + j) then (ownProgram (0x541000 + 0x800 * j) rec_ s1).2 else s1

/-- The record is written into both copies and the core domain is reset. -/
def recoveryWrite (rec_ : List Byte) (s : State) : State :=
  coreResetBy F.PWR_RSTCAUSE_SWCORE (recoveryCopy rec_ (recoveryCopy rec_ s 0) 1)

/-- A whole blob: its signature over the EUI-64 and the record, then R356, decide. -/
def recoveryBlob (blob : List Byte) (s : State) : State :=
  let rec_ := blob.take (blob.length - 64)
  let digest := sha256 (natBytes (beBytes 8 (s.rd F.MAC_EXT_EUI) ++ rec_))
  let s1 := { s with boot := { s.boot with parts := [], blobLen := 0, blobParts := 0 } }
  if 64 < blob.length && s.sigOk digest (blob.drop (blob.length - 64)) && rec_.length == 24 + cfgLen rec_ &&
      cfgCode rec_ true == 0 then
    if s.flFree then recoveryWrite rec_ s1 else { s1 with boot := { s1.boot with wait := some (.recovery rec_) } }
  else s1

/-- In HOLD a part of a recovery record arrives (R358); after a failed pipeline test nothing listens (R462). -/
def recoveryRx (frame : List Byte) (s : State) : State :=
  match recoveryPart frame with
  | none => s
  | some (i, n, len, d) =>
    if !s.on F.PWR_STAT_HOLD || bitOf (s.rd F.BIST_RET_PART) 19 || s.boot.wait.isSome then s
    else
      let same := s.boot.blobLen == len && s.boot.blobParts == n
      let parts := insert (if same then s.boot.parts else []) i d
      let s1 := { s with boot := { s.boot with parts := parts, blobLen := len, blobParts := n } }
      if parts.length = n then recoveryBlob (parts.flatMap fun x => x.2) s1 else s1

/-- The boot ROM goes on where it waited for the flash (R335, R347, R358, R438). -/
def bootGo (s : State) : State :=
  if s.flFree then
    match s.boot.wait with
    | none => s
    | some .journal => bootChoose { s with boot := { s.boot with wait := none } }
    | some (.recovery rec_) => recoveryWrite rec_ { s with boot := { s.boot with wait := none } }
  else s

/-- The supply is above VNVI again: source 8 fires, a page buffer that waited goes to the flash, and the boot ROM goes on where it
waited (R347, R358, R449). -/
def nviOk (s : State) : State :=
  if s.on F.PWR_STAT_NVILOW then bootGo (updStart (fire 8 (s.clr F.PWR_STAT_NVILOW))) else s

end Sys2Proof.Machine
end

