-- ==== Sys2Proof/Machine/ArchOps.lean ====
section
/-! DEFINITION. System control (spec/01_architecture.md): the core clock and its switches (R28, R30, R31), the losses of XO32 and
of the PLL (R31, R187), and the arming, cancelling and boundaries of commits (R34 to R37). -/

namespace Sys2Proof.Machine

/-! ### Clocks -/

/-- The core falls back to RC48 with CLKFAIL, where it runs on the PLL (R31). -/
def clkFallback (s : State) : State :=
  if s.on F.SYS_CLK_SRC then fire 0 ((s.clr F.SYS_CLK_SRC).set1 F.SYS_CLK_CLKFAIL) else s

/-- The PLL is unlocked. -/
def pllUnlock (s : State) : State := s.clr F.SYS_CLK_PLLLOCK

/-- XO32 stops: XORDY and with it the PLL's lock go, the front end and the column ports go to OFF with reference faults, the
timebase loses ZC_IN, and the dimming clock may be lost (R62, R187, R222, R396). -/
def xoStop (s : State) : State :=
  let s1 := pllUnlock (s.clr F.SYS_CLK_XORDY)
  dimClockCheck (zcStop (cpRefFault 1 (cpRefFault 0 (feRefFault s1))))

/-- XO32 is lost, other than through a write: a core on the PLL falls back (R31). -/
def xoLoss (s : State) : State := if s.on F.SYS_CLK_XORDY then xoStop (clkFallback s) else s

/-- An operation of the front end in progress ends as at a reference fault; XO32 runs, so that it comes back to STBY by itself
(R31, R187, notes/assumptions/16.md). -/
def feRefEnd (s : State) : State := if s.fe_st = feOff ∨ s.fe_st = feStby then s else feRefFault s

/-- An operation of column port p in progress ends as at a reference fault; XO32 runs, so that an enabled port leaves OFF again
(R31, R222, notes/assumptions/16.md). -/
def cpRefEnd (p : Nat) (s : State) : State :=
  if s.cpSt p = cpTrain ∨ s.cpSt p = cpData ∨ s.cpSt p = cpProbe then cpSeek p (cpRefFault p s) else s

/-- The PLL loses lock: on the PLL the core falls back and operations that are in progress end, on RC48 only PLLLOCK clears
(R31). -/
def pllLoss (s : State) : State :=
  if s.on F.SYS_CLK_SRC then cpRefEnd 1 (cpRefEnd 0 (feRefEnd (pllUnlock (clkFallback s)))) else pllUnlock s

/-- CLK_FAIL: XO32 stops, or the PLL loses lock, while the core runs on the PLL (R31). -/
def clkFailOp (xoStopped : Bool) (s : State) : State :=
  if s.on F.SYS_CLK_SRC then (if xoStopped then xoStop (clkFallback s) else pllLoss s) else s

/-- PLL_UNLOCK: the PLL loses lock while the core runs on RC48. -/
def pllUnlockOp (s : State) : State := if s.on F.SYS_CLK_SRC then s else pllUnlock s

/-- A write of 1 to SRC: with PLLLOCK held until the switch completes the core runs on the PLL, else SWREF sets (R30). -/
def clkToPll (held : Bool) (s : State) : State :=
  if s.on F.SYS_CLK_SRC then s
  else if s.on F.SYS_CLK_PLLLOCK then
    (if held then s.set1 F.SYS_CLK_SRC else pllUnlock (s.set1 F.SYS_CLK_SWREF))
  else s.set1 F.SYS_CLK_SWREF

/-- PLLEN takes a value; cleared, the core first leaves the PLL, which then stops (R30). -/
def pllEnable (v : Bool) (s : State) : State :=
  if v then s.set1 F.SYS_CLK_PLLEN else pllUnlock ((s.clr F.SYS_CLK_SRC).clr F.SYS_CLK_PLLEN)

/-- XOEN takes a value; cleared, the core first leaves the PLL, and XO32 then stops (R30). -/
def xoEnable (v : Bool) (s : State) : State :=
  if v then s.set1 F.SYS_CLK_XOEN
  else
    let s1 := (s.clr F.SYS_CLK_SRC).clr F.SYS_CLK_XOEN
    if s1.on F.SYS_CLK_XORDY then xoStop s1 else s1

/-- A write of the bits in mask to SYS_CLK (R30). -/
def clkWrite (v mask : Nat) (s : State) : State :=
  let has (i : Nat) : Bool := bitOf mask i
  let s1 := if has 7 && bitOf v 7 then s.clr F.SYS_CLK_SWREF else s
  let s2 := if has 6 && bitOf v 6 then s1.clr F.SYS_CLK_CLKFAIL else s1
  let s3 := if has 3 then s2.wrB F.SYS_CLK_XOWARM (bitOf v 3) else s2
  let s4 := if has 2 then xoEnable (bitOf v 2) s3 else s3
  let s5 := if has 1 then pllEnable (bitOf v 1) s4 else s4
  if has 0 then
    if !bitOf v 0 then s5.clr F.SYS_CLK_SRC
    else if s.on F.SYS_CLK_SRC then s5
    else clkToPll true s5
  else s5

/-- CLK_SWITCH_RC48. -/
def clkToRc48 (c : Rc48Cause) (s : State) : State :=
  match c with
  | .srcWrite => clkWrite 0 1 s
  | .pllenClear => clkWrite 0 2 s
  | .xoenClear => clkWrite 0 4 s

/-- PLL_LOCK: the PLL locks (SYS_CLK.PLLLOCK). -/
def pllLockOp (s : State) : State :=
  if s.on F.SYS_CLK_PLLEN && s.on F.SYS_CLK_XORDY && !s.on F.SYS_CLK_PLLLOCK && !s.inRest then
    fire 3 (s.set1 F.SYS_CLK_PLLLOCK)
  else s

/-- XO_READY: XO32 is stable; enabled column ports leave OFF (R28, R218). -/
def xoReadyOp (s : State) : State :=
  if s.on F.SYS_CLK_XOEN && !s.on F.SYS_CLK_XORDY && (!s.inRest || s.on F.SYS_CLK_XOWARM) then
    cpSeek 1 (cpSeek 0 (fire 4 (s.set1 F.SYS_CLK_XORDY)))
  else s

/-! ### Commits (R34 to R37) -/

/-- The page of a block that holds staged fields. -/
def commitPage : CommitBlock → Nat
  | .sys => 0x500
  | .tb => 0x504
  | .lio => 0x507
  | .fe => 0x508
  | .mod => 0x509
  | .cpa => 0x50A
  | .cpb => 0x50B
  | .mac => 0x50C
  | .fwd => 0x50D

/-- The block of a page, where it holds staged fields. -/
def pageBlock (page : Nat) : Option CommitBlock :=
  match page with
  | 0x500 => some .sys
  | 0x504 => some .tb
  | 0x507 => some .lio
  | 0x508 => some .fe
  | 0x509 => some .mod
  | 0x50A => some .cpa
  | 0x50B => some .cpb
  | 0x50C => some .mac
  | 0x50D => some .fwd
  | _ => none

/-- A commit armed while the block's boundary source is stopped, or while its boundary stands, is applied at once (R37). -/
def commitNow (k : CommitBlock) (s : State) : State :=
  match k with
  | .sys => s
  | .tb => s
  | .lio => if s.dimStopped then lioCommit s else s
  | .fe => feCommit s
  | .mod => modCommit s
  | .cpa => cpCommit 0 s
  | .cpb => cpCommit 1 s
  | .mac => macCommit s
  | .fwd => fwdCommit s

/-- ARM: PEND sets (R34, R36). -/
def commitArmOp (k : CommitBlock) (s : State) : State := commitNow k (s.set1 (cmtPend (commitPage k)))

/-- CANCEL: PEND clears (R34). -/
def commitCancelOp (k : CommitBlock) (s : State) : State := s.clr (cmtPend (commitPage k))

/-- A write of BLOCK_COMMIT's action bits: both together have no effect (R34). -/
def commitBits (k : CommitBlock) (v : Nat) (s : State) : State :=
  if v % 4 = 1 then commitArmOp k s else if v % 4 = 2 then commitCancelOp k s else s

/-- COMMIT: the block's boundary is reached (R35): the cycle strobe, the start of a dimming period, the refill of the forwarding
engine; the other blocks' boundaries are states, in which they commit. -/
def commitBoundary (k : CommitBlock) (s : State) : State :=
  match k with
  | .sys => sysCommit s
  | .tb => tbCommit s
  | .lio => lioBoundary s
  | .fe => feCommit s
  | .mod => modCommit s
  | .cpa => cpCommit 0 s
  | .cpb => cpCommit 1 s
  | .mac => macCommit s
  | .fwd => fwdCommitNow s

end Sys2Proof.Machine
end

