-- ==== Sys2Proof/Machine/RegView.lean ====
section
/-! DEFINITION. What a register reads: the stored fields, the fields a block computes, the levels of inputs (open values), and the
side effects of a read (R14, R17, R395, R477). -/

namespace Sys2Proof.Machine

/-- A register value with one field replaced. -/
def putFld (base : Nat) (f : Fld) (x v : Nat) : Nat := setBits v (f.bit - 8 * base) f.w x

/-- A bit for each burner that satisfies a condition. -/
def brnMask (p : Nat → Bool) : Nat := (List.range 16).foldl (fun m b => if p b then orBit m b else m) 0

/-- Burner b counts toward Rest (R70). -/
def State.countsToRest (s : State) (b : Nat) : Bool := s.bstate b != stRun && s.bstate b != stWait

/-- The signed remainder of the offset to the nearest multiple of 30° (R64). -/
def State.phaseResid (s : State) : Nat :=
  let ofs := s.rd F.TB_OFS_OFS
  ofInt ((ofs : Int) - roundDiv (roundDiv (ofs * 12) 65536 * 65536) 12) 16

/-- TB_PHASE (R64): CODE and RESID read 0 while no offset is valid (DESIGN CHOICE, notes/assumptions/82.md). -/
def State.tbPhase (s : State) (base v : Nat) : Nat :=
  if s.on F.TB_OFS_VAL then
    putFld base F.TB_PHASE_VALID 1 (putFld base F.TB_PHASE_CODE (roundDiv (s.rd F.TB_OFS_OFS * 12) 65536 % 12)
      (putFld base F.TB_PHASE_RESID s.phaseResid v))
  else v

/-- TB_STAT (R47, R57). -/
def State.tbStat (s : State) (base v : Nat) : Nat :=
  putFld base F.TB_STAT_FINE (b2n s.tbFine)
    (putFld base F.TB_STAT_ANNPEND (b2n (s.rd F.TB_SWCTL_MODE != 0)) (putFld base F.TB_STAT_OFSVAL (s.rd F.TB_OFS_VAL) v))

/-- A pair's count or capture: the low timer's field, and the high one's where the pair is cascaded (R393, R395). -/
def State.tmrPair (s : State) (f : Nat → Fld) (k : Nat) : Nat :=
  s.rd (f (2 * k)) + if s.tmrHigh (2 * k + 1) then s.rd (f (2 * k + 1)) * 2 ^ 32 else 0

/-- LIO_STAT (R388, R396, R401). -/
def State.lioStat (s : State) (base v : Nat) : Nat :=
  putFld base F.LIO_STAT_NOREF (b2n (!s.on F.TB_OFS_VAL)) (putFld base F.LIO_STAT_SAFE (b2n s.dimSafe)
    (putFld base F.LIO_STAT_ADCBUSY (b2n (!s.lio.adcq.isEmpty)) v))

/-- MOD_STAT. -/
def State.modStat (s : State) (base v : Nat) : Nat :=
  let busy := (List.range 8).foldl (fun m n => if (s.slot n 0).busy || (s.slot n 1).busy then orBit m n else m) 0
  putFld base F.MOD_STAT_DEMCNT s.demCount (putFld base F.MOD_STAT_BUSY busy v)

/-- LANE_STAT of lane n. -/
def State.laneStat (s : State) (n base v : Nat) : Nat :=
  putFld base (F.LANE_STAT_RET n) (b2n (s.laneRetired n)) (putFld base (F.LANE_STAT_STA n) (s.slot n 0).st.code
    (putFld base (F.LANE_STAT_STB n) (s.slot n 1).st.code (putFld base (F.LANE_STAT_LIVE n) (b2n (s.laneLive n)) v)))

/-- FWD_STAT. -/
def State.fwdStat (s : State) (base v : Nat) : Nat :=
  putFld base F.FWD_STAT_FRAMES s.fwd.frames.length (putFld base F.FWD_STAT_FREE s.freeCells.length v)

/-- HP_FIFO. -/
def State.hpFifo (s : State) (base v : Nat) : Nat :=
  putFld base F.HP_FIFO_RXFRAMES s.hp.rx.length (putFld base F.HP_FIFO_TXROOM s.txRoom v)

/-- The array index of a copy at a base address. -/
def idx (base first stride : Nat) : Nat := (base - first) / stride

/-- Timers' pair registers. -/
def State.pairView (s : State) (base v : Nat) : Nat :=
  let k := idx base 0x506400 32
  match (base - 0x506400) % 32 with
  | 0 => s.tmrPair F.TMR_CNT_VAL k
  | 8 => s.tmrPair F.TMR_CAPA_VAL k
  | 16 => s.tmrPair F.TMR_CAPB_VAL k
  | _ => v

/-- The computed fields of a register whose stored value is v. -/
def State.regShow (s : State) (base v : Nat) : Nat :=
  if base = 0x50100A then putFld base F.PWR_REFUSERS_PRESENT s.refusers v
  else if base = 0x501020 then (if s.on F.PWR_WDTCFG_EN then s.pwr.wdt else 0)
  else if base = 0x503400 then brnMask fun b => s.bstate b == stRun
  else if base = 0x503402 then brnMask s.countsToRest
  else if base = 0x503500 then orBit v 3
  else if base = 0x504010 then s.tbStat base v
  else if base = 0x504028 then s.tbPhase base v
  else if base = 0x504034 then s.tbUnc
  else if base = 0x505018 then putFld base F.RTC_STAT_PENDING (b2n s.rtcPending) v
  else if 0x506400 ≤ base ∧ base < 0x506480 then s.pairView base v
  else if base = 0x507002 then s.lioStat base v
  else if base = 0x508002 then putFld base F.FE_STAT_ONBAT (s.rd F.PWR_STAT_ONBAT) v
  else if 0x508180 ≤ base ∧ base < 0x5081C0 then s.sbUsed (idx base 0x508180 8)
  else if base = 0x509006 then s.modStat base v
  else if 0x509100 ≤ base ∧ base < 0x509300 ∧ base % 64 = 3 then s.laneStat (idx base 0x509100 64) base v
  else if base = 0x50D004 then s.fwdStat base v
  else if base = 0x50D0A0 then s.lrxd
  else if base = 0x50D0A8 then s.lrxCells
  else if base = 0x50E002 then putFld base F.CIPH_STAT_INLINE (b2n s.inlineHeld) v
  else if base = 0x50F05C then s.flWear
  else if base = 0x510004 then putFld base F.HP_STAT_HREQ (b2n s.hreq) v
  else if base = 0x510048 then s.hpFifo base v
  else if base = 0x511002 then putFld base F.UPD_STAT_BUFPEND (b2n s.bufPend) v
  else if base = 0x513002 then (if s.on F.DBG_STAT_KILLED then 0x80 else v)
  else v

/-- The level that pin Gn drives: none at high impedance (R429, R430, R475, R477). -/
def State.pinBall (s : State) (n : Nat) : Option Bool :=
  s.outBall <| match s.rd (F.SYS_PINCFG_FUNC n) with
  | 0 => none
  | 1 => none
  | 2 => some (s.on (F.SYS_PINCFG_OUT n))
  | _ => if s.hp.selOff = some n then none else some (!(s.rd F.HP_MCFG_SELPIN == n && s.on F.HP_STAT_MASTER))

/-- The level of pin Gn where the device does not drive it: an external drive's, else the selected pull's, else open. -/
def State.pinPulled (s : State) (n : Nat) : Option Bool :=
  match Config.gDrive n s.freeSeq with
  | some b => some b
  | none =>
    match s.rd (F.SYS_PINCFG_PULL n) with
    | 1 => some false
    | 2 => some true
    | _ => none

/-- The level that SYS_PININ shows of pin Gn, 0 for a disabled one: none where it is undefined (R477). -/
def State.pinLevel (s : State) (n : Nat) : Option Bool :=
  if s.rd (F.SYS_PINCFG_FUNC n) = 0 then some false
  else
    match s.pinBall n with
    | some b => some b
    | none => s.pinPulled n

/-- SYS_PININ: the levels of the G pins, undefined ones from an open value. -/
def State.pinIn (s : State) (open_ : Nat) : Nat :=
  (List.range 16).foldl (fun m n => if (s.pinLevel n).getD (bitOf open_ n) then orBit m n else m) 0

/-- A register's value with the fields that show an input or a measurement, each an open value (notes/assumptions/5.md). -/
def State.regRead (s : State) (base v : Nat) : Nat × State :=
  if base = 0x500140 then (s.pinIn s.free.1, s.free.2)
  else if base = 0x501000 then (putFld base F.PWR_STAT_BATOK s.free.1 v, s.free.2)
  else if base = 0x50507C then
    (putFld base F.RTC_TMPSTAT_PIN0 s.free.1 (putFld base F.RTC_TMPSTAT_PIN1 (s.free.1 / 2) v), s.free.2)
  else if 0x509100 ≤ base ∧ base < 0x509300 ∧ base % 64 = 6 ∧ s.fe_st = feRx then (s.free.1 % 2 ^ 16, s.free.2)
  else if base = 0x50D020 then fwdTdataRead s
  else (s.regShow base v, s)

/-- The read of a register's lowest unit has its effect: a capture register's CAPNEW clears (R395). -/
def readFx (base : Nat) (s : State) : State :=
  if 0x506000 ≤ base ∧ base < 0x506200 then
    let n := idx base 0x506000 64
    if base % 64 = 0x18 then capRead n false s else if base % 64 = 0x1C then capRead n true s else s
  else if 0x506400 ≤ base ∧ base < 0x506480 then
    let k := idx base 0x506400 32
    if s.tmrHigh (2 * k + 1) then
      (if base % 32 = 8 then capRead (2 * k) false s else if base % 32 = 16 then capRead (2 * k) true s else s)
    else s
  else s

/-- The active copies of a register's staged fields in place (R17). -/
def State.activeVal (s : State) (fields : List FldDesc) (base : Nat) : Nat :=
  fields.foldl (fun v f => if f.st then v + s.rd (f.fld (base + 0x800)) * 2 ^ f.lo else v) 0

/-- A byte of a register holds an active copy at its offset plus 800h (R26). -/
def staged8 (fields : List FldDesc) (o : Nat) : Bool :=
  fields.any fun f => f.st && f.lo < 8 * o + 8 && 8 * o < f.lo + f.w

/-- A register as an access meets it: its description, its base address, and whether its active copies are meant. -/
structure RegHit where
  desc : RegDesc
  base : Nat
  act : Bool
  deriving DecidableEq, Repr

/-- The register that a unit of n bytes at an address of a block meets, the offsets of active copies among them: such a unit is
defined where one of its bytes holds an active copy (R13, R17, R26; notes/assumptions/81.md). -/
def regHit (a n : Nat) : Option RegHit :=
  if a % 0x1000 < 0x800 then (regAt a).map fun x => ⟨x.1, x.2, false⟩
  else
    match regAt (a - 0x800) with
    | some x =>
      if (List.range n).any fun i => staged8 x.1.fields (a - 0x800 - x.2 + i) then some ⟨x.1, x.2, true⟩ else none
    | none => none

/-- The base address of a hit as the accessor's latch names it. -/
def RegHit.tag (h : RegHit) : Nat := if h.act then h.base + 0x800 else h.base

/-- The whole value of a hit. -/
def State.hitRead (s : State) (h : RegHit) : Nat × State :=
  if h.act then (s.activeVal h.desc.fields h.base, s) else s.regRead h.base (s.regVal h.desc.fields h.base)

/-- The lowest unit of a hit has been read. -/
def hitFx (h : RegHit) (s : State) : State := if h.act then s else readFx h.base s

end Sys2Proof.Machine
end

