-- ==== Sys2Proof/Machine/RegWrite.lean ====
section
/-! DEFINITION. What a write of a register does (R14, R27, R40): for each block one function over the register's base address,
the value, and the bits that are written (a bit outside the mask keeps an RW field's own value and counts as 0 in a W1C or WO
field). -/

namespace Sys2Proof.Machine

/-- An open accessor's write of a register that only a secure one writes is ignored and sets WERR. -/
def secureOnly (acc : Nat) (f : State → State) (s : State) : State := if s.accSecure acc then f s else brnErr acc s

/-! ### System control and power -/

/-- A write of system control. -/
def sysWrite (fields : List FldDesc) (base val mask : Nat) (s : State) : State :=
  if base = 0x500020 then clkWrite val mask s else mergeReg fields base val mask s

/-- A write of PWR_RST: KEY must be Ah, else the write only sets WERR, and AON wins over CORE (R350). -/
def pwrRst (acc v : Nat) (s : State) : State :=
  if bitsOf v 4 4 ≠ 0xA then brnErr acc s
  else if bitOf v 1 then swResetAon acc s
  else if bitOf v 0 then swResetCore acc s
  else s

/-- A write of PWR_WDTCFG: the period and REST first, then EN (R352). -/
def wdtCfg (fields : List FldDesc) (val mask : Nat) (s : State) : State :=
  let s1 := mergeReg fields 0x501018 val (mask % 2 ^ 31) s
  if bitOf mask 31 then wdtEnable (bitOf val 31) s1 else s1

/-- A write of the power block (the note before its register map). -/
def pwrWrite (acc : Nat) (fields : List FldDesc) (base val mask : Nat) (s : State) : State :=
  match base - 0x501000 with
  | 0x02 => secureOnly acc (mergeReg fields base val mask) s
  | 0x04 => secureOnly acc (mergeReg fields base val mask) s
  | 0x08 => secureOnly acc (mergeReg fields base val mask) s
  | 0x16 => secureOnly acc (pwrRst acc (val &&& mask)) s
  | 0x18 => secureOnly acc (wdtCfg fields val mask) s
  | 0x1C => wdtKick (val &&& mask) s
  | _ => mergeReg fields base val mask s

/-! ### The Whisk (R129, R130) -/

/-- A write of WHISK_CFGc: an open accessor leaves OWNER and SEC as they are. -/
def whiskCfg (acc : Nat) (fields : List FldDesc) (base val mask : Nat) (s : State) : State :=
  let c := idx base 0x502000 8
  let s1 := mergeReg fields base val mask s
  let keeps := s1.on (F.WHISK_CFG_SEC c) == s.on (F.WHISK_CFG_SEC c) && s1.rd (F.WHISK_CFG_OWNER c) == s.rd (F.WHISK_CFG_OWNER c)
  if s.accSecure acc || (s.mayWriteChan acc c && keeps) then s1 else whiskDeny acc s

/-- A write of another register of channel c. -/
def whiskChan (acc c : Nat) (fields : List FldDesc) (base val mask : Nat) (s : State) : State :=
  if s.mayWriteChan acc c then mergeReg fields base val mask s else whiskDeny acc s

/-- A write of WHISK_FLAG or WHISK_OVRF: each bit for its channel. -/
def whiskBits (acc : Nat) (f : Fld) (set : Nat) (s : State) : State :=
  (bitsSet 64 set).foldl (fun s c => if s.mayWriteChan acc c then s.clrBit f c else whiskDeny acc s) s

/-- Task t belongs to a block marked secure. -/
def State.taskSecure (s : State) (t : Nat) : Bool := ((taskBlock t).map s.blkSecure).getD false

/-- A write of WHISK_TASKt. -/
def whiskTask (acc : Nat) (fields : List FldDesc) (base val mask : Nat) (s : State) : State :=
  let t := base - 0x502600
  let s1 := mergeReg fields base val mask s
  let ok := s.mayWriteChan acc (s.rd (F.WHISK_TASK_CH t)) && s.mayWriteChan acc (s1.rd (F.WHISK_TASK_CH t)) &&
    !(s1.on (F.WHISK_TASK_EN t) && s.taskSecure t)
  if s.accSecure acc || ok then s1 else whiskDeny acc s

/-- A write of the Whisk. -/
def whiskWrite (acc : Nat) (fields : List FldDesc) (base val mask : Nat) (s : State) : State :=
  let o := base - 0x502000
  if o < 0x200 then
    (if o % 8 = 0 then whiskCfg acc fields base val mask s else whiskChan acc (o / 8) fields base val mask s)
  else if o < 0x280 then whiskChan acc ((o - 0x200) / 2) fields base val mask s
  else if o = 0x400 then whiskBits acc F.WHISK_FLAG_FLAG (val &&& mask) s
  else if o = 0x408 then whiskBits acc F.WHISK_OVRF_OVR (val &&& mask) s
  else if o = 0x410 then whiskFireBits acc (val &&& mask) s
  else if o = 0x420 then (if bitOf (val &&& mask) 0 then whiskClrAll acc s else s)
  else if 0x600 ≤ o ∧ o < 0x680 then whiskTask acc fields base val mask s
  else mergeReg fields base val mask s

/-! ### Burner control (R82 to R86) -/

/-- The registers of a set that accept writes only while the burner does not run (R82). -/
def stoppedOnly (o : Nat) : Bool := o == 4 || o == 6 || o == 0x10 || o == 0x14 || (0x30 ≤ o && o < 0x40)

/-- A write of burner b's registers. -/
def brnSetWrite (acc b o : Nat) (fields : List FldDesc) (base val mask : Nat) (s : State) : State :=
  if o = 0 then brnCtlOp acc b (val &&& mask) s
  else if o = 2 then secureOnly acc (mergeReg fields base val mask) s
  else if stoppedOnly o then
    if s.bstate b = stOff ∨ s.bstate b = stParked ∨ s.bstate b = stFaulted then
      let s1 := mergeReg fields base val mask s
      if o = 0x10 ∨ o = 0x14 then s1.modBx b fun x => { x with line := none } else s1
    else brnErr acc s
  else mergeReg fields base val mask s

/-- A write of a security map or of BRN_SECLOCK: by a secure accessor, a map only while LOCK = 0, LOCK only sets (R85). -/
def secMapWrite (acc : Nat) (fields : List FldDesc) (base val mask : Nat) (s : State) : State :=
  if !s.accSecure acc then brnErr acc s
  else if base = 0x503508 then (if bitOf (val &&& mask) 0 then s.set1 F.BRN_SECLOCK_LOCK else s)
  else if s.on F.BRN_SECLOCK_LOCK then brnErr acc s
  else mergeReg fields base val mask s

/-- A write of burner control. -/
def brnWrite (acc : Nat) (fields : List FldDesc) (base val mask : Nat) (s : State) : State :=
  let o := base - 0x503000
  if o < 0x400 then brnSetWrite acc (o / 64) (o % 64) fields base val mask s
  else if o = 0x404 then brnGstartOp acc (val &&& mask) s
  else if o = 0x406 then brnGparkOp acc (val &&& mask) s
  else if 0x500 ≤ o ∧ o ≤ 0x508 then secMapWrite acc fields base val mask s
  else mergeReg fields base val mask s

/-! ### Timebase, clock and timers -/

/-- A write of the timebase. -/
def tbWrite (fields : List FldDesc) (base val mask : Nat) (s : State) : State :=
  match base - 0x504000 with
  | 0x08 => tbSetTime (val &&& mask) s
  | 0x14 => tbCmdOp (val &&& mask) s
  | 0x24 =>
    let s1 := mergeReg fields base val mask s
    tbOfsOp (s1.on F.TB_OFS_VAL) (s1.rd F.TB_OFS_OFS) s
  | 0x3C => if mask % 4 = 0 then s else tbArm (val % 4) false s
  | _ => mergeReg fields base val mask s

/-- The registers of the clock that only a secure accessor writes. -/
def rtcSecure (o : Nat) : Bool :=
  o == 0x08 || o == 0x20 || o == 0x28 || o == 0x30 || o == 0x38 || o == 0x48 || o == 0x70 || o == 0x78 || o == 0x7A

/-- A write of the clock waits for the next XK32 cycle (R372). -/
def rtcRegWrite (acc base val mask : Nat) (s : State) : State :=
  if rtcSecure (base - 0x505000) then secureOnly acc (rtcQueue base val mask) s else rtcQueue base val mask s

/-- A write of timer n's registers (R391, R393, R394). -/
def tmrSetWrite (n o : Nat) (fields : List FldDesc) (base val mask : Nat) (s : State) : State :=
  match o with
  | 0 => tmrCtl n (val &&& mask) s
  | 4 => if s.tmrRun n then s.set1 F.TMR_GERR_CFGRUN else mergeReg fields base val mask s
  | 0x0C => tmrPreload n (mergeReg fields base val mask s)
  | 0x10 => tmrPreload n (mergeReg fields base val mask s)
  | _ => mergeReg fields base val mask s

/-- A write of the timers. -/
def tmrWrite (fields : List FldDesc) (base val mask : Nat) (s : State) : State :=
  let o := base - 0x506000
  if o < 0x200 then tmrSetWrite (o / 64) (o % 64) fields base val mask s
  else if o = 0x500 then tmrGstart (val &&& mask) s
  else if o = 0x501 then tmrGstop (val &&& mask) s
  else mergeReg fields base val mask s

/-! ### Lantern I/O -/

/-- A write of LIO_CTL: EN, then GO; with dimming stopped a pending commit is applied (R37, R396, R401). -/
def lioCtl (val mask : Nat) (s : State) : State :=
  let s1 := if bitOf mask 0 then lioEnable (bitOf val 0) s else s
  let s2 := if bitOf (val &&& mask) 1 then adcGo s1 else s1
  if s2.dimStopped then lioCommit s2 else s2

/-- A write of lantern I/O. -/
def lioWrite (fields : List FldDesc) (base val mask : Nat) (s : State) : State :=
  let o := base - 0x507000
  if o = 0 then lioCtl val mask s
  else if o = 0x28 then rlyCmd (bitsOf (val &&& mask) 2 2) (bitsOf (val &&& mask) 0 2) s
  else if 0x80 ≤ o ∧ o < 0x88 then
    let n := (o - 0x80) / 2
    trfEnabled n (s.on (F.TRF_CFG_EN n)) (mergeReg fields base val mask s)
  else if o = 0xB0 then (if bitOf (val &&& mask) 0 then trfSnapReq s else s)
  else mergeReg fields base val mask s

/-! ### Front end, modem and column ports -/

/-- A write of FE_CTL: EN = 0 takes the front end to OFF (R186). -/
def feCtl (fields : List FldDesc) (val mask : Nat) (s : State) : State :=
  let s1 := mergeReg fields 0x508000 val mask s
  feCommit (if s.on F.FE_CTL_EN && !s1.on F.FE_CTL_EN then feOffGo s1 else s1)

/-- A write of the front end; one of FE_AGC or of the gain table in RX selects the entry anew (R180). -/
def feWrite (fields : List FldDesc) (base val mask : Nat) (s : State) : State :=
  match base - 0x508000 with
  | 0x00 => feCtl fields val mask s
  | 0x01 => feCmdOp (val &&& mask) s
  | 0x2E => chretReinstate (val &&& mask) s
  | o =>
    let s1 := mergeReg fields base val mask s
    if s1.fe_st = feRx ∧ (o = 0x10 ∨ 0x280 ≤ o ∧ o < 0x2E0) then agcSettle s1 else s1

/-- A write of LANE_CTLn: SRCH, then ABORT (R154, R156). -/
def laneCtl (n : Nat) (fields : List FldDesc) (base val mask : Nat) (s : State) : State :=
  let s1 := mergeReg fields base val mask (bistHold n s)
  if bitOf (val &&& mask) 1 then laneEnd n 8 s1 else s1

/-- A write of the modem. -/
def modWrite (fields : List FldDesc) (base val mask : Nat) (s : State) : State :=
  let o := base - 0x509000
  if o = 0 then
    let s1 := mergeReg fields base val mask s
    modCommit (if s.on F.MOD_CTL_EN && !s1.on F.MOD_CTL_EN then modDisable s1 else s1)
  else if o = 8 then laneRetireBits (val &&& mask) s
  else if 0x100 ≤ o ∧ o < 0x300 ∧ o % 64 = 2 then laneCtl ((o - 0x100) / 64) fields base val mask s
  else modCommit (mergeReg fields base val mask s)

/-- A write of column port p. -/
def cpWrite (p : Nat) (fields : List FldDesc) (base val mask : Nat) (s : State) : State :=
  match base % 0x1000 with
  | 0x000 =>
    if !bitOf mask 0 then s
    else if bitOf val 0 then cpEnableOp p s
    else cpDisableOp p s
  | 0x001 => cpCmdOp p (val &&& mask) s
  | _ => mergeReg fields base val mask s

/-! ### MAC, forwarding, cipher and Larder -/

/-- A write of the MAC: EN stays 0 once its partition is retired (R460); a stop is a commit boundary. -/
def macWrite (fields : List FldDesc) (base val mask : Nat) (s : State) : State :=
  if base = 0x50C000 then
    let m := if bitOf (s.rd F.BIST_RET_PART) 12 then clearMask mask 1 else mask
    macCommit (macListen (mergeReg fields base val m s))
  else mergeReg fields base val mask s

/-- A write of FWD_TDATA reaches the table entry whole. -/
def tdataWrite (val mask : Nat) (s : State) : State :=
  if mask % 2 ^ 64 = 2 ^ 64 - 1 then fwdTdataWrite (val % 2 ^ 64) s
  else
    let r := fwdTdataRead s
    fwdTdataWrite (clearMask r.1 mask + (val &&& mask)) r.2

/-- A write of forwarding: EN stays 0 once its partition is retired (R460). -/
def fwdWrite (fields : List FldDesc) (base val mask : Nat) (s : State) : State :=
  match base - 0x50D000 with
  | 0x000 =>
    let m := if bitOf (s.rd F.BIST_RET_PART) 11 then clearMask mask 1 else mask
    fwdCommit (mergeReg fields base val m s)
  | 0x010 => fwdCtxCmd (bitsOf (val &&& mask) 14 2) (mergeReg fields base val mask s)
  | 0x020 => tdataWrite val mask s
  | 0x0B0 => if bitOf (val &&& mask) 0 then fwdPop s else s
  | 0x0B2 => fwdAlloc (val &&& mask) s
  | 0x0C0 => fwdSubmit (val &&& mask) s
  | 0x0C8 => fwdFree (val &&& mask) s
  | _ => mergeReg fields base val mask s

/-- A write of the cipher and Larder block by a secure accessor. -/
def larWrite (fields : List FldDesc) (base val mask : Nat) (s : State) : State :=
  match base - 0x50E000 with
  | 0x008 => almEnWrite (val &&& mask) s
  | 0x009 => almClear (val &&& mask) s
  | _ => mergeReg fields base val mask s

/-! ### Flash, host port, update, self-test and debug -/

/-- The flash registers that a secure accessor writes while LOCK = 0 (R331). -/
def flLocked (o : Nat) : Bool := o == 0x70 || o == 0x78 || o == 0x80 || o == 0x88 || (0xC0 ≤ o && o < 0x100)

/-- A write of the flash controller. -/
def flWrite (acc : Nat) (fields : List FldDesc) (base val mask : Nat) (s : State) : State :=
  let o := base - 0x50F000
  if o = 0 then flCmd (some acc) ((val &&& mask) % 8) s
  else if flLocked o then
    if !s.accSecure acc then brnErr acc s
    else if s.on F.FL_LOCK_LOCK then s
    else if o = 0x88 then (if bitOf (val &&& mask) 0 then s.set1 F.FL_LOCK_LOCK else s)
    else mergeReg fields base val mask s
  else mergeReg fields base val mask s

/-- A write of HP_MCTL: LEN, then ABORT or GO (R434). -/
def hpMctl (fields : List FldDesc) (val mask : Nat) (s : State) : State :=
  let s1 := mergeReg fields 0x510060 val mask s
  let s2 := if bitOf (val &&& mask) 14 then masterAbortOpen s1 else s1
  if bitOf (val &&& mask) 15 then hpMasterGo s2 else s2

/-- A write of the host port (R420 and the note before its register map). -/
def hpWrite (acc : Nat) (fields : List FldDesc) (base val mask : Nat) (s : State) : State :=
  let o := base - 0x510000
  if o = 0x08 then secureOnly acc (mergeReg fields base val mask) s
  else if o = 0x42 then hpMbset (val &&& mask) s
  else if o = 0x60 then hpMctl fields val mask s
  else if 0x180 ≤ o ∧ o < 0x200 ∧ bitOf (s.rd F.HP_MBSTAT_MBOUT) ((o - 0x180) / 16) then brnErr acc s
  else mergeReg fields base val mask s

/-- A command of UPD_CMD; the supply comparison of an install is an open value. -/
def updCmd (acc op : Nat) (s : State) : State :=
  match op with
  | 1 => updOpen s
  | 2 => updMorsel acc s
  | 3 => updFlush s
  | 4 => updInstall (s.free.1 % 2 ^ 16) s.free.2
  | 5 => updConfirm s
  | 6 => updRevert s
  | 7 => updClear s
  | 8 => updLockcmd acc s
  | _ => s

/-- A write of the update block by a secure accessor (R469). -/
def updWrite (acc : Nat) (fields : List FldDesc) (base val mask : Nat) (s : State) : State :=
  match base - 0x511000 with
  | 0x000 => updCmd acc (val &&& mask) s
  | 0x004 => if s.on F.UPD_STAT_CAMP then s else mergeReg fields base val mask s
  | 0x00E => if s.on F.UPD_STAT_CAMP then s else mergeReg fields base val mask s
  | _ => mergeReg fields base val mask s

/-- A write of the self-test block: EN, then GO (R458). -/
def bistWrite (fields : List FldDesc) (base val mask : Nat) (s : State) : State :=
  let s1 := mergeReg fields base val mask s
  if base = 0x512000 && bitOf (val &&& mask) 1 then bistPassOpen s1 else s1

end Sys2Proof.Machine
end

