-- ==== Sys2Proof/Machine/DbgOps.lean ====
section
/-! DEFINITION. The debug block (spec/17_update_selftest.md): challenges and authentication (R465), the lockout, the level, and
the writes of its registers (R466). The answers to transactions stand in AccessOps.lean. -/

namespace Sys2Proof.Machine

/-- Applies f to the debug block's state. -/
def State.modDbg (s : State) (f : DbgState → DbgState) : State := { s with dbg := f s.dbg }

/-- NEWCHAL: a fresh challenge (R465). -/
def dbgNewchal (s : State) : State := s.wrFree F.DBG_CHAL_VAL

/-- The debug key (R465). -/
def dbgKey : AesKey :=
  roundKeys (cmac (roundKeys (numBytes 32 Config.rootKey)) (1 :: List.replicate 15 0))

/-- The message an attempt answers: CHAL, MAC_EXT and REQLVL (R465). -/
def State.dbgMessage (s : State) : List Nat :=
  numBytes 16 (s.rd F.DBG_CHAL_VAL) ++ be8 (s.rd F.MAC_EXT_EUI) ++ [s.rd F.DBG_CTL_REQLVL]

/-- The response that passes. -/
def State.dbgExpected (s : State) : Nat := bytesNum (cmac dbgKey s.dbgMessage)

/-- The seconds that a failure locks AUTH out, after n failures in a row (R465). -/
def lockSecs (n : Nat) : Nat := min 4096 (2 ^ (n - 3))

/-- A failed attempt (R465). -/
def dbgFail (s : State) : State :=
  let s1 := (s.inc F.DBG_FAILS).inc F.DBG_CONSEC_VAL
  let n := s1.rd F.DBG_CONSEC_VAL
  if 3 ≤ n then
    ((s1.set1 F.DBG_STAT_LOCKED).wr F.DBG_LOCKLEFT_VAL (lockSecs n)).modDbg fun d => { d with lock := 32768 }
  else s1

/-- A passed attempt (R465). -/
def dbgPass (s : State) : State :=
  (s.wr F.DBG_STAT_LEVEL (min (s.rd F.DBG_CTL_REQLVL) (s.rd F.DBG_STAT_MAX))).clr F.DBG_CONSEC_VAL

/-- AUTH: an attempt, refused while locked out; a fresh challenge follows (R465). -/
def dbgAuth (s : State) : State :=
  if s.on F.DBG_STAT_LOCKED then s
  else dbgNewchal (if s.rd F.DBG_RESP_VAL = s.dbgExpected then dbgPass s else dbgFail s)

/-- The level returns to 0 (R465). -/
def dbgDropLevel (s : State) : State := s.clr F.DBG_STAT_LEVEL

/-- DROP: the debug port's, or a secure burner's (R466). -/
def dbgDropOp (acc : Nat) (s : State) : State :=
  if acc = 17 || (decide (acc < 16) && s.accSecure acc) then dbgDropLevel s else brnErr acc s

/-- CORERST at level 1 or above (R466). -/
def dbgCorerst (s : State) : State := if 1 ≤ s.rd F.DBG_STAT_LEVEL then coreResetBy F.PWR_RSTCAUSE_DEBUG s else s

/-- The lockout ends (R465). -/
def dbgLockEnd (s : State) : State :=
  ((s.clr F.DBG_STAT_LOCKED).clr F.DBG_LOCKLEFT_VAL).modDbg fun d => { d with lock := 0 }

/-- An XK32 tick of the lockout (R465). -/
def dbgTick (s : State) : State :=
  if !s.on F.DBG_STAT_LOCKED then s
  else if 1 < s.dbg.lock then s.modDbg fun d => { d with lock := d.lock - 1 }
  else if s.rd F.DBG_LOCKLEFT_VAL ≤ 1 then dbgLockEnd s
  else (s.wr F.DBG_LOCKLEFT_VAL (s.rd F.DBG_LOCKLEFT_VAL - 1)).modDbg fun d => { d with lock := 32768 }

/-- A write of DBG_CTL by the debug port: the RW fields, then AUTH, NEWCHAL, DROP and CORERST in this order. -/
def dbgCtl (fields : List FldDesc) (val mask : Nat) (s : State) : State :=
  let v := val &&& mask
  let s1 := mergeReg fields 0x513000 val mask s
  let s2 := if bitOf v 3 then dbgAuth s1 else s1
  let s3 := if bitOf v 2 then dbgNewchal s2 else s2
  let s4 := if bitOf v 1 then dbgDropLevel s3 else s3
  if bitOf v 4 then dbgCorerst s4 else s4

/-- A write of the debug block (R466). -/
def dbgWrite (acc : Nat) (fields : List FldDesc) (base val mask : Nat) (s : State) : State :=
  if base = 0x513000 then
    if acc = 17 then dbgCtl fields val mask s
    else if acc < 16 && s.accSecure acc && bitOf (val &&& mask) 1 then dbgDropLevel s
    else brnErr acc s
  else if base = 0x513020 then
    if acc = 17 then s.wr F.DBG_RESP_VAL (val &&& mask) else brnErr acc s
  else mergeReg fields base val mask s

/-! ### Every block -/

/-- A write of BLOCK_COMMIT at a page (R34). -/
def commitWrite (page : Nat) (fields : List FldDesc) (base val mask : Nat) (s : State) : State :=
  let s1 := mergeReg fields base val mask s
  match pageBlock page with
  | some k => commitBits k (val &&& mask) s1
  | none => s1

/-- A write of the register at a base address: the bits in mask of its value, reserved bits aside (R15). -/
def regStore (acc : Nat) (fields : List FldDesc) (base val written : Nat) (s : State) : State :=
  let page := base / 0x1000
  let mask := written &&& fieldMask fields
  if base % 0x1000 = 0x7F0 then commitWrite page fields base val mask s
  else
    match page with
    | 0x500 => sysWrite fields base val mask s
    | 0x501 => pwrWrite acc fields base val mask s
    | 0x502 => whiskWrite acc fields base val mask s
    | 0x503 => brnWrite acc fields base val mask s
    | 0x504 => tbWrite fields base val mask s
    | 0x505 => rtcRegWrite acc base val mask s
    | 0x506 => tmrWrite fields base val mask s
    | 0x507 => lioWrite fields base val mask s
    | 0x508 => feWrite fields base val mask s
    | 0x509 => modWrite fields base val mask s
    | 0x50A => cpWrite 0 fields base val mask s
    | 0x50B => cpWrite 1 fields base val mask s
    | 0x50C => macWrite fields base val mask s
    | 0x50D => fwdWrite fields base val mask s
    | 0x50E => secureOnly acc (larWrite fields base val mask) s
    | 0x50F => flWrite acc fields base val mask s
    | 0x510 => hpWrite acc fields base val mask s
    | 0x511 => secureOnly acc (updWrite acc fields base val mask) s
    | 0x512 => bistWrite fields base val mask s
    | 0x513 => dbgWrite acc fields base val mask s
    | _ => s

end Sys2Proof.Machine
end

