-- ==== Sys2Proof/Machine/Bus.lean ====
section
/-! DEFINITION. One access of an accessor to the physical address space: who may reach what (R25, R26, R84, R86, R464, R496), what
a unit of a register reads and writes through the latches and holding copies (R39, R40), and memory behind the access. -/

namespace Sys2Proof.Machine

/-! ### Who may reach what -/

/-- The self alias names a burner's own set (R86). -/
def inAlias (a : Nat) : Bool := 0x503700 ≤ a && a < 0x503740

/-- The address an accessor's access means: the alias stands for the burner's own set. -/
def ownAddr (acc a : Nat) : Nat := if inAlias a && acc < 16 then 0x503000 + 64 * acc + (a - 0x503700) else a

/-- An open burner may write this byte through the alias (R86). -/
def aliasWrites (o v : Nat) : Bool :=
  (o == 0 && v % 16 == 2) || (0x08 ≤ o && o < 0x10) || (0x16 ≤ o && o < 0x1B) || (0x28 ≤ o && o < 0x30)

/-- A unit of n bytes of a register, or a byte of memory, can be read (R25, R26, R461, R496). -/
def State.readableAt (s : State) (a n : Nat) : Bool :=
  match region a with
  | .flash _ => true
  | .fine => true
  | .sram b => !bitOf (s.rd F.BIST_MEMRET_BANK) b
  | .ctx => true
  | .fbuf => true
  | .regs _ => (regHit a n).isSome
  | .rom => !s.boot.handedOver
  | .none => false

/-- A unit of n bytes of a register, or a byte of memory, can be written. -/
def State.writableAt (s : State) (a n : Nat) : Bool :=
  match region a with
  | .sram b => !bitOf (s.rd F.BIST_MEMRET_BANK) b
  | .ctx => true
  | .fbuf => true
  | .regs _ => (regHit a n).isSome
  | _ => false

/-- How an access is judged. -/
inductive Verdict where
  | ok
  | security
  | bus
  deriving DecidableEq, Repr

/-- Every byte of an access that is no register's is in place; a register's excess is ignored (R39). -/
def spanOk (p : Nat → Nat → Bool) (a n : Nat) : Bool :=
  match region a with
  | .regs _ => p a n
  | _ => (List.range n).all fun i => p (a + i) 1

/-- The security maps stand against an accessor at either end of an access; the alias is open to its burner (R84, R86). -/
def State.gated (s : State) (acc a n : Nat) (write : Bool) (v : Nat) : Bool :=
  if acc = 17 && s.rd F.DBG_STAT_LEVEL == 0 then !(region a == .regs 0x513 || (0x500000 ≤ a && a < 0x500004))
  else if inAlias a && acc < 16 then !s.brnSecure acc && write && !aliasWrites (a - 0x503700) v
  else s.closedTo acc a || s.closedTo acc (a + n - 1)

/-- The verdict on an access of n bytes. -/
def State.verdict (s : State) (acc a n : Nat) (write : Bool) (v : Nat) : Verdict :=
  if s.gated acc a n write v then .security
  else if inAlias a && 16 ≤ acc then .bus
  else if spanOk (if write then s.writableAt else s.readableAt) (ownAddr acc a) n then .ok
  else .bus

/-! ### Registers through the latches (R40) -/

/-- What an open accessor sees of a Whisk register of channels that it may not write (R132). -/
def State.whiskView (s : State) (acc base v : Nat) : Nat :=
  let o := base - 0x502000
  let mine := (List.range 64).foldl (fun m c => if s.mayWriteChan acc c then orBit m c else m) 0
  if o < 0x200 then (if s.mayWriteChan acc (o / 8) then v else 0)
  else if o < 0x280 then (if s.mayWriteChan acc ((o - 0x200) / 2) then v else 0)
  else if o = 0x400 ∨ o = 0x408 then v &&& mine
  else if 0x600 ≤ o ∧ o < 0x680 then (if s.mayWriteChan acc (s.rd (F.WHISK_TASK_CH (o - 0x600))) then v else 0)
  else v

/-- The whole value of a hit, as an accessor sees it. -/
def State.seen (s : State) (acc : Nat) (h : RegHit) : Nat × State :=
  let r := s.hitRead h
  if h.base / 0x1000 = 0x502 && !s.accSecure acc then (s.whiskView acc h.base r.1, r.2) else r

/-- An accessor's read latch in a block. -/
def State.latchOf (s : State) (page acc : Nat) : Option Latch :=
  s.latches.find? fun l => l.page == page && l.acc == acc

/-- An accessor's latch takes a register and its value. -/
def setLatch (page acc reg val : Nat) (s : State) : State :=
  { s with latches := ⟨page, acc, reg, val⟩ :: s.latches.filter fun l => !(l.page == page && l.acc == acc) }

/-- An accessor's holding copy in a block. -/
def State.holdOf (s : State) (page acc : Nat) : Option Holding :=
  s.holds.find? fun l => l.page == page && l.acc == acc

/-- An accessor's holding copy empties. -/
def dropHold (page acc : Nat) (s : State) : State :=
  { s with holds := s.holds.filter fun l => !(l.page == page && l.acc == acc) }

/-- An accessor's holding copy takes a value. -/
def setHold (h : Holding) (s : State) : State :=
  { s with holds := h :: (dropHold h.page h.acc s).holds }

/-- The bytes of a unit of n bytes at offset o that a register of w bytes has. -/
def unitLen (w o n : Nat) : Nat := min n (w - o)

/-- A unit of a register at its own offset takes no latch: the register is not LL, or the unit covers it whole (R39). -/
def unlatched (h : RegHit) (o n : Nat) : Bool := !h.desc.ll || (o == 0 && h.desc.width / 8 ≤ n)

/-- The part of a register's value that a unit shows. -/
def unitOf8 (h : RegHit) (o n v : Nat) : Nat := bitsOf v (8 * o) (8 * unitLen (h.desc.width / 8) o n)

/-- The read of the unit at offset o of a hit (R40). -/
def hitReadUnit (acc : Nat) (h : RegHit) (o n : Nat) (s : State) : Nat × State :=
  let page := h.base / 0x1000
  if unlatched h o n then
    let r := s.seen acc h
    (unitOf8 h o n r.1, if o = 0 then hitFx h r.2 else r.2)
  else if o = 0 then
    let r := s.seen acc h
    (unitOf8 h o n r.1, hitFx h (setLatch page acc h.tag r.1 r.2))
  else
    match s.latchOf page acc with
    | some l =>
      if l.reg = h.tag then (unitOf8 h o n l.val, s)
      else
        let r := s.seen acc h
        (unitOf8 h o n r.1, accErr F.SYS_ACCERR_LLORDER acc (setLatch page acc h.tag r.1 r.2))
    | none =>
      let r := s.seen acc h
      (unitOf8 h o n r.1, accErr F.SYS_ACCERR_LLORDER acc (setLatch page acc h.tag r.1 r.2))

/-- A lower unit collects in the holding copy (R40). -/
def collect (page acc reg val mask : Nat) (s : State) : State :=
  match s.holdOf page acc with
  | some l =>
    if l.reg = reg then setHold ⟨page, acc, reg, clearMask l.val mask + val, l.mask ||| mask⟩ s
    else accErr F.SYS_ACCERR_LLORDER acc (setHold ⟨page, acc, reg, val, mask⟩ s)
  | none => setHold ⟨page, acc, reg, val, mask⟩ s

/-- The highest unit commits what the holding copy has collected for the register (R40). -/
def commitUnit (page acc reg val mask : Nat) (store : Nat → Nat → State → State) (s : State) : State :=
  match s.holdOf page acc with
  | some l =>
    if l.reg = reg then store (clearMask l.val mask + val) (l.mask ||| mask) (dropHold page acc s)
    else store val mask s
  | none => store val mask s

/-- The write of the unit at offset o of a hit; neither an active copy nor a register that is RO throughout takes a write (R14, R17,
R19, R40). -/
def hitWriteUnit (acc : Nat) (h : RegHit) (o n v : Nat) (s : State) : State :=
  let page := h.base / 0x1000
  let k := 8 * unitLen (h.desc.width / 8) o n
  let val := v % 2 ^ k * 2 ^ (8 * o)
  let mask := (2 ^ k - 1) * 2 ^ (8 * o)
  if h.act || !h.desc.writable then s
  else if unlatched h o n then regStore acc h.desc.fields h.base val mask s
  else if o + n < h.desc.width / 8 then collect page acc h.tag val mask s
  else commitUnit page acc h.tag val mask (regStore acc h.desc.fields h.base) s

/-! ### One access -/

/-- The read of n bytes that the verdict permits: the value, or none where flash is uncorrectable. -/
def readAt (acc a n : Nat) (s : State) : Option Nat × State :=
  match region a with
  | .regs _ =>
    match regHit a n with
    | some h => let r := hitReadUnit acc h (a - h.tag) n s; (some r.1, r.2)
    | none => (some 0, s)
  | .flash _ =>
    match flDataRead acc a n s with
    | (.data v, s1) => (some v, s1)
    | (.unc, s1) => (none, s1)
  | .fine =>
    match flDataRead acc a n s with
    | (.data v, s1) => (some v, s1)
    | (.unc, s1) => (none, s1)
  | _ => (some (leNat (s.ramBytes a n)), segHold a n s)

/-- A byte of RAM is written, unless a cipher command keeps it (R308). -/
def putByte (a : Nat) (v : Byte) (s : State) : State := if s.c2Hidden a then s else s.setByte a v

/-- n bytes of RAM are written, the lowest first. -/
def putBytes (a v : Nat) : Nat → State → State
  | 0, s => s
  | n + 1, s => putBytes (a + 1) (v / 256) n (putByte a (BitVec.ofNat 8 v) s)

/-- The write of n bytes that the verdict permits. -/
def writeAt (acc a n v : Nat) (s : State) : State :=
  match region a with
  | .regs _ =>
    match regHit a n with
    | some h => hitWriteUnit acc h (a - h.tag) n v s
    | none => s
  | _ => segHold a n (putBytes a v n s)

/-- How an access ends. -/
inductive BusRes where
  | ok (v : Nat)
  | security
  | bus
  | unc
  deriving DecidableEq, Repr

/-- A read of n bytes by an accessor. -/
def busRead (acc a n : Nat) (s : State) : BusRes × State :=
  match s.verdict acc a n false 0 with
  | .security => (.security, s)
  | .bus => (.bus, s)
  | .ok =>
    match readAt acc (ownAddr acc a) n s with
    | (some v, s1) => (.ok v, { s1 with busData := v })
    | (none, s1) => (.unc, s1)

/-- A write of n bytes by an accessor. -/
def busWrite (acc a n v : Nat) (s : State) : BusRes × State :=
  match s.verdict acc a n true v with
  | .security => (.security, s)
  | .bus => (.bus, s)
  | .ok => (.ok 0, writeAt acc (ownAddr acc a) n v s)

end Sys2Proof.Machine
end

