-- ==== Sys2Proof/Machine/HostOps.lean ====
section
/-! DEFINITION. Host frames (spec/16_host_port.md): the host window (R419), indirect access (R420), native frames (R412 to R418)
and compatibility frames (R426 to R428). -/

namespace Sys2Proof.Machine

/-! ### The host's accesses (R420) -/

/-- An enabled HP_ALLOW range covers both bytes with the right needed. -/
def State.hostAllow (s : State) (a : Nat) (write : Bool) : Bool :=
  s.on F.HP_PERM_OPEN ||
    (List.range 4).any fun k =>
      s.on (F.HP_ALLOW_EN k) && s.on (if write then F.HP_ALLOW_WR k else F.HP_ALLOW_RD k) &&
        s.rd (F.HP_ALLOW_FIRST k) ≤ a && a + 1 ≤ s.rd (F.HP_ALLOW_LAST k)

/-- A refusal by the maps or the list. -/
def hostDeny (s : State) : State := (s.set1 F.HP_ERR_DENY).inc F.HP_DENIES

/-- A host access of 16 bits that passes no further: what is recorded. -/
def hostRefuse (r : BusRes) (s : State) : State :=
  match r with
  | .security => hostDeny s
  | .bus => accErr F.SYS_ACCERR_UNMAPPED 16 s
  | .unc => s.set1 F.FL_STAT_UNCF
  | .ok _ => s

/-- A 16-bit read at a physical address: the word, whether the access was refused, and the state after it. -/
def hostRead16 (a : Nat) (s : State) : Nat × Bool × State :=
  match s.verdict 16 a 2 false 0 with
  | .security => (0, true, hostDeny s)
  | .bus => (0, true, accErr F.SYS_ACCERR_UNMAPPED 16 s)
  | .ok =>
    if !s.hostAllow a false then (0, true, hostDeny s)
    else
      match busRead 16 a 2 s with
      | (.ok v, s1) => (v, false, s1)
      | (r, s1) => (0, false, hostRefuse r s1)

/-- A 16-bit write at a physical address. -/
def hostWrite16 (a v : Nat) (s : State) : Bool × State :=
  match s.verdict 16 a 2 true v with
  | .security => (true, hostDeny s)
  | .bus => (true, accErr F.SYS_ACCERR_UNMAPPED 16 s)
  | .ok => if s.hostAllow a true then (false, (busWrite 16 a 2 v s).2) else (true, hostDeny s)

/-- The pointer advances after an indirect access. -/
def iptrNext (s : State) : State :=
  if s.on F.HP_IPTR_INC then s.wr F.HP_IPTR_PTR (s.rd F.HP_IPTR_PTR + 2) else s

/-- HP_IPTR as the host's window words H_IPTR0 and H_IPTR1 show it. -/
def iptrHit : RegHit :=
  ⟨⟨0x510044, 32, 1, 0, true, [⟨31, 1, .rw, false, 1⟩, ⟨0, 24, .rw, false, 0⟩]⟩, 0x510044, false⟩

/-- The pointer and INC take the bits that were written; bit 0 of the pointer reads 0. -/
def iptrStore (val mask : Nat) (s : State) : State :=
  let s1 := mergeReg iptrHit.desc.fields 0x510044 val mask s
  s1.wr F.HP_IPTR_PTR (s1.rd F.HP_IPTR_PTR / 2 * 2)

/-! ### The window (R419) -/

/-- A window word that the host may reach and that this function does not serve: identity, status, mailboxes. -/
def State.winPlain (s : State) (a : Nat) : Option Nat :=
  match a with
  | 0x000 => some (s.rd F.SYS_ID_TYPE)
  | 0x001 => some (s.rd F.SYS_ID_REV * 256 + 1)
  | 0x002 => some (bitsOf (s.rd F.MAC_EXT_EUI) 0 16)
  | 0x003 => some (bitsOf (s.rd F.MAC_EXT_EUI) 16 16)
  | 0x004 => some (bitsOf (s.rd F.MAC_EXT_EUI) 32 16)
  | 0x005 => some (bitsOf (s.rd F.MAC_EXT_EUI) 48 16)
  | 0x006 => some (s.rd F.HP_STAT_HMODE * 8 + s.rd F.HP_STAT_HID)
  | 0x008 => some s.hostStatus
  | 0x009 => some s.hpErr
  | 0x00A => some (s.rd F.HP_MBSTAT_MBOUT * 256 + s.rd F.HP_MBSTAT_MBIN)
  | 0x021 => some 0
  | 0x022 => some 0
  | 0x023 => some s.txRoom
  | 0x024 => some s.hp.rx.length
  | _ =>
    if 0x040 ≤ a ∧ a < 0x0C0 then
      let m := (a - 0x040) / 16
      let k := a % 16
      some (if k < 8 then s.rd (F.HP_MBIN_WORD (8 * m + k)) else s.rd (F.HP_MBOUT_WORD (8 * m + k - 8)))
    else none

/-- The read of a window word: its value, whether the access was refused, and the state after it. Words of the FIFO are taken
when they have been shifted out (R422). -/
def winRead (a : Nat) (s : State) : Nat × Bool × State :=
  if 0x400 ≤ a then (s.rxWord, false, s)
  else if 0x100 ≤ a then
    let r := hostRead16 (s.rd F.HP_IPTR_PTR) s
    (r.1, r.2.1, iptrNext r.2.2)
  else if a = 0x010 ∨ a = 0x011 then
    let r := hitReadUnit 16 iptrHit (2 * (a - 0x010)) 2 s
    (r.1, false, r.2)
  else if a = 0x020 then (s.rxHead, false, rxRewind s)
  else
    match s.winPlain a with
    | some v => (v, false, s)
    | none => (0, true, accErr F.SYS_ACCERR_UNMAPPED 16 s)

/-- The write of a window word below the apertures. -/
def winWritePlain (a v : Nat) (s : State) : Bool × State :=
  match a with
  | 0x009 => (false, hpErrClear v s)
  | 0x00A => (false, mbOutClear (v / 256) s)
  | 0x010 => (false, collect 0x510 16 0x510044 (v % 2 ^ 16) 0xFFFF s)
  | 0x011 => (false, commitUnit 0x510 16 0x510044 (v % 2 ^ 16 * 2 ^ 16) 0xFFFF0000 iptrStore s)
  | 0x021 => (false, rxRelease s)
  | 0x022 => (false, txOpen (v % 2 ^ 11) s)
  | _ =>
    if 0x040 ≤ a ∧ a < 0x0C0 then
      (false, if a % 16 < 8 then mbIn ((a - 0x040) / 16) (a % 16) v s else s)
    else if a = 0x020 ∨ (s.winPlain a).isSome then (false, s)
    else (true, accErr F.SYS_ACCERR_UNMAPPED 16 s)

/-- The write of a window word: whether it was refused, and the state after it. -/
def winWrite (a v : Nat) (s : State) : Bool × State :=
  if 0x400 ≤ a then (false, txWord v s)
  else if 0x100 ≤ a then
    let r := hostWrite16 (s.rd F.HP_IPTR_PTR) v s
    (r.1, iptrNext r.2)
  else winWritePlain a v s

/-- The window address after a data word; from 7FFh it wraps (R413). -/
def winNext (a : Nat) (s : State) : Nat × State := if a = 0x7FF then (0, s.set1 F.HP_ERR_WRAP) else (a + 1, s)

/-! ### Native frames -/

/-- The data words of a write frame; a reset that one of them causes ends it (R432). -/
def writeWords (a : Nat) : List (BitVec 16) → State → State
  | [], s => s
  | v :: t, s =>
    if s.boot.held then s
    else
      let r := winNext a (winWrite a v.toNat s).2
      writeWords r.1 t r.2

/-- The slot that a read frame's end cuts, of part bits: ready, its first bit prefetches the word after it; else it underruns (R415 to
R417). -/
def cutSlot (a : Nat) (f : HostFrame) (s : State) : State :=
  if f.part = 0 then s
  else if f.cutReady then (winRead ((a + 1) % 0x800) s).2.2
  else hpFault F.HP_ERR_UNDERRUN (s.inc F.HP_UNDERRUNS)

/-- The words of a read frame (R415, R416): the word prefetched is sent in a slot that finds it ready, which then prefetches the
next; another slot repeats the previous word. -/
def readSlots (a cur prev : Nat) : List Bool → State → List Nat × Nat × State
  | [], s => ([], a, s)
  | true :: t, s =>
    let s1 := if 0x400 ≤ a then rxTake s else s
    let n := winNext a s1
    let p := winRead n.1 n.2
    let r := readSlots n.1 p.1 cur t p.2.2
    (cur :: r.1, r.2)
  | false :: t, s =>
    let r := readSlots a cur prev t (hpFault F.HP_ERR_UNDERRUN (s.inc F.HP_UNDERRUNS))
    (prev :: r.1, r.2)

/-- A frame that ends short (R417). -/
def frameShort (s : State) : State := hpFault F.HP_ERR_FRAME_SHORT (s.inc F.HP_SHORTS)

/-- The end of a native frame addressed to this device; one that a reset has ended has no event (R432). -/
def frameEnd (part : Nat) (sent : List Nat) (s : State) : State :=
  if s.boot.held then s
  else
    let s1 := rxFrameEnd (if part = 0 then s else frameShort s)
    fire 184 (s1.modHp fun h => { h with sent := s1.onIo sent })

/-- The work of a native frame that this device takes: 0 write, 1 read, 2 status read, 3 broadcast write. -/
def nativeRun (op : Nat) (f : HostFrame) (s : State) : State :=
  match op with
  | 1 =>
    let st := s.hostStatus
    let p := winRead f.addr.toNat s
    if f.turn then
      let r := readSlots f.addr.toNat p.1 st f.slots p.2.2
      frameEnd f.part.toNat (st :: r.1) (cutSlot r.2.1 f r.2.2)
    else frameEnd f.part.toNat [] p.2.2
  | 2 => frameEnd f.part.toNat (f.slots.map fun _ => s.hostStatus) s
  | _ => frameEnd f.part.toNat [] (writeWords f.addr.toNat f.words s)

/-- HSEL falls: a closing for Rest meets the refuser, and a slice is kept away for 300 µs (R362, R432, R433). -/
def hselLow (s : State) : State :=
  restCheck ((s.set1 F.HP_STAT_SEL).modHp fun h => { h with selAge := busyTicks, frame := true })

/-- The frame is over: a transfer that waited for its end starts (R429). -/
def frameOver (s : State) : State :=
  let s1 := (s.clr F.HP_STAT_SEL).modHp fun h => { h with frame := false }
  if s1.bistPart = some 17 then s1 else hpMasterWaited s1

/-- The port meets a frame, through which HSEL is low: in Rest it is a wake request or nothing, a disabled or retired port ignores it, a
slice and a master transfer miss it (R418, R430, R433). -/
def frameMet (serve : State → State) (s : State) : State :=
  if s.boot.held then s
  else if s.inRest then
    (if s.on F.PWR_RESTCTL_HSELWAKE then noteWake s else s).modHp fun h => { h with selAge := busyTicks }
  else
    let s0 := hselLow s
    let s1 := if s0.on F.HP_STAT_MASTER then selectFaultOpen s0
      else if !s0.hpUp then s0
      else if s0.bistPart = some 17 then (s0.inc F.BIST_HOLD).modHp fun h => { h with missed := true }
      else serve s0
    frameOver s1

/-- A native frame at a port that serves it. -/
def nativeServe (op : Nat) (f : HostFrame) (s : State) : State :=
  if !f.whole then frameShort s
  else if op ≠ 3 ∧ f.sub.toNat ≠ s.rd F.HP_STAT_HID then s
  else nativeRun op f s

/-- A native frame. -/
def nativeFrame (op : Nat) (f : HostFrame) (s : State) : State :=
  frameMet (fun s => if s.on F.HP_STAT_HMODE then s else nativeServe op f s) s

/-! ### Compatibility frames -/

/-- CRC-8 of a list of bytes (R426). -/
def crc8 (l : List Nat) : Nat := l.foldl (fun c b => crcByteL 8 0x2F c b) 0xFF

/-- The seven bytes of a 56-bit value, the most significant first. -/
def be7 (v : Nat) : List Nat := (List.range 7).map fun i => v / 2 ^ (8 * (6 - i)) % 256

/-- Bits [63:8] of a request. -/
def compatBody (cmd : Nat) (f : CompatFrame) : Nat :=
  f.alive.toNat * 2 ^ 52 + cmd * 2 ^ 48 + f.addr.toNat * 2 ^ 32 + f.data.toNat

/-- The reply that a frame's HSDO carries: the stored one, HREQ and BADPREV as they are, UNDERRUN with data 0 where the read had
not completed, and the CRC (R428). -/
def State.compatReply (s : State) (late : Bool) : Nat :=
  let b := s.hp.creply
  let b1 := if late then b / 2 ^ 32 * 2 ^ 32 + 2 ^ 49 else b
  let b2 := b1 + b2n s.hp.cbad * 2 ^ 51 + b2n s.hreq * 2 ^ 50
  b2 * 256 + crc8 (be7 b2)

/-- The word on HSDO: before the first good frame there is no reply to give, and it is open. -/
def compatSend (late : Bool) (s : State) : State :=
  if s.hp.cprev.isSome then s.modHp fun h => { h with sent := s.onIo [s.compatReply late] }
  else s.free.2.modHp fun h => { h with sent := s.onIo [s.free.1 % 2 ^ 64] }

/-- A bad frame (R427). -/
def compatBad (short : Bool) (s : State) : State :=
  let s1 := (s.inc F.HP_CBADS).modHp fun h => { h with cbad := true }
  if short then frameShort s1 else hpFault F.HP_ERR_CBAD s1

/-- Two writes or one (R426). -/
def compatWrite (two : Bool) (f : CompatFrame) (s : State) : Nat × Bool × State :=
  let r := winWrite f.addr.toNat (f.data.toNat % 2 ^ 16) s
  if two && !r.2.boot.held then
    let n := winNext f.addr.toNat r.2
    let q := winWrite n.1 (f.data.toNat / 2 ^ 16) n.2
    (0, r.1 || q.1, q.2)
  else (0, r.1, r.2)

/-- The FIFO word that the aperture gives after so many untaken ones: no word past the frame's end is owed (R422). -/
def State.rxOwed (s : State) (a k : Nat) : Bool :=
  decide (0x400 ≤ a) && match s.hp.rx with
    | [] => false
    | g :: _ => decide (s.hp.pos + k < (g.data.length + 1) / 2)

/-- Two reads (R426): what they find in the FIFO aperture is taken when the reply has shifted it out (R422). -/
def compatRead (f : CompatFrame) (s : State) : Nat × Bool × State :=
  let a := f.addr.toNat
  let r := winRead a s
  let lo := s.rxOwed a 0
  let n := winNext a r.2.2
  let ahead := n.2.modHp fun h => { h with pos := h.pos + b2n lo }
  let q := winRead n.1 ahead
  let hi := n.2.rxOwed n.1 (b2n lo)
  (r.1 + q.1 * 2 ^ 16, r.2.1 || q.2.1,
    q.2.2.modHp fun h => { h with pos := (if n.1 = 0x020 then 0 else n.2.hp.pos), owedLo := lo, owedHi := hi })

/-- The work of a good frame: data for the reply, whether an access was refused, the state after it. -/
def compatRun (cmd : Nat) (f : CompatFrame) (s : State) : Nat × Bool × State :=
  match cmd with
  | 1 => compatWrite true f s
  | 2 => compatRead f s
  | 3 => compatWrite false f s
  | 4 => compatWrite true f s
  | _ => (0, false, s)

/-- A good frame: executed unless it repeats the previous one; a broadcast leaves the stored reply; a reset that it causes ends it (R427,
R428, R432). -/
def compatGood (cmd : Nat) (f : CompatFrame) (s : State) : State :=
  let s1 := s.modHp fun h => { h with cbad := false, cprev := some (compatBody cmd f) }
  if s.hp.cprev = some (compatBody cmd f) then fire 184 (rxFrameEnd s1)
  else
    let r := compatRun cmd f (if cmd = 4 then s1 else s1.modHp fun h => { h with owedLo := false, owedHi := false })
    let reply := f.alive.toNat * 2 ^ 52 + b2n r.2.1 * 2 ^ 48 + f.addr.toNat * 2 ^ 32 + r.1
    if r.2.2.boot.held then r.2.2
    else fire 184 (rxFrameEnd (if cmd = 4 then r.2.2 else r.2.2.modHp fun h => { h with creply := reply }))

/-- A compatibility frame at a port that serves it: a late reply's data are not the words that were read (R427, R428). -/
def compatServe (cmd : Nat) (f : CompatFrame) (s : State) : State :=
  let s1 := compatSend f.late s
  let s2 := if f.late then s1 else replyTaken f.edges.toNat s1
  if f.edges.toNat ≠ 64 then rxFrameEnd (compatBad true s2)
  else if f.crc.toNat ≠ crc8 (be7 (compatBody cmd f)) || decide (4 < cmd) || decide (2048 ≤ f.addr.toNat) then
    rxFrameEnd (compatBad false s2)
  else compatGood cmd f s2

/-- A compatibility frame. -/
def compatFrame (cmd : Nat) (f : CompatFrame) (s : State) : State :=
  let sent := match f.invalid with
    | some n => 5 + n.val
    | none => cmd
  frameMet (fun s => if s.on F.HP_STAT_HMODE then compatServe sent f s else s) s

/-- The rising edges of a stalled frame, its header and words taken as they came on HSDI. -/
def frameEdges (f : HostFrame) : Nat :=
  if f.whole then 16 * (1 + f.words.length + f.slots.length + b2n f.turn) + f.part.toNat else f.part.toNat

/-- The 64 bits of a stalled frame as a compatibility request (R426); with other than 64 edges they say nothing. -/
def frameBits (op : Nat) (f : HostFrame) : Nat :=
  let word (k : Nat) : Nat := (f.words.getD k 0).toNat
  (op * 2 ^ 14 + f.sub.toNat * 2 ^ 11 + f.addr.toNat) * 2 ^ 48 + word 0 * 2 ^ 32 + word 1 * 2 ^ 16 + word 2

/-- HOST_FRAME_TIMEOUT: HSCK stalls; what came before stands, and HSEL is still low (R417). -/
def frameTimeout (op : Nat) (f : HostFrame) (s : State) : State :=
  let t := frameMet (fun s =>
    let s1 := s.inc F.HP_TIMEOUTS
    if s.on F.HP_STAT_HMODE then
      let b := frameBits op f
      compatServe (b / 2 ^ 56 % 16)
        ⟨BitVec.ofNat 4 (b / 2 ^ 60), none, BitVec.ofNat 16 (b / 2 ^ 40), BitVec.ofNat 32 (b / 2 ^ 8), BitVec.ofNat 8 b,
          BitVec.ofNat 8 (min (frameEdges f) 255), !f.cutReady⟩ s1
    else nativeServe op f s1) s
  if s.boot.held || s.inRest then t else t.set1 F.HP_STAT_SEL

end Sys2Proof.Machine
end

