-- ==== Sys2Proof/Machine/Settle.lean ====
section
/-! DEFINITION. What surrounds every command (notes/assumptions/8.md): before it, the blocks do what the last command left them to do
at once (tasks that channels have driven, steps of network time, reports between blocks, the check of a Rest entry); after it,
memory stands in its canonical form. -/

namespace Sys2Proof.Machine

/-- A task input is driven: its block performs the task (R124). -/
def doTask (t : Nat) (s : State) : State :=
  if t ≤ 18 then rtcQueueTask t s
  else if t ≤ 47 then tmrTask t s
  else if t ≤ 53 then lioTask t s
  else if 72 ≤ t ∧ t ≤ 87 then laneSearch ((t - 72) / 2) (t % 2 == 0) s
  else if 120 ≤ t ∧ t ≤ 122 then hpTask t s
  else
    match t with
    | 64 => feRxAsk s
    | 65 => feRxRel s
    | 66 => feCalGo s
    | 67 => feAbortTx s
    | 88 => cpEnableOp 0 s
    | 89 => cpDisableOp 0 s
    | 90 => cpRetrainOp 0 s
    | 91 => cpReflFree 0 s
    | 92 => cpEnableOp 1 s
    | 93 => cpDisableOp 1 s
    | 94 => cpRetrainOp 1 s
    | 95 => cpReflFree 1 s
    | 96 => macListen (s.set1 F.MAC_CTL_LISTEN)
    | 97 => macListen (s.clr F.MAC_CTL_LISTEN)
    | 98 => s.set1 F.MAC_CTL_TXHALT
    | 99 => s.clr F.MAC_CTL_TXHALT
    | 100 => beaconSkip s
    | 104 => s.set1 F.FWD_CTL_HOLDQ
    | 105 => s.clr F.FWD_CTL_HOLDQ
    | 112 => raiseAlarm 6 s
    | 116 => if s.rd F.FL_TCMD_OP = 0 then s else flCmd none (s.rd F.FL_TCMD_OP) s
    | 124 => updFlush s
    | 125 => bistPassOpen s
    | _ => s

/-- The queued tasks are performed, in the order in which they were driven. -/
def doTasks (s : State) : State := s.taskq.foldl (fun s t => doTask t s) { s with taskq := [] }

/-- A step of network time reaches the lantern outputs and the MAC. -/
def meetStep (s : State) (x : TbStep) : State := macStepped x (lioStepped x.old x.new s)

/-- Lantern I/O, the MAC and forwarding meet the steps of network time (R55). -/
def meetSteps (s : State) : State :=
  if s.tb.steps.isEmpty then s
  else fwdStepped (s.tb.steps.foldl meetStep { s with tb := { s.tb with steps := [] } })

/-- The last command left no block anything to do. -/
def State.quiet (s : State) : Bool :=
  s.taskq.isEmpty && s.tb.steps.isEmpty && s.tb.adv.isEmpty && s.fe.report.isNone && s.mac.tx.all (fun x => x.late.isNone) &&
    s.cp.all (fun x => !x.txCut) && s.lio.rly.all (fun x => x.req.isNone) && s.rest != .closing && s.upd.jw.isEmpty && s.boot.wait.isNone && s.ciph.op.all (·.checked)

/-- The timers and a beacon on its way meet the passing of network time, before the tasks that were driven at its end (R258, R389, R394). -/
def meetTime (s : State) : State := tmrFractions (beaconMark s)

/-- The blocks do what the last command left them to do. -/
def settleBusy (s : State) : State :=
  restCheck (bootGo (bjGo (c2Go (columnCut 1 (columnCut 0 (ackLate (macReport (rlySettle (meetSteps (doTasks (meetTime s)))))))))))

/-- The events of the last command, and what the column ports sent in it, are forgotten. -/
def forget (s : State) : State :=
  let s1 := { s with fired := [] }
  if s.cp.all fun x => x.line.isEmpty then s1 else { s1 with cp := s.cp.map fun x => { x with line := [] } }

/-- What happens before a command: what the last one showed is forgotten, and the blocks catch up. -/
def settle (s : State) : State :=
  let s0 := forget s
  if s.quiet then s0 else settleBusy s0

/-- Memory in its canonical form; one that has it already is left alone. -/
def canonMem (m : List Host.Cell) : List Host.Cell :=
  m.foldr (fun c l => if memDef c.1 = some c.2 then erase l c.1 else insert l c.1 c.2) []

/-- What happens after a command. -/
def tidy (s : State) : State := if s.memWf then s else { s with mem := canonMem s.mem }

/-- What a command answers. -/
abbrev Out := Host.Outcome State Fault Refusal

/-- The state after a command whose effect is f; a command acts on everything but the queue. -/
def after (s : State) (f : State → State) : State := { tidy (f (settle s)) with pending := s.pending }

/-- A command whose effect is f. -/
def run (s : State) (f : State → State) : Out := .next (after s f)

/-- A command that only a running core domain takes (notes/assumptions/2.md). -/
def runCore (s : State) (f : State → State) : Out :=
  run s fun s => if s.coreUp then f s else s

/-- A command that only a running always-on domain takes. -/
def runAon (s : State) (f : State → State) : Out := run s (whenAon f)

/-- A command of the supplies and the reset controller. -/
def runPwr (s : State) (f : State → State) : Out := run s (whenPowered f)

end Sys2Proof.Machine
end

