-- ==== Sys2Proof/Machine/AccessOps.lean ====
section
/-! DEFINITION. One register access by a given accessor as a command (R27, R39, R40), with the refusal that its accessor meets, and
the transactions of the debug port (R463 to R467). -/

namespace Sys2Proof.Machine

/-- The bytes of a width. -/
def widthBytes : Width → Nat
  | .w8 => 1
  | .w16 => 2
  | .w32 => 4

/-- An accessor makes accesses of n bytes at an address (R39, R420). -/
def unitOk (acc a n : Nat) : Bool :=
  if acc < 16 then n == 1 else if acc = 16 then n == 2 && a % 2 == 0 else true

/-- The accessor is the debug port, and its fuse is blown: it makes no access (R467). -/
def State.portDead (s : State) (acc : Nat) : Bool := acc == 17 && s.on F.DBG_STAT_KILLED

/-- What the debug port records of an access that does not reach its target (R26, R463). -/
def dbgRefuse (r : BusRes) (s : State) : State :=
  match r with
  | .bus => accErr F.SYS_ACCERR_UNMAPPED 17 s
  | .unc => s.set1 F.FL_STAT_UNCF
  | _ => s

/-- A read by an accessor: a burner's refused one has no effect here (its word raises an exception instead). -/
def accessRead (acc a n : Nat) (s : State) : State :=
  if !unitOk acc a n || s.portDead acc then s
  else if acc = 16 then
    let r := hostRead16 a s
    { r.2.2 with busData := r.1 }
  else
    let r := busRead acc a n s
    if acc = 17 then dbgRefuse r.1 r.2 else r.2

/-- A write by an accessor. -/
def accessWrite (acc a n v : Nat) (s : State) : State :=
  if !unitOk acc a n || s.portDead acc then s
  else if acc = 16 then (hostWrite16 a v s).2
  else
    let r := busWrite acc a n (v % 2 ^ (8 * n)) s
    if acc = 17 then dbgRefuse r.1 r.2 else r.2

/-- Where a unit of n bytes at an address falls in the LL register that holds it, if one does: the hit and the offset. -/
def llUnit (acc a n : Nat) : Option (RegHit × Nat) :=
  match region (ownAddr acc a) with
  | .regs _ =>
    match regHit (ownAddr acc a) n with
    | some h => if h.desc.ll && !unlatched h (ownAddr acc a - h.tag) n then some (h, ownAddr acc a - h.tag) else none
    | none => none
  | _ => none

/-- The unit is the lowest of an LL register. -/
def llLowest (acc a n : Nat) : Bool :=
  match llUnit acc a n with
  | some x => x.2 == 0
  | none => false

/-- The unit is a higher one of an LL register. -/
def llHigher (acc a n : Nat) : Bool :=
  match llUnit acc a n with
  | some x => x.2 != 0
  | none => false

/-- The unit is the highest of an LL register. -/
def llHighest (acc a n : Nat) : Bool :=
  match llUnit acc a n with
  | some x => decide (x.1.desc.width / 8 ≤ x.2 + n)
  | none => false

/-- The unit is a lower one of an LL register. -/
def llLower (acc a n : Nat) : Bool :=
  match llUnit acc a n with
  | some x => decide (x.2 + n < x.1.desc.width / 8)
  | none => false

/-- A register stands at the address an accessor names. -/
def atRegister (acc a : Nat) : Bool :=
  match region (ownAddr acc a) with
  | .regs _ => true
  | _ => false

/-! ### Debug transactions (R463) -/

/-- The four bytes of a 32-bit value, the most significant first. -/
def be4 (v : Nat) : List Nat := [v / 2 ^ 24 % 256, v / 2 ^ 16 % 256, v / 2 ^ 8 % 256, v % 256]

/-- The three bytes of an address, the most significant first. -/
def be3 (v : Nat) : List Nat := [v / 2 ^ 16 % 256, v / 2 ^ 8 % 256, v % 256]

/-- A header is well formed for a read (OP 01b) or a write (10b). -/
def hdrOk (write : Bool) (hdr : Nat) : Bool :=
  bitsOf hdr 5 3 == 2 && bitsOf hdr 3 2 == (if write then 2 else 1) && bitsOf hdr 1 2 != 3 && bitsOf hdr 0 1 == 0

/-- The access size of a header in bytes. -/
def hdrBytes (hdr : Nat) : Nat := 2 ^ bitsOf hdr 1 2

/-- An open or locked-out write of a flash register that R331 protects. -/
def State.dbgLocked (s : State) (a : Nat) : Bool :=
  a / 0x1000 == 0x50F && flLocked (a % 0x1000) && (!s.accSecure 17 || s.on F.FL_LOCK_LOCK)

/-- The access of a transaction: whether it is refused, the data of a read, and the state after it. -/
def dbgAccess (write : Bool) (hdr a wdata : Nat) (s : State) : Bool × Nat × State :=
  let n := hdrBytes hdr
  if write then
    let r := busWrite 17 a n (wdata % 2 ^ (8 * n)) s
    match r.1 with
    | .ok _ => (s.dbgLocked a, 0, r.2)
    | _ => (true, 0, dbgRefuse r.1 r.2)
  else
    let r := busRead 17 a n s
    match r.1 with
    | .ok v => (false, v, r.2)
    | .unc => (false, 0, dbgRefuse .unc r.2)
    | _ => (true, 0, dbgRefuse r.1 r.2)

/-- The device answers with a status alone. -/
def dbgAnswer (st : DbgStatus) (s : State) : State := s.modDbg fun d => { d with status := some st, rdata := none, dcrc := none }

/-- The device answers with the outcome of an access: REFUSED, or DONE with a read's data and its CRC. -/
def dbgOutcome (write refused : Bool) (data : Nat) (s : State) : State :=
  if refused then dbgAnswer .refused s
  else if write then dbgAnswer .done s
  else s.modDbg fun d => { d with status := some .done, rdata := some data, dcrc := some (crc8 (6 :: be4 data)) }

/-- An access is performed; where it could not complete before STATUS it stays pending with its outcome. -/
def dbgPerform (write : Bool) (hdr a wdata : Nat) (done : Bool) (s : State) : State :=
  let r := dbgAccess write hdr a wdata s
  if done then dbgOutcome write r.1 r.2.1 (r.2.2.modDbg fun d => { d with pend := none })
  else dbgAnswer .busy (r.2.2.modDbg fun d => { d with pend := some ⟨hdr, a, wdata, r.1, r.2.1⟩ })

/-- A well-formed transaction: a repetition collects the pending outcome, another one waits for the pending access to end. -/
def dbgServe (write : Bool) (hdr a wdata : Nat) (done : Bool) (s : State) : State :=
  match s.dbg.pend with
  | none => dbgPerform write hdr a wdata done s
  | some p =>
    if !done then dbgAnswer .busy s
    else if p.hdr = hdr ∧ p.addr = a ∧ p.wdata = wdata then
      dbgOutcome write p.refused p.data (s.modDbg fun d => { d with pend := none })
    else dbgPerform write hdr a wdata true s

/-- A debug transaction, with its answer: none while the port is dead or VDDIO is absent, BUSY while the device wakes for it (R463, R466,
R467, R475). -/
def dbgTransact (write : Bool) (hdr a wdata rcrc : Nat) (done : Bool) (s : State) : State :=
  if s.boot.aonDown then s
  else if s.on F.DBG_STAT_KILLED || s.ioOff then s.modDbg fun d => { d with status := none, rdata := none, dcrc := none }
  else if s.inRest then dbgAnswer .busy (noteWake s)
  else if !hdrOk write hdr then dbgAnswer .refused s
  else if rcrc ≠ crc8 (hdr :: be3 a ++ (if write then be4 wdata else [])) then dbgAnswer .crcerr (s.set1 F.DBG_STAT_CERR)
  else dbgServe write hdr a wdata done s

/-- A write of DBG_CTL through the debug port is possible: not killed, out of Rest (R466, R467). -/
def dbgLive (f : State → State) (s : State) : State := if s.on F.DBG_STAT_KILLED then s else f s

end Sys2Proof.Machine
end

