-- ==== Sys2Proof/Machine/AccessCmds.lean ====
section
/-! DEFINITION. The meanings of the commands of register access, system control and the commit protocol (R27 to R42). -/

namespace Sys2Proof.Machine

/-! ### Register access (R27, R39, R40) -/

/-- REG_WRITE (R27): one write at a register's address. -/
def execRegWrite (acc : Fin 18) (addr : BitVec 24) (w : Width) (v : BitVec 32) (s : State) : Out :=
  runCore s fun s => if atRegister acc addr.toNat then accessWrite acc addr.toNat (widthBytes w) v.toNat s else s

/-- LL_READ_LOW (R40). -/
def execLlReadLow (acc : Fin 18) (addr : BitVec 24) (w : Width) (s : State) : Out :=
  runCore s fun s => if llLowest acc addr.toNat (widthBytes w) then accessRead acc addr.toNat (widthBytes w) s else s

/-- LL_READ_HIGH (R40). -/
def execLlReadHigh (acc : Fin 18) (addr : BitVec 24) (w : Width) (s : State) : Out :=
  runCore s fun s => if llHigher acc addr.toNat (widthBytes w) then accessRead acc addr.toNat (widthBytes w) s else s

/-- LL_WRITE_LOW (R40). -/
def execLlWriteLow (acc : Fin 18) (addr : BitVec 24) (w : Width) (v : BitVec 32) (s : State) : Out :=
  runCore s fun s => if llLower acc addr.toNat (widthBytes w) then accessWrite acc addr.toNat (widthBytes w) v.toNat s else s

/-- LL_WRITE_HIGH (R40). -/
def execLlWriteHigh (acc : Fin 18) (addr : BitVec 24) (w : Width) (v : BitVec 32) (s : State) : Out :=
  runCore s fun s =>
    if llHighest acc addr.toNat (widthBytes w) then accessWrite acc addr.toNat (widthBytes w) v.toNat s else s

/-! ### The commit protocol (R34 to R37) -/

/-- COMMIT_ARM (R34). -/
def execCommitArm (blk : CommitBlock) (s : State) : Out := runCore s (commitArmOp blk)

/-- COMMIT_CANCEL (R34). -/
def execCommitCancel (blk : CommitBlock) (s : State) : Out := runCore s (commitCancelOp blk)

/-- The block's boundary comes in Rest too: the cycle strobe does (R48, R366). -/
def boundaryInRest (blk : CommitBlock) : Bool := blk == .sys || blk == .tb

/-- COMMIT (R35). -/
def execCommit (blk : CommitBlock) (s : State) : Out :=
  runAon s fun s => if boundaryInRest blk || s.coreUp then commitBoundary blk s else s

/-! ### Clocks (R28 to R31) -/

/-- CLK_SWITCH_PLL (R30). -/
def execClkSwitchPll (held : Bool) (s : State) : Out := runCore s (clkToPll held)

/-- CLK_SWITCH_RC48 (R30). -/
def execClkSwitchRc48 (cause : Rc48Cause) (s : State) : Out := runCore s (clkToRc48 cause)

/-- PLL_LOCK (R30). -/
def execPllLock (s : State) : Out := runAon s pllLockOp

/-- XO_READY (R28). -/
def execXoReady (s : State) : Out := runAon s xoReadyOp

/-- CLK_FAIL (R31). -/
def execClkFail (xoStopped : Bool) (s : State) : Out := runAon s (clkFailOp xoStopped)

/-- XO32_LOSS (R187). -/
def execXo32Loss (s : State) : Out := runAon s xoLoss

/-- PLL_UNLOCK (R31). -/
def execPllUnlock (s : State) : Out := runAon s pllUnlockOp

end Sys2Proof.Machine
end

