-- ==== Sys2Proof/Machine/Burner.lean ====
section
/-! DEFINITION. The meanings of burner control's commands (R71 to R83) and of the Whisk's (R126, R135). -/

namespace Sys2Proof.Machine

/-- BRN_START (R71). -/
def execBrnStart (acc : Fin 18) (b : Fin 16) (s : State) : Out := runCore s (brnStartOp acc b)

/-- BRN_STOP (R71). -/
def execBrnStop (acc : Fin 18) (b : Fin 16) (s : State) : Out := runCore s (brnStopOp acc b)

/-- BRN_PARK (R81). -/
def execBrnPark (acc : Fin 18) (b : Fin 16) (s : State) : Out := runCore s (brnParkOp acc b)

/-- BRN_RESUME (R71). -/
def execBrnResume (acc : Fin 18) (b : Fin 16) (s : State) : Out := runCore s (brnResumeOp acc b)

/-- BRN_GSTART (R83). -/
def execBrnGstart (acc : Fin 18) (set : BitVec 16) (s : State) : Out := runCore s (brnGstartOp acc set.toNat)

/-- BRN_GPARK (R83). -/
def execBrnGpark (acc : Fin 18) (set : BitVec 16) (s : State) : Out := runCore s (brnGparkOp acc set.toNat)

/-- PARKED (R81). -/
def execParked (b : Fin 16) (s : State) : Out := runCore s (boundary b)

/-- WAKE (R79). -/
def execWake (b : Fin 16) (s : State) : Out := runCore s (wakeOp b)

/-- WHISK_FIRE (R126). -/
def execWhiskFire (acc : Fin 18) (set : BitVec 64) (s : State) : Out := runCore s (whiskFireBits acc set.toNat)

/-- WHISK_CLRALL (R135). -/
def execWhiskClrall (acc : Fin 18) (s : State) : Out := runCore s (whiskClrAll acc)

end Sys2Proof.Machine
end

