-- ==== Sys2Proof/Machine/SweuneOps.lean ====
section
/-! DEFINITION. How a burner issues a word (spec/03_burners.md, spec/04_sweune_isa.md): arbitration's marks (R73, R74), the fetch
(R78, R84, R330), the order of checks (R98), data accesses through the windows (R76), and the parts that words share. -/

namespace Sys2Proof.Machine

/-! ### Issue -/

/-- Burner b can issue: it is in RUN, and neither a CSYNC nor a slice that an adverb of it waits for holds it (R72, R114, R116). -/
def State.issues (s : State) (b : Nat) : Bool := s.bstate b == stRun && (s.bx b).csync == none && !s.inAdverb b

/-- The order in which an arbitration searches the burners: level by level, each from its round-robin pointer on (R73). -/
def State.searchOrder (s : State) : List Nat :=
  (List.range 4).flatMap fun l =>
    ((List.range 16).map fun k => (s.rr.getD l 0 + k) % 16).filter fun b => s.rd (F.BRN_CFG_PRIO b) == l

/-- The burner that an arbitration among eligible burners lets issue: the first in the search order, but if its yield mark is set and
another is eligible, the second, the first being passed over (R73, R74). -/
def State.arbitrate (s : State) (eligible : Nat → Bool) : Option Nat :=
  match s.searchOrder.filter eligible with
  | [] => none
  | [b] => some b
  | b :: c :: _ => some (if (s.bx b).yield then c else b)

/-- The burner that is passed over where b issues: the first before it in the search order that can issue and has its yield mark set
(R73, R74; notes/assumptions/76.md). -/
def State.passed (s : State) (b : Nat) : Option Nat :=
  (s.searchOrder.takeWhile (· != b)).find? fun c => s.issues c && (s.bx c).yield

/-- A burner's yield mark takes a value. -/
def setYield (b : Nat) (v : Bool) (s : State) : State := s.modBx b fun x => { x with yield := v }

/-- The marks of an issue: the round-robin pointer of its level, its yield mark and that of a burner passed over, its count (R73,
R74). -/
def issueMark (b : Nat) (s : State) : State :=
  let s1 := (s.passed b).elim s fun c => setYield c false s
  (setYield b false { s1 with rr := setAt 0 s1.rr (s1.rd (F.BRN_CFG_PRIO b)) ((b + 1) % 16) }).incW (F.BRN_ISSUE b)

/-- The address of the word at PC, modulo 2^24 (R78). -/
def State.wordAddr (s : State) (b : Nat) : Nat := (s.rd (F.BRN_CBASE_BASE b) + 3 * s.pc b) % 2 ^ 24

/-- A byte address can be executed (R25, R461). -/
def State.execAt (s : State) (a : Nat) : Bool :=
  match region a with
  | .flash k => k != 2
  | .sram k => !bitOf (s.rd F.BIST_MEMRET_BANK) k
  | .rom => true
  | _ => false

/-- Two addresses lie in one memory region of R25. -/
def sameRegion (a c : Nat) : Bool :=
  match region a, region c with
  | .sram _, .sram _ => true
  | x, y => x == y

/-- Burner b's line buffer serves the word at PC: it holds the line, filled since the last program or erase began or ended, and the
controller could read the word (R78). -/
def State.lineServes (s : State) (b : Nat) : Bool :=
  match (s.bx b).line with
  | some l => l.tag == s.pc b / 8 && l.works == s.fl.works && !bitOf l.bad (s.pc b % 8)
  | none => false

/-- The line that PC lies in as a fill finds it: a word of it that the controller cannot read is not held (R78;
notes/assumptions/85.md). -/
def State.lineFill (s : State) (b : Nat) : LineBuf :=
  let lo := (s.rd (F.BRN_CBASE_BASE b) + 3 * (s.pc b / 8 * 8)) % 2 ^ 24
  let bad := (List.range 8).foldl (fun m i =>
    if (s.cellQual (lo + 3 * i)).unc || (s.cellQual (lo + 3 * i + 2)).unc then orBit m i else m) 0
  ⟨s.pc b / 8, bad, s.fl.works⟩

/-- The line buffer's part in a fetch from flash: on a miss the controller reads the word, and the buffer takes its line
(R78). -/
def fetchFlash (b a : Nat) (s : State) : Bool × State :=
  if s.lineServes b then (true, s)
  else
    match flCells a 3 s with
    | (.data _, s1) => (true, s1.modBx b fun x => { x with line := some ((flWaited a s).lineFill b) })
    | (.unc, s1) => (false, s1)

/-- The word at an address that the code window and the maps permit can be fetched (R78, R330). -/
def fetchAt (b a : Nat) (s : State) : Bool × State :=
  if !s.execAt a || !s.execAt (a + 2) || !sameRegion a (a + 2) then (false, s)
  else if a < 0x400000 then
    if s.xoFetch b a && s.xoFetch b (a + 2) then fetchFlash b a s else (false, s)
  else (true, segHold a 3 s)

/-- The fetch of the word w at PC: the exception it raises, if any (R78, R84, R87). -/
def fetchWord (b w : Nat) (s : State) : Option Exc × State :=
  let a := s.wordAddr b
  if s.rd (F.BRN_CLIM_LAST b) < s.pc b then (some { cause := 6, info := 0 }, s)
  else if s.closedTo b a || s.closedTo b (a + 2) then (some { cause := 5, addr := a, info := w }, s)
  else
    match fetchAt b a s with
    | (true, s1) => (none, s1)
    | (false, s1) => (some { cause := 6, addr := a, info := 0 }, s1)

/-- The checks of a fetched word of burner b and its operation (R98): an absent coprocessor, the encoding, then
what it does. -/
def wordRun (w : Nat) (cp : Option Nat) (legal : State → Bool) (op : State → WRes) (s : State) : WRes :=
  if cp.any s.absent then .exc { cause := 3, cp := cp.getD 0, info := w } s
  else if !legal s then .exc { cause := 1, info := w } s
  else op s

/-- Burner b issues the word w. -/
def issue (b w : Nat) (cp : Option Nat) (legal : State → Bool) (op : State → WRes) (s : State) : State :=
  if !s.issues b then s
  else
    match fetchWord b w (issueMark b (firstWord s)) with
    | (some e, s1) => wordEnd b (.exc e s1)
    | (none, s1) => wordEnd b (wordRun w cp legal op s1)

/-- Burner b issues a word that is no adverb and whose encoding alone decides whether it is legal. -/
def issueOp (b w : Nat) (legal : Bool) (op : State → State) (s : State) : State :=
  issue b w none (fun _ => legal) (fun s => .next (op s)) s

/-- Burner b issues a word that no operation of the chapter has: ILLEGAL, or ADVERB where it is an adverb to an absent coprocessor
(R97, R98, R113). -/
def issueUndefined (b w : Nat) (s : State) : State :=
  issue b w (if 28 ≤ bitsOf w 18 6 ∧ bitsOf w 18 6 < 32 then some (bitsOf w 15 3) else none) (fun _ => false) .next s

/-! ### Words from memory (R73, R78) -/

/-- The word that memory holds at burner b's PC, as its fetch finds it once it has waited for the array (R78, R308, R328). -/
def State.memWord (s : State) (b : Nat) : Nat :=
  let a := s.wordAddr b
  leNat (if a < 0x400000 then (List.range 3).map fun i => (flWaited a s).flByte (a + i) else s.ramBytes a 3)

/-- Burner b runs code that stands in the model's memory: all but the boot ROM, whose contents the spec does not give
(notes/assumptions/6.md). -/
def State.runsMemory (s : State) (b : Nat) : Bool := s.issues b && region (s.wordAddr b) != .rom

/-- The core cycles in one period of XK32, each of which issues one word at most (R73, R30). -/
def State.tickCycles (s : State) : Nat := (if s.on F.SYS_CLK_SRC then 96000000 else 48000000) / 32768

/-- The next word that the core issues of itself, from memory: the burner that the arbitration chooses, and its word; none while the core
does not run, or once the cycles of a tick are used up (R72, R73; notes/assumptions/76.md). -/
def State.ownWord (s : State) : Option (Nat × Nat) :=
  if s.coreUp && s.cyc < s.tickCycles then (s.arbitrate s.runsMemory).map fun b => (b, s.memWord b) else none

/-! ### Clauses (R99 to R101) -/

/-- What a half of a clause writes: a register, and flags. -/
structure HalfRes where
  reg : Option (Nat × Nat)
  fl : Option Flags
  deriving DecidableEq, Repr

/-- A half evaluated on the state before the word. -/
def halfEval (b : Nat) (h : ClauseHalf) (s : State) : HalfRes :=
  let d := h.d.toNat
  let x := s.breg b d
  let y := s.breg b h.s.toNat
  let f := s.flags b
  match h.op.toNat with
  | 0 => ⟨if d = h.s.toNat then none else some (d, y), none⟩
  | 1 => ⟨some (d, h.s.toNat), none⟩
  | 2 => ⟨some (d, addRes 8 x y 0), some (addFlags 8 x y 0 f)⟩
  | 3 => ⟨some (d, subRes 8 x y 0), some (subFlags 8 x y 0 f)⟩
  | 4 => ⟨some (d, x &&& y), some (flagsZN 8 (x &&& y) f)⟩
  | 5 => ⟨some (d, x ||| y), some (flagsZN 8 (x ||| y) f)⟩
  | 6 => ⟨some (d, x ^^^ y), some (flagsZN 8 (x ^^^ y) f)⟩
  | _ => ⟨none, some (subFlags 8 x y 0 f)⟩

/-- A half's result is written. -/
def halfWrite (b : Nat) (r : HalfRes) (s : State) : State :=
  let s1 := match r.reg with | some (d, v) => s.setBreg b d v | none => s
  match r.fl with | some f => s1.setFlags b f | none => s1

/-- Two halves write one register, or both write flags (R100). -/
def halvesClash (p q : HalfRes) : Bool :=
  (match p.reg, q.reg with | some x, some y => x.1 == y.1 | _, _ => false) || (p.fl.isSome && q.fl.isSome)

/-- A clause. -/
def clauseOp (b : Nat) (f : ClauseF) (s : State) : WRes :=
  let p := halfEval b f.h1 s
  let q := halfEval b f.h2 s
  if halvesClash p q then .exc { cause := 2, info := clauseWord f } s
  else
    let s1 := halfWrite b q (halfWrite b p s)
    .next (if f.hint = 1 then s1.modBx b fun x => { x with yield := true } else s1)

/-! ### Byte and pointer operations (R104 to R106) -/

/-- A byte operation on register d: the result, where one is written, and the flags. -/
def byteOp (b d : Nat) (r : Option Nat) (f : Flags) (s : State) : State :=
  let s1 := match r with | some v => s.setBreg b d v | none => s
  s1.setFlags b f

/-- A pointer operation on Pp. -/
def ptrOp (b p : Nat) (r : Option Nat) (f : Flags) (s : State) : State :=
  let s1 := match r with | some v => s.setPreg b p v | none => s
  s1.setFlags b f

/-- The carry flag as a number. -/
def State.carry (s : State) (b : Nat) : Nat := b2n (s.flags b).c

/-! ### Data accesses (R76, R107, R108) -/

/-- The physical address of a window address (R76). -/
def State.physAddr (s : State) (b a : Nat) : Nat := s.rd (F.BRN_W_BASE b (a / 2 ^ 14)) * 2 ^ 14 + a % 2 ^ 14

/-- The window of an address is enabled, and for a store writable. -/
def State.windowOk (s : State) (b a : Nat) (write : Bool) : Bool :=
  s.on (F.BRN_W_EN b (a / 2 ^ 14)) && (!write || s.on (F.BRN_W_WE b (a / 2 ^ 14)))

/-- The exception of a data access that ends so. -/
def dataExc (w a : Nat) (r : BusRes) : Exc :=
  { cause := if r = .security then 5 else 4, addr := a, info := w }

/-- A byte load of burner b at a window address; the word goes on with the byte. -/
def loadByte (b w a : Nat) (k : Nat → State → WRes) (s : State) : WRes :=
  let p := s.physAddr b a
  if !s.windowOk b a false then .exc (dataExc w p .bus) s
  else
    match busRead b p 1 s with
    | (.ok v, s1) => k v s1
    | (r, s1) => .exc (dataExc w p r) s1

/-- A byte store of burner b at a window address. -/
def storeByte (b w a v : Nat) (k : State → WRes) (s : State) : WRes :=
  let p := s.physAddr b a
  if !s.windowOk b a true then .exc (dataExc w p .bus) s
  else
    match busWrite b p 1 v s with
    | (.ok _, s1) => k s1
    | (r, s1) => .exc (dataExc w p r) s1

/-- The window address of an LDB or STB, and the pointer afterwards (R107). -/
def memAddr (f : MemF) (p : Nat) : Nat × Option Nat :=
  let moved := addP p (simm16 f.imm.toNat 9)
  match f.mode.toNat with
  | 0 => (moved, none)
  | 1 => (p, some moved)
  | _ => (moved, some moved)

/-- An LDB or STB is legal: a defined mode, and no load into the pointer it updates (R107). -/
def memLegal (load : Bool) (f : MemF) : Bool :=
  f.mode.toNat != 3 && !(load && f.mode.toNat != 0 && f.r.toNat / 2 == f.p.toNat)

/-- The pointer of an LDB or STB is updated; nothing follows a reset that the access itself caused. -/
def ptrMove (b p : Nat) (v : Option Nat) (s : State) : State :=
  match v with
  | some x => if s.boot.held then s else s.setPreg b p x
  | none => s

/-- A load. -/
def loadOp (b w : Nat) (f : MemF) (s : State) : WRes :=
  let m := memAddr f (s.preg b f.p.toNat)
  loadByte b w m.1 (fun v s => .next (ptrMove b f.p.toNat m.2 (s.setBreg b f.r.toNat v))) s

/-- A store. -/
def storeOp (b w : Nat) (f : MemF) (s : State) : WRes :=
  let m := memAddr f (s.preg b f.p.toNat)
  storeByte b w m.1 (s.breg b f.r.toNat) (fun s => .next (ptrMove b f.p.toNat m.2 s)) s

/-- An ATOM: one read and one write of a byte, permitted where both are; `put` gives the byte to write, none where the compare
of CAS fails, and `fin` what the word then does with the old byte (R108). -/
def atomOp (b w a : Nat) (would : Nat → Nat) (put : Nat → Option Nat) (fin : Nat → State → State) (s : State) : WRes :=
  let p := s.physAddr b a
  if !s.windowOk b a true then .exc (dataExc w p .bus) s
  else
    match s.verdict b p 1 true 0x02 with
    | .bus => .exc (dataExc w p .bus) s
    | _ =>
      match busRead b p 1 s with
      | (.ok m, s1) =>
        match s.verdict b p 1 true (would m) with
        | .ok =>
          let s2 := match put m with
            | some v => writeAt b (ownAddr b p) 1 v s1
            | none => s1
          .next (if s2.boot.held then s2 else fin m s2)
        | .security => .exc (dataExc w p .security) s
        | .bus => .exc (dataExc w p .bus) s
      | (r, s1) => .exc (dataExc w p r) s1

/-! ### Transfers and waits (R79, R109 to R111) -/

/-- CALL and CALLR: P6 takes the return address, PC the target (R110). -/
def callTo (b tgt : Nat) (s : State) : WRes :=
  .here ((s.setPreg b 6 (s.pc b + 1)).setPc b tgt)

/-- A taken transfer. -/
def jumpTo (b tgt : Nat) (s : State) : WRes := .here (s.setPc b tgt)

/-- WAIT c and SLEEP c (R79). -/
def waitOn (b st c : Nat) (s : State) : WRes :=
  if bitOf (s.rd (F.BRN_WPEND_PEND b)) c then .next (s.clrBit (F.BRN_WPEND_PEND b) c)
  else .here ((s.setBstate b st).modBx b fun x => { x with await := c })

/-- The any forms (R79). -/
def waitAny (b st : Nat) (s : State) : WRes :=
  if s.rd (F.BRN_WPEND_PEND b) != 0 then .next s
  else .here ((s.setBstate b st).modBx b fun x => { x with await := 64 })

/-- The values RDS reads (R111, R113). -/
def State.rdsVal (s : State) (b k : Nat) : Nat :=
  match k with
  | 0 => 0x10
  | 1 => s.cpresent
  | 2 => b
  | _ => b2n (s.brnSecure b)

/-! ### Adverbs (R112 to R120) -/

/-- Burner b issues an adverb. -/
def adverbIssue (b : Nat) (a : Adverb) (s : State) : State :=
  issue b a.word (some a.cp) (fun s => a.legal s b) (adverbOp b a) s

end Sys2Proof.Machine
end

