-- ==== Sys2Proof/Machine/Sweune.lean ====
section
/-! DEFINITION. The meanings of the Sweune's words (spec/04_sweune_isa.md): each command is the issue of one word by a burner, with
the fields of the word (R95, R103). -/

namespace Sys2Proof.Machine

/-- CLAUSE (R99, R100). -/
def execClause (b : Fin 16) (f : ClauseF) (s : State) : Out :=
  runCore s (issue b (clauseWord f) none (fun _ => true) (clauseOp b f))

/-! ### ALU2 (R105) -/

/-- An ALU2 word: its function, what fields it uses, and what it does with d and s. -/
def alu2Run (fn : Nat) (legal : Alu2 → Bool) (op : Nat → Nat → Nat → State → State) (b : Fin 16) (f : Alu2) (s : State) : Out :=
  runCore s (issueOp b (alu2Word fn f) (f.rsv == 0 && legal f) (op b f.d.toNat f.s.toNat))

/-- Both registers are used. -/
def usesDS (_ : Alu2) : Bool := true
/-- s is not used (R97). -/
def usesD (f : Alu2) : Bool := f.s == 0
/-- s is a bit number from 0 to 7. -/
def usesBit (f : Alu2) : Bool := f.s.toNat < 8
/-- d names a pointer. -/
def usesPS (f : Alu2) : Bool := f.d.toNat < 8
/-- d and s name pointers. -/
def usesPP (f : Alu2) : Bool := f.d.toNat < 8 && f.s.toNat < 8

/-- d := d + s + C. -/
def opAdc (b d s_ : Nat) (s : State) : State :=
  let x := s.breg b d
  let y := s.breg b s_
  byteOp b d (some (addRes 8 x y (s.carry b))) (chainZ (s.flags b) (addFlags 8 x y (s.carry b) (s.flags b))) s
/-- ADC (R105). -/
def execAdc (b : Fin 16) (f : Alu2) (s : State) : Out := alu2Run 0x00 usesDS opAdc b f s

/-- d := d − s − C. -/
def opSbc (b d s_ : Nat) (s : State) : State :=
  let x := s.breg b d
  let y := s.breg b s_
  byteOp b d (some (subRes 8 x y (s.carry b))) (chainZ (s.flags b) (subFlags 8 x y (s.carry b) (s.flags b))) s
/-- SBC (R105). -/
def execSbc (b : Fin 16) (f : Alu2) (s : State) : Out := alu2Run 0x01 usesDS opSbc b f s

/-- Forms d − s − C. -/
def opCmpc (b d s_ : Nat) (s : State) : State :=
  let x := s.breg b d
  let y := s.breg b s_
  byteOp b d none (chainZ (s.flags b) (subFlags 8 x y (s.carry b) (s.flags b))) s
/-- CMPC (R105). -/
def execCmpc (b : Fin 16) (f : Alu2) (s : State) : Out := alu2Run 0x02 usesDS opCmpc b f s

/-- d := not d. -/
def opNot (b d _ : Nat) (s : State) : State :=
  let r := 255 - s.breg b d
  byteOp b d (some r) (flagsZN 8 r (s.flags b)) s
/-- NOT (R105). -/
def execNot (b : Fin 16) (f : Alu2) (s : State) : Out := alu2Run 0x03 usesD opNot b f s

/-- d := 0 − d. -/
def opNeg (b d _ : Nat) (s : State) : State :=
  let x := s.breg b d
  byteOp b d (some (subRes 8 0 x 0)) (subFlags 8 0 x 0 (s.flags b)) s
/-- NEG (R105). -/
def execNeg (b : Fin 16) (f : Alu2) (s : State) : Out := alu2Run 0x04 usesD opNeg b f s

/-- d := d + 1, C kept. -/
def opInc (b d _ : Nat) (s : State) : State :=
  let x := s.breg b d
  byteOp b d (some (addRes 8 x 1 0)) { addFlags 8 x 1 0 (s.flags b) with c := (s.flags b).c } s
/-- INC (R105). -/
def execInc (b : Fin 16) (f : Alu2) (s : State) : Out := alu2Run 0x05 usesD opInc b f s

/-- d := d − 1, C kept. -/
def opDec (b d _ : Nat) (s : State) : State :=
  let x := s.breg b d
  byteOp b d (some (subRes 8 x 1 0)) { subFlags 8 x 1 0 (s.flags b) with c := (s.flags b).c } s
/-- DEC (R105). -/
def execDec (b : Fin 16) (f : Alu2) (s : State) : Out := alu2Run 0x06 usesD opDec b f s

/-- d := d << 1, C the bit shifted out. -/
def opShl (b d _ : Nat) (s : State) : State :=
  let x := s.breg b d
  let r := 2 * x % 256
  byteOp b d (some r) { flagsZN 8 r (s.flags b) with c := bitOf x 7 } s
/-- SHL (R105). -/
def execShl (b : Fin 16) (f : Alu2) (s : State) : Out := alu2Run 0x07 usesD opShl b f s

/-- d := d >> 1, C the bit shifted out. -/
def opShr (b d _ : Nat) (s : State) : State :=
  let x := s.breg b d
  let r := x / 2
  byteOp b d (some r) { flagsZN 8 r (s.flags b) with c := bitOf x 0 } s
/-- SHR (R105). -/
def execShr (b : Fin 16) (f : Alu2) (s : State) : Out := alu2Run 0x08 usesD opShr b f s

/-- d := d >> 1 with bit 7 kept. -/
def opAsr (b d _ : Nat) (s : State) : State :=
  let x := s.breg b d
  let r := x / 2 + (if bitOf x 7 then 128 else 0)
  byteOp b d (some r) { flagsZN 8 r (s.flags b) with c := bitOf x 0 } s
/-- ASR (R105). -/
def execAsr (b : Fin 16) (f : Alu2) (s : State) : Out := alu2Run 0x09 usesD opAsr b f s

/-- d := (d << 1) or C. -/
def opRol (b d _ : Nat) (s : State) : State :=
  let x := s.breg b d
  let r := 2 * x % 256 + s.carry b
  byteOp b d (some r) { flagsZN 8 r (s.flags b) with c := bitOf x 7 } s
/-- ROL (R105). -/
def execRol (b : Fin 16) (f : Alu2) (s : State) : Out := alu2Run 0x0A usesD opRol b f s

/-- d := (C << 7) or (d >> 1). -/
def opRor (b d _ : Nat) (s : State) : State :=
  let x := s.breg b d
  let r := x / 2 + 128 * s.carry b
  byteOp b d (some r) { flagsZN 8 r (s.flags b) with c := bitOf x 0 } s
/-- ROR (R105). -/
def execRor (b : Fin 16) (f : Alu2) (s : State) : Out := alu2Run 0x0B usesD opRor b f s

/-- The nibbles of d exchange. -/
def opSwapn (b d _ : Nat) (s : State) : State :=
  let x := s.breg b d
  let r := x % 16 * 16 + x / 16
  byteOp b d (some r) (flagsZN 8 r (s.flags b)) s
/-- SWAPN (R105). -/
def execSwapn (b : Fin 16) (f : Alu2) (s : State) : Out := alu2Run 0x0C usesD opSwapn b f s

/-- T := d[b]. -/
def opBtst (b d s_ : Nat) (s : State) : State :=
  s.setT b (bitOf (s.breg b d) s_)
/-- BTST (R105). -/
def execBtst (b : Fin 16) (f : Alu2) (s : State) : Out := alu2Run 0x0D usesBit opBtst b f s

/-- d[b] := 1. -/
def opBset (b d s_ : Nat) (s : State) : State :=
  s.setBreg b d (orBit (s.breg b d) s_)
/-- BSET (R105). -/
def execBset (b : Fin 16) (f : Alu2) (s : State) : Out := alu2Run 0x0E usesBit opBset b f s

/-- d[b] := 0. -/
def opBclr (b d s_ : Nat) (s : State) : State :=
  s.setBreg b d (clearMask (s.breg b d) (2 ^ s_))
/-- BCLR (R105). -/
def execBclr (b : Fin 16) (f : Alu2) (s : State) : Out := alu2Run 0x0F usesBit opBclr b f s

/-- Pd := B(2d) × s. -/
def opMulu (b d s_ : Nat) (s : State) : State :=
  let r := s.breg b (2 * d) * s.breg b s_
  ptrOp b d (some r) (flagsZN 16 r (s.flags b)) s
/-- MULU (R105). -/
def execMulu (b : Fin 16) (f : Alu2) (s : State) : Out := alu2Run 0x10 usesPS opMulu b f s

/-- Pd := Ps. -/
def opMovp (b d s_ : Nat) (s : State) : State :=
  s.setPreg b d (s.preg b s_)
/-- MOVP (R105). -/
def execMovp (b : Fin 16) (f : Alu2) (s : State) : Out := alu2Run 0x11 usesPP opMovp b f s

/-- Pd := Pd + Ps. -/
def opAddp (b d s_ : Nat) (s : State) : State :=
  let x := s.preg b d
  let y := s.preg b s_
  ptrOp b d (some (addRes 16 x y 0)) (addFlags 16 x y 0 (s.flags b)) s
/-- ADDP (R105). -/
def execAddp (b : Fin 16) (f : Alu2) (s : State) : Out := alu2Run 0x12 usesPP opAddp b f s

/-- Pd := Pd − Ps. -/
def opSubp (b d s_ : Nat) (s : State) : State :=
  let x := s.preg b d
  let y := s.preg b s_
  ptrOp b d (some (subRes 16 x y 0)) (subFlags 16 x y 0 (s.flags b)) s
/-- SUBP (R105). -/
def execSubp (b : Fin 16) (f : Alu2) (s : State) : Out := alu2Run 0x13 usesPP opSubp b f s

/-- Forms Pd − Ps. -/
def opCmpp (b d s_ : Nat) (s : State) : State :=
  let x := s.preg b d
  let y := s.preg b s_
  ptrOp b d none (subFlags 16 x y 0 (s.flags b)) s
/-- CMPP (R105). -/
def execCmpp (b : Fin 16) (f : Alu2) (s : State) : Out := alu2Run 0x14 usesPP opCmpp b f s

/-- Flags from d. -/
def opTst (b d _ : Nat) (s : State) : State :=
  let x := s.breg b d
  byteOp b d none (flagsZN 8 x (s.flags b)) s
/-- TST (R105). -/
def execTst (b : Fin 16) (f : Alu2) (s : State) : Out := alu2Run 0x15 usesD opTst b f s

/-! ### LDP, ADDPI, ALUI (R104, R106) -/

/-- LDP (R106). -/
def execLdp (b : Fin 16) (f : LdpF) (s : State) : Out :=
  runCore s (issueOp b (ldpWord f) true fun s => s.setPreg b f.p.toNat f.imm.toNat)

/-- The sum of a pointer and a signed 12-bit immediate. -/
def addpiOp (b : Nat) (f : AddpF) (fl : Bool) (s : State) : State :=
  let x := s.preg b f.p.toNat
  let y := simm16 f.imm.toNat 12
  ptrOp b f.p.toNat (some (addRes 16 x y 0)) (if fl then addFlags 16 x y 0 (s.flags b) else s.flags b) s

/-- The difference of a pointer and a signed 12-bit immediate, compared. -/
def cmppiOp (b : Nat) (f : AddpF) (s : State) : State :=
  ptrOp b f.p.toNat none (subFlags 16 (s.preg b f.p.toNat) (simm16 f.imm.toNat 12) 0 (s.flags b)) s

/-- ADDPI (R106). -/
def execAddpi (b : Fin 16) (f : AddpF) (s : State) : Out :=
  runCore s (issueOp b (addpWord 0 f) (f.rsv == 0) (addpiOp b f false))

/-- ADDPIF (R106). -/
def execAddpif (b : Fin 16) (f : AddpF) (s : State) : Out :=
  runCore s (issueOp b (addpWord 1 f) (f.rsv == 0) (addpiOp b f true))

/-- CMPPI (R106). -/
def execCmppi (b : Fin 16) (f : AddpF) (s : State) : Out :=
  runCore s (issueOp b (addpWord 2 f) (f.rsv == 0) (cmppiOp b f))

/-- An ALUI word: its function, and what it does with d and imm8. -/
def aluIRun (fn : Nat) (op : Nat → Nat → Nat → State → State) (b : Fin 16) (f : AluI) (s : State) : Out :=
  runCore s (issueOp b (aluIWord fn f) (f.rsv == 0) (op b f.d.toNat f.imm.toNat))

/-- d := imm8. -/
def opMovi (b d i : Nat) (s : State) : State :=
  s.setBreg b d i
/-- MOVI (R104). -/
def execMovi (b : Fin 16) (f : AluI) (s : State) : Out := aluIRun 0 opMovi b f s

/-- d := d + imm8. -/
def opAddi (b d i : Nat) (s : State) : State :=
  let x := s.breg b d
  byteOp b d (some (addRes 8 x i 0)) (addFlags 8 x i 0 (s.flags b)) s
/-- ADDI (R104). -/
def execAddi (b : Fin 16) (f : AluI) (s : State) : Out := aluIRun 1 opAddi b f s

/-- d := d − imm8. -/
def opSubi (b d i : Nat) (s : State) : State :=
  let x := s.breg b d
  byteOp b d (some (subRes 8 x i 0)) (subFlags 8 x i 0 (s.flags b)) s
/-- SUBI (R104). -/
def execSubi (b : Fin 16) (f : AluI) (s : State) : Out := aluIRun 2 opSubi b f s

/-- d := d and imm8. -/
def opAndi (b d i : Nat) (s : State) : State :=
  let r := s.breg b d &&& i
  byteOp b d (some r) (flagsZN 8 r (s.flags b)) s
/-- ANDI (R104). -/
def execAndi (b : Fin 16) (f : AluI) (s : State) : Out := aluIRun 3 opAndi b f s

/-- d := d or imm8. -/
def opOri (b d i : Nat) (s : State) : State :=
  let r := s.breg b d ||| i
  byteOp b d (some r) (flagsZN 8 r (s.flags b)) s
/-- ORI (R104). -/
def execOri (b : Fin 16) (f : AluI) (s : State) : Out := aluIRun 4 opOri b f s

/-- d := d xor imm8. -/
def opXori (b d i : Nat) (s : State) : State :=
  let r := s.breg b d ^^^ i
  byteOp b d (some r) (flagsZN 8 r (s.flags b)) s
/-- XORI (R104). -/
def execXori (b : Fin 16) (f : AluI) (s : State) : Out := aluIRun 5 opXori b f s

/-- Forms d − imm8. -/
def opCmpi (b d i : Nat) (s : State) : State :=
  let x := s.breg b d
  byteOp b d none (subFlags 8 x i 0 (s.flags b)) s
/-- CMPI (R104). -/
def execCmpi (b : Fin 16) (f : AluI) (s : State) : Out := aluIRun 6 opCmpi b f s

/-- d := d + imm8 + C. -/
def opAdci (b d i : Nat) (s : State) : State :=
  let x := s.breg b d
  byteOp b d (some (addRes 8 x i (s.carry b))) (addFlags 8 x i (s.carry b) (s.flags b)) s
/-- ADCI (R104). -/
def execAdci (b : Fin 16) (f : AluI) (s : State) : Out := aluIRun 7 opAdci b f s

/-! ### Loads, stores and ATOM (R107, R108) -/

/-- LDB (R107). -/
def execLdb (b : Fin 16) (f : MemF) (s : State) : Out :=
  runCore s (issue b (memWord 6 f) none (fun _ => memLegal true f) (loadOp b (memWord 6 f) f))

/-- STB (R107). -/
def execStb (b : Fin 16) (f : MemF) (s : State) : Out :=
  runCore s (issue b (memWord 7 f) none (fun _ => memLegal false f) (storeOp b (memWord 7 f) f))

/-- XCHG (R108). -/
def execXchg (b : Fin 16) (f : AtomF) (s : State) : Out :=
  let w := atomWord 0 f
  let d := f.d.toNat
  runCore s (issue b w none (fun _ => f.rsv == 0 && f.s == 0 && f.bit == 0) fun s =>
    atomOp b w (s.preg b f.p.toNat) (fun _ => s.breg b d) (fun _ => some (s.breg b d)) (fun m s => s.setBreg b d m) s)

/-- CAS (R108). -/
def execCas (b : Fin 16) (f : AtomF) (s : State) : Out :=
  let w := atomWord 1 f
  let d := f.d.toNat
  runCore s (issue b w none (fun _ => f.rsv == 0 && f.bit == 0) fun s =>
    let x := s.breg b d
    let y := s.breg b f.s.toNat
    atomOp b w (s.preg b f.p.toNat) (fun _ => y) (fun m => if m = x then some y else none)
      (fun m s => if m = x then s.setT b true else (s.setBreg b d m).setT b false) s)

/-- LDADD (R108). -/
def execLdadd (b : Fin 16) (f : AtomF) (s : State) : Out :=
  let w := atomWord 2 f
  let d := f.d.toNat
  runCore s (issue b w none (fun _ => f.rsv == 0 && f.s == 0 && f.bit == 0) fun s =>
    let x := s.breg b d
    atomOp b w (s.preg b f.p.toNat) (fun m => addRes 8 m x 0) (fun m => some (addRes 8 m x 0))
      (fun m s => byteOp b d (some m) (addFlags 8 m x 0 (s.flags b)) s) s)

/-- TSET (R108). -/
def execTset (b : Fin 16) (f : AtomF) (s : State) : Out :=
  let w := atomWord 3 f
  let k := f.bit.toNat
  runCore s (issue b w none (fun _ => f.rsv == 0 && f.d == 0 && f.s == 0) fun s =>
    atomOp b w (s.preg b f.p.toNat) (fun m => orBit m k) (fun m => some (orBit m k)) (fun m s => s.setT b (bitOf m k)) s)

/-- TCLR (R108). -/
def execTclr (b : Fin 16) (f : AtomF) (s : State) : Out :=
  let w := atomWord 4 f
  let k := f.bit.toNat
  runCore s (issue b w none (fun _ => f.rsv == 0 && f.d == 0 && f.s == 0) fun s =>
    atomOp b w (s.preg b f.p.toNat) (fun m => clearMask m (2 ^ k)) (fun m => some (clearMask m (2 ^ k)))
      (fun m s => s.setT b (bitOf m k)) s)

/-! ### Transfers (R109, R110) -/

/-- BR (R109). -/
def execBr (b : Fin 16) (f : BrF) (s : State) : Out :=
  runCore s (issue b (brWord f) none (fun _ => true) fun s =>
    if condHolds f.cond.toNat (s.flags b) then jumpTo b (s.pc b + 1 + simm16 f.off.toNat 14) s else .next s)

/-- JMP (R110). -/
def execJmp (b : Fin 16) (f : JmpF) (s : State) : Out :=
  runCore s (issue b (jmpWord 10 f) none (fun _ => f.rsv == 0) (jumpTo b f.tgt.toNat))

/-- CALL (R110). -/
def execCall (b : Fin 16) (f : JmpF) (s : State) : Out :=
  runCore s (issue b (jmpWord 11 f) none (fun _ => f.rsv == 0) (callTo b f.tgt.toNat))

/-! ### SYS (R111) -/

/-- A SYS word: its function, whether its operands are legal, and what it does. -/
def sysRun (fn : Nat) (legal : Nat → State → Bool) (op : Nat → Nat → State → WRes) (b : Fin 16) (opd : BitVec 12) (s : State) :
    Out :=
  runCore s (issue b (sysWord fn opd.toNat) none (legal opd.toNat) (op b opd.toNat))

/-- No operand is used (R97). -/
def noOpd (opd : Nat) (_ : State) : Bool := opd == 0

/-- NOP (R111). -/
def execNop (b : Fin 16) (opd : BitVec 12) (s : State) : Out := sysRun 0 noOpd (fun _ _ s => .next s) b opd s

/-- YIELD (R74, R111). -/
def execYield (b : Fin 16) (opd : BitVec 12) (s : State) : Out :=
  sysRun 1 noOpd (fun b _ s => .next (s.modBx b fun x => { x with yield := true })) b opd s

/-- WAIT (R79). -/
def execWait (b : Fin 16) (opd : BitVec 12) (s : State) : Out :=
  sysRun 2 (fun o _ => o < 64) (fun b o s => waitOn b stWait o s) b opd s

/-- WAITA (R79). -/
def execWaita (b : Fin 16) (opd : BitVec 12) (s : State) : Out := sysRun 3 noOpd (fun b _ s => waitAny b stWait s) b opd s

/-- SLEEP (R79, R80). -/
def execSleep (b : Fin 16) (opd : BitVec 12) (s : State) : Out :=
  sysRun 4 (fun o _ => o < 64) (fun b o s => waitOn b stSleep o s) b opd s

/-- SLEEPA (R80). -/
def execSleepa (b : Fin 16) (opd : BitVec 12) (s : State) : Out := sysRun 5 noOpd (fun b _ s => waitAny b stSleep s) b opd s

/-- SIG (R111). -/
def execSig (b : Fin 16) (opd : BitVec 12) (s : State) : Out :=
  sysRun 6 noOpd (fun b _ s => .next (fire (16 + b) (s.set1 (F.BRN_STAT_SIGF b)))) b opd s

/-- BRK: BREAK, its code in EINFO (R87, R111). -/
def execBrk (b : Fin 16) (opd : BitVec 12) (s : State) : Out :=
  sysRun 7 (fun _ _ => true) (fun _ o s => .exc { cause := 7, info := sysWord 7 o } s) b opd s

/-- ERET: illegal with EXC = 0 (R88, R111). -/
def execEret (b : Fin 16) (opd : BitVec 12) (s : State) : Out :=
  sysRun 8 (fun o s => o == 0 && s.on (F.BRN_STAT_EXC b)) (fun b _ s => .here (excReturn b s)) b opd s

/-- JR (R110). -/
def execJr (b : Fin 16) (opd : BitVec 12) (s : State) : Out :=
  sysRun 9 (fun o _ => o < 8) (fun b o s => jumpTo b (s.preg b o) s) b opd s

/-- CALLR (R110). -/
def execCallr (b : Fin 16) (opd : BitVec 12) (s : State) : Out :=
  sysRun 10 (fun o _ => o < 8) (fun b o s => callTo b (s.preg b o) s) b opd s

/-- RDS (R111, R113). -/
def execRds (b : Fin 16) (opd : BitVec 12) (s : State) : Out :=
  sysRun 11 (fun o _ => o / 256 == 0 && o % 16 < 4) (fun b o s => .next (s.setBreg b (o / 16) (s.rdsVal b (o % 16)))) b opd s

/-- MOVF (R111). -/
def execMovf (b : Fin 16) (opd : BitVec 12) (s : State) : Out :=
  sysRun 12 (fun o _ => o / 256 == 0 && o % 16 == 0) (fun b o s => .next (s.setBreg b (o / 16) (s.flags b).toNat)) b opd s

/-- SETF (R111). -/
def execSetf (b : Fin 16) (opd : BitVec 12) (s : State) : Out :=
  sysRun 13 (fun o _ => o < 16) (fun b o s => .next (s.setFlags b (.ofNat (s.breg b o)))) b opd s

/-- SETT (R109, R111). -/
def execSett (b : Fin 16) (opd : BitVec 12) (s : State) : Out :=
  sysRun 14 (fun o _ => o < 16) (fun b o s => .next (s.setT b (condHolds o (s.flags b)))) b opd s

/-! ### Adverbs (R112 to R120) -/

/-- CRD (R112). -/
def execCrd (b : Fin 16) (f : CrF) (s : State) : Out := runCore s (adverbIssue b (.crd f))

/-- CWR (R112). -/
def execCwr (b : Fin 16) (f : CrF) (s : State) : Out := runCore s (adverbIssue b (.cwr f))

/-- CSYNC (R116). -/
def execCsync (b : Fin 16) (f : CsyncF) (s : State) : Out :=
  runCore s (adverbIssue b (.csync f))

/-- C0_CLR (R117). -/
def execC0Clr (b : Fin 16) (opd : BitVec 10) (s : State) : Out := runCore s (adverbIssue b (.cx 0 0 opd.toNat))

/-- C0_MUL (R117). -/
def execC0Mul (b : Fin 16) (opd : BitVec 10) (s : State) : Out := runCore s (adverbIssue b (.cx 0 1 opd.toNat))

/-- C0_MAC (R117). -/
def execC0Mac (b : Fin 16) (opd : BitVec 10) (s : State) : Out := runCore s (adverbIssue b (.cx 0 2 opd.toNat))

/-- C0_MSU (R117). -/
def execC0Msu (b : Fin 16) (opd : BitVec 10) (s : State) : Out := runCore s (adverbIssue b (.cx 0 3 opd.toNat))

/-- C0_MULU (R117). -/
def execC0Mulu (b : Fin 16) (opd : BitVec 10) (s : State) : Out := runCore s (adverbIssue b (.cx 0 4 opd.toNat))

/-- C0_MACU (R117). -/
def execC0Macu (b : Fin 16) (opd : BitVec 10) (s : State) : Out := runCore s (adverbIssue b (.cx 0 5 opd.toNat))

/-- C0_SHRA: a distance from 40 to 63 is illegal, and so are the operand bits above (R97, R117). -/
def execC0Shra (b : Fin 16) (opd : BitVec 10) (s : State) : Out :=
  runCore s (adverbIssue b (.cx 0 6 opd.toNat))

/-- C0_SATA (R117). -/
def execC0Sata (b : Fin 16) (opd : BitVec 10) (s : State) : Out := runCore s (adverbIssue b (.cx 0 7 opd.toNat))

/-- C1_CRCINIT (R118). -/
def execC1Crcinit (b : Fin 16) (opd : BitVec 10) (s : State) : Out := runCore s (adverbIssue b (.cx 1 0 opd.toNat))

/-- C1_CRCFIN (R118). -/
def execC1Crcfin (b : Fin 16) (opd : BitVec 10) (s : State) : Out := runCore s (adverbIssue b (.cx 1 1 opd.toNat))

/-- C1_BREV (R118). -/
def execC1Brev (b : Fin 16) (opd : BitVec 10) (s : State) : Out := runCore s (adverbIssue b (.cx 1 4 opd.toNat))

/-- C1_POPC (R118). -/
def execC1Popc (b : Fin 16) (opd : BitVec 10) (s : State) : Out := runCore s (adverbIssue b (.cx 1 5 opd.toNat))

/-- C1_BFX (R118). -/
def execC1Bfx (b : Fin 16) (opd : BitVec 10) (s : State) : Out := runCore s (adverbIssue b (.cx 1 2 opd.toNat))

/-- C1_BFI (R118). -/
def execC1Bfi (b : Fin 16) (opd : BitVec 10) (s : State) : Out := runCore s (adverbIssue b (.cx 1 3 opd.toNat))

/-- C1_FEED: a CWR to FEED (R118). -/
def execC1Feed (b : Fin 16) (r : BitVec 4) (s : State) : Out := runCore s (adverbIssue b (.cwr ⟨1, r, 5⟩))

/-- C3_MADD (R120). -/
def execC3Madd (b : Fin 16) (f : C3F) (s : State) : Out := runCore s (adverbIssue b (.big 0 f))

/-- C3_MSUB (R120). -/
def execC3Msub (b : Fin 16) (f : C3F) (s : State) : Out := runCore s (adverbIssue b (.big 1 f))

/-- C3_MMUL (R120). -/
def execC3Mmul (b : Fin 16) (f : C3F) (s : State) : Out := runCore s (adverbIssue b (.big 2 f))

/-- C3_MINV (R120). -/
def execC3Minv (b : Fin 16) (f : C3F) (s : State) : Out := runCore s (adverbIssue b (.big 3 f))

/-- C3_PMUL (R120). -/
def execC3Pmul (b : Fin 16) (f : C3F) (s : State) : Out := runCore s (adverbIssue b (.big 4 f))

/-- C3_PMUL2 (R120). -/
def execC3Pmul2 (b : Fin 16) (f : C3F) (s : State) : Out := runCore s (adverbIssue b (.big 5 f))

/-- C3_MRED (R120). -/
def execC3Mred (b : Fin 16) (f : C3F) (s : State) : Out := runCore s (adverbIssue b (.big 6 f))

/-- C3_DONE (R120). -/
def execC3Done (s : State) : Out := runCore s c3Ends

end Sys2Proof.Machine
end

