-- ==== Sys2Proof/Machine/Cipher.lean ====
section
/-! DEFINITION. The meanings of the cipher coprocessor's commands, which a burner starts with a CX to C2 (R119, R303 to R318), and of
what ends them; and of the Larder's alarm (R316). -/

namespace Sys2Proof.Machine

/-- CIPH_CTR (R305). -/
def execCiphCtr (b : Fin 16) (opd : BitVec 10) (s : State) : Out := runCore s (adverbIssue b (.cx 2 0 opd.toNat))

/-- CIPH_CCMENC (R305). -/
def execCiphCcmenc (b : Fin 16) (opd : BitVec 10) (s : State) : Out := runCore s (adverbIssue b (.cx 2 1 opd.toNat))

/-- CIPH_CCMDEC (R308). -/
def execCiphCcmdec (b : Fin 16) (opd : BitVec 10) (s : State) : Out := runCore s (adverbIssue b (.cx 2 2 opd.toNat))

/-- CIPH_CMACGEN (R305). -/
def execCiphCmacgen (b : Fin 16) (opd : BitVec 10) (s : State) : Out := runCore s (adverbIssue b (.cx 2 3 opd.toNat))

/-- CIPH_CMACVER (R305). -/
def execCiphCmacver (b : Fin 16) (opd : BitVec 10) (s : State) : Out := runCore s (adverbIssue b (.cx 2 4 opd.toNat))

/-- CIPH_CBCMAC (R305). -/
def execCiphCbcmac (b : Fin 16) (opd : BitVec 10) (s : State) : Out := runCore s (adverbIssue b (.cx 2 5 opd.toNat))

/-- CIPH_IMPORT (R312). -/
def execCiphImport (b : Fin 16) (opd : BitVec 10) (s : State) : Out := runCore s (adverbIssue b (.cx 2 6 opd.toNat))

/-- CIPH_GEN (R313). -/
def execCiphGen (b : Fin 16) (opd : BitVec 10) (s : State) : Out := runCore s (adverbIssue b (.cx 2 7 opd.toNat))

/-- CIPH_PERSIST (R314). -/
def execCiphPersist (b : Fin 16) (opd : BitVec 10) (s : State) : Out := runCore s (adverbIssue b (.cx 2 8 opd.toNat))

/-- CIPH_ERASE (R305). -/
def execCiphErase (b : Fin 16) (opd : BitVec 10) (s : State) : Out := runCore s (adverbIssue b (.cx 2 9 opd.toNat))

/-- CIPH_NARROW (R311). -/
def execCiphNarrow (b : Fin 16) (opd : BitVec 10) (s : State) : Out := runCore s (adverbIssue b (.cx 2 10 opd.toNat))

/-- CIPH_SETK0 (R318). -/
def execCiphSetk0 (b : Fin 16) (opd : BitVec 10) (s : State) : Out := runCore s (adverbIssue b (.cx 2 11 opd.toNat))

/-- CIPH_SETK1 (R318). -/
def execCiphSetk1 (b : Fin 16) (opd : BitVec 10) (s : State) : Out := runCore s (adverbIssue b (.cx 2 12 opd.toNat))

/-- CIPH_RETIRE (R318). -/
def execCiphRetire (b : Fin 16) (opd : BitVec 10) (s : State) : Out := runCore s (adverbIssue b (.cx 2 13 opd.toNat))

/-- CIPH_DONE (R306): the C2 operation in progress ends. -/
def execCiphDone (s : State) : Out := runCore s c2Done

/-- LARDER_ALARM (R316): an alarm cause comes. -/
def execLarderAlarm (cause : Fin 7) (s : State) : Out := runAon s (raiseAlarm cause)

/-- LAR_ERASED (R316): the erasure of the records ends. -/
def execLarErased (s : State) : Out := runAon s Machine.larErased

end Sys2Proof.Machine
end

