-- ==== Sys2Proof/Machine/Column.lean ====
section
/-! DEFINITION. The meanings of the column ports' commands (spec/08). -/

namespace Sys2Proof.Machine

/-- What port p does; a link that goes down cuts short what it sends (R210). -/
def cpRun (p : Nat) (f : State → State) (s : State) : State := columnCut p (f s)

/-- CP_ENABLE (R218). -/
def execCpEnable (p : Fin 2) (s : State) : Out := runCore s (cpRun p (cpEnableOp p))

/-- TRAIN_START (R218). -/
def execTrainStart (p : Fin 2) (s : State) : Out := runCore s (cpRun p (Machine.trainStart p))

/-- INFO_BLOCK_RX (R213). -/
def execInfoBlockRx (p : Fin 2) (blk : LineBlock) (s : State) : Out := runCore s (cpRun p (lineRx p blk))

/-- TRAIN_STAGE_END (R212). -/
def execTrainStageEnd (p : Fin 2) (snr : BitVec 8) (lock : Bool) (us : BitVec 32) (s : State) : Out :=
  runCore s (cpRun p (Machine.trainStageEnd p snr.toNat lock us.toNat))

/-- TRAIN_TIMEOUT (R219). -/
def execTrainTimeout (p : Fin 2) (s : State) : Out := runCore s (cpRun p (Machine.trainTimeout p))

/-- WARM_TIMEOUT (R216). -/
def execWarmTimeout (p : Fin 2) (s : State) : Out := runCore s (cpRun p (Machine.warmTimeout p))

/-- SILENCE_END (R218). -/
def execSilenceEnd (p : Fin 2) (s : State) : Out := runCore s (cpRun p (Machine.silenceEnd p))

/-- BLOCK_LOCK (R208). -/
def execBlockLock (p : Fin 2) (s : State) : Out := runCore s (cpRun p (Machine.blockLock p))

/-- BLOCK_LOCK_LOSS (R208). -/
def execBlockLockLoss (p : Fin 2) (s : State) : Out := runCore s (cpRun p (Machine.blockLockLoss p))

/-- CP_LOS (R218). -/
def execCpLos (p : Fin 2) (s : State) : Out := runCore s (cpRun p (cpLoss p))

/-- CP_FRAME_START (R209). -/
def execCpFrameStart (p : Fin 2) (blks : List LineBlock) (s : State) : Out := runCore s (cpRun p (lineRxs p blks))

/-- CP_FRAME_END (R210). -/
def execCpFrameEnd (p : Fin 2) (e : CpEnding) (s : State) : Out := runCore s (cpRun p (columnEnd p e))

/-- CP_TX_END (R210). -/
def execCpTxEnd (p : Fin 2) (e : CpTxEnding) (s : State) : Out := runCore s (cpRun p (cpTxOver p e))

/-- CP_ERR_WINDOW (R221). -/
def execCpErrWindow (p : Fin 2) (s : State) : Out := runCore s (Machine.cpErrWindow p)

/-- CP_REINST (R220). -/
def execCpReinst (p : Fin 2) (s : State) : Out := runCore s (cpRun p (cpReinstOp p))

/-- CP_DOWN (R218). -/
def execCpDown (p : Fin 2) (s : State) : Out := runCore s (cpRun p (cpLinkDown p))

/-- CP_RETRAIN (R218). -/
def execCpRetrain (p : Fin 2) (s : State) : Out := runCore s (cpRun p (cpRetrainOp p))

/-- CP_REFL (R223). -/
def execCpRefl (p : Fin 2) (taps : List (BitVec 16)) (s : State) : Out :=
  runCore s (cpRun p (cpReflOp p (taps.map BitVec.toNat)))

/-- CP_SNAP (R217). -/
def execCpSnap (p : Fin 2) (s : State) : Out := runCore s (cpSnapOp p)

/-- PROBE_END (R223). -/
def execProbeEnd (p : Fin 2) (taps : List (BitVec 16)) (s : State) : Out :=
  runCore s (cpRun p (Machine.probeEnd p (taps.map BitVec.toNat)))

/-- LISTEN_ALTERNATE_BAUD (R214). -/
def execListenAlternateBaud (p : Fin 2) (s : State) : Out := runCore s (listenAlternate p)

/-- FAR_END_ENERGY (R218). -/
def execFarEndEnergy (p : Fin 2) (s : State) : Out := runCore s (Machine.farEndEnergy p)

end Sys2Proof.Machine
end

