-- ==== Sys2Proof/Machine/Debug.lean ====
section
/-! DEFINITION. The meanings of the debug port's commands (R463 to R467). -/

namespace Sys2Proof.Machine

/-- DBG_READ (R463). -/
def execDbgRead (hdr : BitVec 8) (addr : BitVec 24) (rcrc : BitVec 8) (done : Bool) (s : State) : Out :=
  run s (dbgTransact false hdr.toNat addr.toNat 0 rcrc.toNat done)

/-- DBG_WRITE (R463). -/
def execDbgWrite (hdr : BitVec 8) (addr : BitVec 24) (wdata : BitVec 32) (rcrc : BitVec 8) (done : Bool) (s : State) : Out :=
  run s (dbgTransact true hdr.toNat addr.toNat wdata.toNat rcrc.toNat done)

/-- DBG_RESYNC (R463): a partial transaction, which has had no effect, is given up. -/
def execDbgResync (s : State) : Out := run s id

/-- DBG_AUTH (R465). -/
def execDbgAuth (reqlvl : BitVec 2) (s : State) : Out :=
  runCore s (dbgLive fun s => Machine.dbgAuth (s.wr F.DBG_CTL_REQLVL reqlvl.toNat))

/-- DBG_NEWCHAL (R465). -/
def execDbgNewchal (s : State) : Out := runCore s (dbgLive Machine.dbgNewchal)

/-- DBG_DROP (R465). -/
def execDbgDrop (acc : Fin 18) (s : State) : Out :=
  runCore s fun s => if acc = 17 then dbgLive (dbgDropOp acc) s else dbgDropOp acc s

/-- DBG_CORERST (R466). -/
def execDbgCorerst (s : State) : Out := runCore s (dbgLive Machine.dbgCorerst)

/-- DBG_LOCKOUT_END (R465). -/
def execDbgLockoutEnd (s : State) : Out := runAon s fun s => if s.on F.DBG_STAT_LOCKED then dbgLockEnd s else s

end Sys2Proof.Machine
end

