-- ==== Sys2Proof/Machine/Flash.lean ====
section
/-! DEFINITION. The meanings of the flash controller's commands (spec/12). -/

namespace Sys2Proof.Machine

/-- FL_PROG (R332): FL_CMD.OP = 1. -/
def execFlProg (acc : Fin 18) (s : State) : Out := runCore s (flCmd (some acc) 1)

/-- FL_ERASE (R337): FL_CMD.OP = 2. -/
def execFlErase (acc : Fin 18) (s : State) : Out := runCore s (flCmd (some acc) 2)

/-- FL_WPROG (R333): FL_CMD.OP = 3. -/
def execFlWprog (acc : Fin 18) (s : State) : Out := runCore s (flCmd (some acc) 3)

/-- FL_SERASE (R337): FL_CMD.OP = 4. -/
def execFlSerase (acc : Fin 18) (s : State) : Out := runCore s (flCmd (some acc) 4)

/-- FL_RDMETA (R331): FL_CMD.OP = 5. -/
def execFlRdmeta (acc : Fin 18) (s : State) : Out := runCore s (flCmd (some acc) 5)

/-- FL_FINDNEXT (R332): FL_CMD.OP = 6. -/
def execFlFindnext (acc : Fin 18) (s : State) : Out := runCore s (flCmd (some acc) 6)

/-- FL_RETIRE_UNIT (R338): FL_CMD.OP = 7. -/
def execFlRetireUnit (acc : Fin 18) (s : State) : Out := runCore s (flCmd (some acc) 7)

/-- FL_PROG_END (R340): a program pulse ends, and its verify passes or fails. -/
def execFlProgEnd (ok : Bool) (s : State) : Out := runCore s (Machine.flProgEnd ok)

/-- FL_COMPACT_END (R337). -/
def execFlCompactEnd (s : State) : Out := runCore s Machine.flCompactEnd

/-- FL_STAMP_END (R340). -/
def execFlStampEnd (s : State) : Out := runCore s Machine.flStampEnd

/-- FL_ERASE_PULSE (R337): an erase pulse ends, and its verify passes or fails. -/
def execFlErasePulse (pass : Bool) (s : State) : Out := runCore s (Machine.flErasePulse pass)

/-- FL_SUSPEND (R329). -/
def execFlSuspend (s : State) : Out := runCore s Machine.flSuspend

/-- FL_RESUME (R329). -/
def execFlResume (s : State) : Out := runCore s Machine.flResume

end Sys2Proof.Machine
end

