-- ==== Sys2Proof/Machine/Forward.lean ====
section
/-! DEFINITION. The meanings of the forwarding engine's commands (spec/10). -/

namespace Sys2Proof.Machine

/-- FWD_REFILL (R288). -/
def execFwdRefill (s : State) : Out := runCore s Machine.fwdRefill

/-- GATE_ENTRY_END (R282). -/
def execGateEntryEnd (p : Fin 5) (s : State) : Out := runCore s (Machine.gateEntryEnd p)

/-- GATE_FIRST_CYCLE_START (R290). -/
def execGateFirstCycleStart (p : Fin 5) (s : State) : Out := runCore s (gateStart p)

/-- FWD_EGRESS_SELECT (R284). -/
def execFwdEgressSelect (p : Fin 5) (s : State) : Out := runCore s (egressSelect p)

/-- A context command names its context in FWD_CTXCMD (R270). -/
def ctxCommand (c : Nat) (f : Nat → State → State) (s : State) : State := f c (s.wr F.FWD_CTXCMD_CTX c)

/-- FWD_CTX_READ (R270). -/
def execFwdCtxRead (c : BitVec 9) (s : State) : Out := runCore s (ctxCommand c.toNat Machine.fwdCtxRead)

/-- FWD_CTX_WRITE (R270). -/
def execFwdCtxWrite (c : BitVec 9) (s : State) : Out := runCore s (ctxCommand c.toNat Machine.fwdCtxWrite)

/-- FWD_CTX_CLEAR (R270). -/
def execFwdCtxClear (c : BitVec 9) (s : State) : Out := runCore s (ctxCommand c.toNat Machine.fwdCtxClear)

/-- FWD_TDATA_READ: a read of FWD_TDATA's lowest unit (R291). -/
def execFwdTdataRead (acc : Fin 18) (w : Width) (s : State) : Out :=
  runCore s (accessRead acc 0x50D020 (widthBytes w))

/-- FWD_TDATA_WRITE: a write that completes FWD_TDATA (R291). -/
def execFwdTdataWrite (v : BitVec 64) (s : State) : Out := runCore s (Machine.fwdTdataWrite v.toNat)

/-- FWD_LRXPOP (R292). -/
def execFwdLrxpop (s : State) : Out := runCore s fwdPop

/-- FWD_ALLOC (R293). -/
def execFwdAlloc (len : BitVec 11) (s : State) : Out := runCore s (Machine.fwdAlloc len.toNat)

/-- FWD_SUBMIT (R293). -/
def execFwdSubmit (v : BitVec 48) (s : State) : Out := runCore s (Machine.fwdSubmit v.toNat)

/-- FWD_FREE (R293). -/
def execFwdFree (n : BitVec 8) (s : State) : Out := runCore s (Machine.fwdFree n.toNat)

end Sys2Proof.Machine
end

