-- ==== Sys2Proof/Machine/HostPort.lean ====
section
/-! DEFINITION. The meanings of the host port's commands: native and compatibility frames, mailboxes and mastering (spec/16). -/

namespace Sys2Proof.Machine

/-- HOST_WRITE (R413): SUB names the device, RW = 0. -/
def execHostWrite (f : HostFrame) (s : State) : Out := runAon s (nativeFrame 0 f)

/-- HOST_READ (R413). -/
def execHostRead (f : HostFrame) (s : State) : Out := runAon s (nativeFrame 1 f)

/-- HOST_STATUS_READ (R413). -/
def execHostStatusRead (f : HostFrame) (s : State) : Out := runAon s (nativeFrame 2 f)

/-- HOST_BCAST_WRITE (R412). -/
def execHostBcastWrite (f : HostFrame) (s : State) : Out := runAon s (nativeFrame 3 f)

/-- HOST_FRAME_TIMEOUT (R417): the frame that the timeout ends is of the kind `op`. -/
def execHostFrameTimeout (op : BitVec 2) (f : HostFrame) (s : State) : Out := runAon s (frameTimeout op.toNat f)

/-- HP_MBSET (R424). -/
def execHpMbset (v : BitVec 8) (s : State) : Out := runCore s (Machine.hpMbset v.toNat)

/-- COMPAT_NOP (R426). -/
def execCompatNop (f : CompatFrame) (s : State) : Out := runAon s (compatFrame 0 f)

/-- COMPAT_WRITE (R426). -/
def execCompatWrite (f : CompatFrame) (s : State) : Out := runAon s (compatFrame 1 f)

/-- COMPAT_READ (R426). -/
def execCompatRead (f : CompatFrame) (s : State) : Out := runAon s (compatFrame 2 f)

/-- COMPAT_WRITE1 (R426). -/
def execCompatWrite1 (f : CompatFrame) (s : State) : Out := runAon s (compatFrame 3 f)

/-- COMPAT_BCAST (R426). -/
def execCompatBcast (f : CompatFrame) (s : State) : Out := runAon s (compatFrame 4 f)

/-- HP_MASTER_GO (R429). -/
def execHpMasterGo (s : State) : Out := runCore s Machine.hpMasterGo

/-- HP_MASTER_ABORT (R430). -/
def execHpMasterAbort (rx : List Byte) (s : State) : Out := runCore s (masterAbort rx)

/-- MASTER_DONE (R429). -/
def execMasterDone (rx : List Byte) (s : State) : Out := runCore s (Machine.masterDone rx)

/-- SELECT_FAULT (R430). -/
def execSelectFault (rx : List Byte) (s : State) : Out := runCore s (Machine.selectFault rx)

end Sys2Proof.Machine
end

