-- ==== Sys2Proof/Machine/Lantern.lean ====
section
/-! DEFINITION. The meanings of lantern I/O's commands: dimming, relays, the sense ADC and the traffic classifier (R396 to R404). -/

namespace Sys2Proof.Machine

/-- LIO_ENABLE (R351): LIO_CTL.EN is written 1. -/
def execLioEnable (s : State) : Out := runCore s (lioCtl 1 1)

/-- DIM_PERIOD (R397). -/
def execDimPeriod (s : State) : Out := runCore s Machine.dimPeriod

/-- The clock that the committed settings give the dimming channels stops: XO32, where CLK selects it (R396). -/
def dimLoss (s : State) : State :=
  if !s.on F.LIO_DIMCFG_MODE && s.on F.LIO_DIMCFG_CLK then
    (if s.on F.SYS_CLK_XORDY then xoLoss s else dimClockCheck s)
  else s

/-- DIM_CLOCK_LOSS (R396). -/
def execDimClockLoss (s : State) : Out := runCore s dimLoss

/-- RLY_REQUEST (R399). -/
def execRlyRequest (val lvl : BitVec 2) (s : State) : Out := runCore s (rlyCmd val.toNat lvl.toNat)

/-- RLY_DRIVE (R400). -/
def execRlyDrive (n : Fin 2) (s : State) : Out := runCore s (Machine.rlyDrive n)

/-- RLY_CONTACT (R400). -/
def execRlyContact (n : Fin 2) (s : State) : Out := runCore s (Machine.rlyContact n)

/-- RLY_NOANGLE_DONE (R400). -/
def execRlyNoangleDone (n : Fin 2) (s : State) : Out := runCore s (rlyNoAngleDone n)

/-- ADC_SET_START (R401). -/
def execAdcSetStart (s : State) : Out := runCore s adcTrigger

/-- ADC_CONVERSION_END (R401). -/
def execAdcConversionEnd (v : BitVec 16) (s : State) : Out := runCore s (adcEnd v.toNat)

/-- TRF_ARRIVAL (R403). -/
def execTrfArrival (n : Fin 4) (s : State) : Out := runAon s (Machine.trfArrival n)

/-- TRF_DEPARTURE (R403). -/
def execTrfDeparture (n : Fin 4) (s : State) : Out := runAon s (Machine.trfDeparture n)

/-- TRF_STUCK (R403). -/
def execTrfStuck (n : Fin 4) (s : State) : Out := runAon s (Machine.trfStuck n)

/-- TRF_SNAP (R404): the request and the XK32 cycle that carries it out. -/
def execTrfSnap (s : State) : Out := runAon s Machine.trfSnap

end Sys2Proof.Machine
end

