-- ==== Sys2Proof/Machine/Mac.lean ====
section
/-! DEFINITION. The meanings of the link MAC's commands (spec/09). -/

namespace Sys2Proof.Machine

/-- MAC_RX_FRAME (R236). -/
def execMacRxFrame (s : State) : Out := runCore s Machine.macRxFrame

/-- MAC_ACK_RX (R249). -/
def execMacAckRx (s : State) : Out := runCore s Machine.macAckRx

/-- ACK_TX_START (R242). -/
def execAckTxStart (s : State) : Out := runCore s Machine.ackTxStart

/-- MAC_CCA (R247). -/
def execMacCca (pwr : BitVec 16) (left : Bool) (s : State) : Out := runCore s (Machine.macCca pwr.toNat left)

/-- MAC_TX_ATTEMPT (R248). -/
def execMacTxAttempt (s : State) : Out := runCore s Machine.macTxAttempt

/-- MAC_ACK_TIMEOUT (R249). -/
def execMacAckTimeout (s : State) : Out := runCore s Machine.macAckTimeout

/-- MAC_BACKOFF_END (R248). -/
def execMacBackoffEnd (num : BitVec 8) (s : State) : Out := runCore s (Machine.macBackoffEnd num.toNat)

/-- PEND_HOLD_END (R250). -/
def execPendHoldEnd (s : State) : Out := runCore s Machine.pendHoldEnd

/-- WAKE_LEAD (R254). -/
def execWakeLead (i : Fin 32) (s : State) : Out := runAon s (Machine.wakeLead i)

/-- WINDOW_OPEN (R253). -/
def execWindowOpen (i : Fin 32) (s : State) : Out := runAon s (Machine.windowOpen i)

/-- WINDOW_CLOSE (R253). -/
def execWindowClose (i : Fin 32) (s : State) : Out := runCore s (Machine.windowClose i)

/-- PEER_SLOT (R255, R285). -/
def execPeerSlot (c : Fin 512) (s : State) : Out := runCore s (Machine.peerSlot c)

/-- SLOT_MISS (R285). -/
def execSlotMiss (c : Fin 512) (s : State) : Out := runCore s (Machine.slotMiss c)

/-- BEACON_SLOT (R257). -/
def execBeaconSlot (s : State) : Out := runAon s Machine.beaconSlot

/-- BEACON_SKIP_TASK (R257). -/
def execBeaconSkipTask (s : State) : Out := runCore s beaconSkip

end Sys2Proof.Machine
end

