-- ==== Sys2Proof/Machine/Modem.lean ====
section
/-! DEFINITION. The meanings of the modem's commands (spec/06): what each lane's receptions meet, and the end of a transmission. -/

namespace Sys2Proof.Machine

/-- What happens to a reception is seen by the MAC's open window (R253). -/
def lanesRun (f : State → State) (s : State) : State := winWatch s (f s)

/-- PREAMBLE_DETECT (R155). -/
def execPreambleDetect (lanes : List (Fin 8)) (ks : List (BitVec 4)) (snrs : List (BitVec 16)) (s : State) : Out :=
  runCore s (lanesRun (preamblesDetect (preambles lanes ks snrs)))

/-- FRAME_MARK (R156, R161). -/
def execFrameMark (lane : Fin 8) (slot : Fin 2) (fofs : BitVec 24) (s : State) : Out :=
  runCore s (lanesRun (Machine.frameMark lane slot fofs.toNat))

/-- NOMARK_TIMEOUT (R156). -/
def execNomarkTimeout (lane : Fin 8) (slot : Fin 2) (s : State) : Out :=
  runCore s (lanesRun (Machine.nomarkTimeout lane slot))

/-- NETWORK_MARK (R156, R160). -/
def execNetworkMark (lane : Fin 8) (slot : Fin 2) (m1 m2 : BitVec 12) (rssi : BitVec 16) (ago : BitVec 7) (s : State) : Out :=
  runCore s (lanesRun (Machine.networkMark lane slot m1.toNat m2.toNat rssi.toNat ago.toNat))

/-- HEADER_DECODE (R143, R145, R156, R158). -/
def execHeaderDecode (lane : Fin 8) (slot : Fin 2) (shifts : List (BitVec 12)) (s : State) : Out :=
  runCore s (lanesRun (headerEnd lane slot (shifts.map (·.toNat))))

/-- PAYLOAD_END (R150, R159). -/
def execPayloadEnd (lane : Fin 8) (slot : Fin 2) (shifts : List (BitVec 12)) (s : State) : Out :=
  runCore s (lanesRun (Machine.payloadEnd lane slot (shifts.map (·.toNat))))

/-- LOST_ENTRY (R157). -/
def execLostEntry (lane : Fin 8) (slot : Fin 2) (s : State) : Out := runCore s (lanesRun (Machine.lostEntry lane slot))

/-- LOST_RECOVER (R156). -/
def execLostRecover (lane : Fin 8) (slot : Fin 2) (s : State) : Out := runCore s (lanesRun (Machine.lostRecover lane slot))

/-- LOST_EXPIRE (R157). -/
def execLostExpire (lane : Fin 8) (slot : Fin 2) (s : State) : Out := runCore s (lanesRun (Machine.lostExpire lane slot))

/-- LANE_ABORT (R156): status 8, ABORTSW. -/
def execLaneAbort (lane : Fin 8) (s : State) : Out := runCore s (lanesRun (laneEnd lane 8))

/-- LANE_SRCHON (R154). -/
def execLaneSrchon (lane : Fin 8) (s : State) : Out := runCore s (laneSearch lane true)

/-- LANE_SRCHOFF (R154). -/
def execLaneSrchoff (lane : Fin 8) (s : State) : Out := runCore s (laneSearch lane false)

/-- LANE_PARITY_ERROR (R172). -/
def execLaneParityError (lane : Fin 8) (slot : Fin 2) (s : State) : Out := runCore s (lanesRun (laneParity lane slot))

/-- INTERR_WINDOW (R172). -/
def execInterrWindow (s : State) : Out := runCore s (lanesRun Machine.interrWindow)

/-- LANE_RETIRE (R172). -/
def execLaneRetire (lanes : BitVec 8) (s : State) : Out := runCore s (lanesRun (laneRetireBits lanes.toNat))

/-- MODEM_TX_END (R165, R258). -/
def execModemTxEnd (s : State) : Out := runCore s macTxEnd

end Sys2Proof.Machine
end

