-- ==== Sys2Proof/Machine/Power.lean ====
section
/-! DEFINITION. The meanings of the commands of supplies, monitors, resets, start-up, the watchdog and Rest (spec/13). -/

namespace Sys2Proof.Machine

/-! ### Supplies and monitors -/

/-- PATH_TO_VBAT (R345). -/
def execPathToVbat (s : State) : Out := runPwr s Machine.pathToVbat

/-- PATH_TO_VMAIN (R345). -/
def execPathToVmain (s : State) : Out := runPwr s Machine.pathToVmain

/-- BROWNOUT (R346). -/
def execBrownout (s : State) : Out := runPwr s Machine.brownout

/-- NVI_LOW (R347). -/
def execNviLow (s : State) : Out := runPwr s (monitor F.PWR_STAT_NVILOW 7)

/-- NVI_OK (R347). -/
def execNviOk (s : State) : Out := runPwr s Machine.nviOk

/-- VBAT_LOW (R349). -/
def execVbatLow (s : State) : Out := runPwr s (monitor F.PWR_STAT_VBATLOW 9)

/-- VDDIO_LOW (R349). -/
def execVddioLow (s : State) : Out := runPwr s (monitor F.PWR_STAT_VDDIOLOW 15)

/-- VBAT_WARNING_REARM (R349). -/
def execVbatRearm (s : State) : Out := runPwr s fun s => s.clr F.PWR_STAT_VBATLOW

/-- VDDIO_MONITOR_REARM (R349). -/
def execVddioRearm (s : State) : Out := runPwr s fun s => s.clr F.PWR_STAT_VDDIOLOW

/-- TEMP_SAMPLE (R349). -/
def execTempSample (v : BitVec 16) (s : State) : Out := runAon s (tempRun v.toNat)

/-! ### Resets and start-up -/

/-- NRST_ASSERT (R350). -/
def execNrstAssert (s : State) : Out := runPwr s (coreResetBy F.PWR_RSTCAUSE_NRST)

/-- NRST_LONG (R350). -/
def execNrstLong (s : State) : Out := runPwr s (aonResetBy F.PWR_RSTCAUSE_NRSTLONG)

/-- SW_RESET_AON (R350). -/
def execSwResetAon (acc : Fin 18) (s : State) : Out := runCore s (Machine.swResetAon acc)

/-- SW_RESET_CORE (R350). -/
def execSwResetCore (acc : Fin 18) (s : State) : Out := runCore s (Machine.swResetCore acc)

/-- VCORE_FAULT (R350): outside Rest. -/
def execVcoreFault (s : State) : Out :=
  runPwr s fun s => if s.inRest then s else coreResetBy F.PWR_RSTCAUSE_VCORE s

/-- VBK_LOSS (R350). -/
def execVbkLoss (s : State) : Out := run s Machine.vbkLoss

/-- VBK_PRESENT (R350). -/
def execVbkPresent (s : State) : Out := run s Machine.vbkPresent

/-- RESET_RELEASE (R353). -/
def execResetRelease (r : Release) (s : State) : Out := run s (Machine.resetRelease r)

/-- RECOVERY_PART (R358). -/
def execRecoveryPart (frame : List Byte) (s : State) : Out := runCore s (recoveryRx frame)

/-! ### The watchdog -/

/-- WDT_KICK (R352). -/
def execWdtKick (s : State) : Out := runCore s (Machine.wdtKick 0xC3)

/-- WDT_BADKICK (R352): any value but C3h. -/
def execWdtBadkick (s : State) : Out := runCore s (Machine.wdtKick 0)

/-- WDT_EXPIRE (R352): the count runs out where it counts. -/
def execWdtExpire (s : State) : Out := runAon s fun s => if s.wdtCounts then Machine.wdtExpire s else s

/-! ### Rest -/

/-- REST_ATTEMPT (R361). -/
def execRestAttempt (s : State) : Out := runCore s Machine.restAttempt

/-- REST_ISOLATION (R362). -/
def execRestIsolation (s : State) : Out := runCore s Machine.restIsolation

/-- REST_POWERDOWN (R362). -/
def execRestPowerdown (s : State) : Out := runAon s Machine.restPowerdown

/-- REST_WAKE (R364). -/
def execRestWake (s : State) : Out := runAon s Machine.restWake

/-- REST_EXIT_DONE (R365). -/
def execRestExitDone (temp : BitVec 16) (s : State) : Out := runAon s (Machine.restExitDone temp.toNat)

end Sys2Proof.Machine
end

