-- ==== Sys2Proof/Machine/Radio.lean ====
section
/-! DEFINITION. The meanings of the radio front end's commands (spec/07). -/

namespace Sys2Proof.Machine

/-- What the front end does, and what the MAC and its open window learn of it (R248, R253). -/
def feRun (f : State → State) (s : State) : State := macReport (winWatch s (f s))

/-- FE_STBY_READY (R186). -/
def execFeStbyReady (s : State) : Out := runCore s (feRun Machine.feStbyReady)

/-- FE_RXREQ (R185). -/
def execFeRxreq (s : State) : Out := runCore s (feRun feRxAsk)

/-- FE_RXREL (R185). -/
def execFeRxrel (s : State) : Out := runCore s (feRun feRxRel)

/-- FE_RETUNE (R197). -/
def execFeRetune (s : State) : Out := runCore s (feRun Machine.feRetune)

/-- FE_CAL (R188). -/
def execFeCal (s : State) : Out := runCore s (feRun feCalGo)

/-- FE_ABORTTX (R186). -/
def execFeAborttx (s : State) : Out := runCore s (feRun feAbortTx)

/-- SYNTH_LOCK (R186). -/
def execSynthLock (s : State) : Out := runCore s (feRun Machine.synthLock)

/-- SYNTH_LOCK_TIMEOUT (R177). -/
def execSynthLockTimeout (s : State) : Out := runCore s (feRun synthTimeout)

/-- DC_CAL_END (R181). -/
def execDcCalEnd (daci dacq : BitVec 8) (s : State) : Out := runCore s (feRun (Machine.dcCalEnd daci.toNat dacq.toNat))

/-- LOCK_LOSS (R178): the synthesiser loses the lock that it has. -/
def execLockLoss (s : State) : Out := runCore s (feRun fun s => if s.on F.FE_STAT_LOCK then Machine.lockLoss s else s)

/-- AGC_PERIOD (R180). -/
def execAgcPeriod (peak : BitVec 8) (s : State) : Out := runCore s (feRun (Machine.agcPeriod peak.toNat))

/-- TX_ADMIT (R190). -/
def execTxAdmit (s : State) : Out := runCore s (feRun txAdmitOp)

/-- RAMPUP_END (R186). -/
def execRampupEnd (rl : BitVec 8) (s : State) : Out := runCore s (feRun (Machine.rampupEnd rl.toNat))

/-- REFL_MEASURE (R184). -/
def execReflMeasure (rl : BitVec 8) (s : State) : Out := runCore s (feRun (Machine.reflMeasure rl.toNat))

/-- RAMPDN_END (R186, R191). -/
def execRampdnEnd (air : BitVec 32) (s : State) : Out := runCore s (feRun (Machine.rampdnEnd air.toNat))

/-- CAL_END (R188). -/
def execCalEnd (s : State) : Out := runCore s (feRun feCalEnd)

/-- BUCKET_BOUNDARY (R192, R193). -/
def execBucketBoundary (sb : Fin 8) (s : State) : Out := runAon s (Machine.bucketBoundary sb)

/-- CHAN_WINDOW (R196). -/
def execChanWindow (s : State) : Out := runAon s Machine.chanWindow

/-- CHRET_REINSTATE (R196). -/
def execChretReinstate (set : BitVec 16) (s : State) : Out := runCore s (Machine.chretReinstate set.toNat)

end Sys2Proof.Machine
end

