-- ==== Sys2Proof/Machine/Rtc.lean ====
section
/-! DEFINITION. The meanings of the real-time clock's commands (spec/14). The backup domain runs whatever becomes of the others
(R368, R386). -/

namespace Sys2Proof.Machine

/-- A command of the backup domain, which VBK supplies (R386). -/
def runVbk (s : State) (f : State → State) : Out := run s fun s => if s.rtc.vbk then f s else s

/-- SECOND_BOUNDARY (R368). -/
def execSecondBoundary (s : State) : Out := runVbk s rtcSecond

/-- XK_READY (R369). -/
def execXkReady (s : State) : Out := runVbk s Machine.xkReady

/-- XK_STOP (R369). -/
def execXkStop (s : State) : Out := runVbk s Machine.xkStop

/-- RTC_WRITE_APPLY (R372). -/
def execRtcWriteApply (s : State) : Out := runVbk s Machine.rtcWriteApply

/-- RTC_WAKE (R379): the periodic wake elapses while the clock counts. -/
def execRtcWake (s : State) : Out := runVbk s fun s => if s.on F.RTC_STAT_XKRDY then rtcWakeOp s else s

/-- COMP_WINDOW (R381). -/
def execCompWindow (s : State) : Out := runVbk s Machine.compWindow

/-- PWRON_RELEASE (R383). -/
def execPwronRelease (s : State) : Out := runVbk s Machine.pwronRelease

/-- TAMPER_TRIP (R384). -/
def execTamperTrip (n : Fin 2) (s : State) : Out := runVbk s (Machine.tamperTrip n)

/-! ### The tick -/

/-- One tick of XK32, while it runs: network time, the clock, lantern I/O, the watchdog, a trial and a debug lockout count;
what runs on other clocks does not (R46, R352, R368, R389, R403, R444, R465; notes/assumptions/1.md). -/
def xkTick (s : State) : State :=
  if s.on F.RTC_STAT_XKRDY then
    let s1 := if s.rtc.vbk then rtcTick (whenAon tbTick s) else whenAon tbTick s
    whenAon (fun s => dbgTick (trialTick (wdtTick (lioTick (lockTick (bistTick (hpTick (flTick (whiskTick s))))))))) s1
  else s

end Sys2Proof.Machine
end

