-- ==== Sys2Proof/Machine/SelfTest.lean ====
section
/-! DEFINITION. The meanings of the self-test's commands (R458 to R461). -/

namespace Sys2Proof.Machine

/-- BIST_GO (R458): GO or task 125 starts a pass. -/
def execBistGo (busy : BitVec 19) (s : State) : Out := runCore s (Machine.bistPass busy.toNat)

/-- BIST_PASS (R458): PER ms after the last pass. -/
def execBistPass (busy : BitVec 19) (s : State) : Out := runCore s (Machine.bistPass busy.toNat)

/-- BIST_SLICE_END (R459). -/
def execBistSliceEnd (ok : Bool) (busy : BitVec 19) (s : State) : Out := runCore s (sliceEnd ok busy.toNat)

/-- MEM_SEGMENT_END (R461). -/
def execMemSegmentEnd (ok : Bool) (s : State) : Out := runCore s (segEnd ok)

end Sys2Proof.Machine
end

