-- ==== Sys2Proof/Machine/Timebase.lean ====
section
/-! DEFINITION. The meanings of the timebase's commands (spec/02): the boundary, crossings, commands, announcements, comparators. -/

namespace Sys2Proof.Machine

/-- CYCLE_BOUNDARY (R48). -/
def execCycleBoundary (s : State) : Out := runAon s tbBoundary

/-- ZC_CANDIDATE (R50). -/
def execZcCandidate (edge : BitVec 48) (heldUs : BitVec 16) (elapsedNs : BitVec 32) (s : State) : Out :=
  runAon s (Machine.zcCandidate edge.toNat heldUs.toNat elapsedNs.toNat)

/-- ZC_ABSENT (R51). -/
def execZcAbsent (s : State) : Out := runAon s Machine.zcAbsent

/-- ZC_MISS (R52). -/
def execZcMiss (s : State) : Out := runAon s Machine.zcMiss

/-- TB_CMD_SEEK (R52, R53). -/
def execTbCmdSeek (s : State) : Out := runCore s (tbCmdOp 1)

/-- TB_CMD_VIRT (R52, R53). -/
def execTbCmdVirt (s : State) : Out := runCore s (tbCmdOp 2)

/-- TB_SET (R56). -/
def execTbSet (t : BitVec 48) (s : State) : Out := runCore s (tbSetTime t.toNat)

/-- ANNOUNCE_REANCHOR (R57). -/
def execAnnounceReanchor (s : State) : Out := runCore s (tbArm 1 false)

/-- ANNOUNCE_VIRTUAL (R57). -/
def execAnnounceVirtual (s : State) : Out := runCore s (tbArm 2 false)

/-- ANNOUNCE_CANCEL (R57). -/
def execAnnounceCancel (s : State) : Out := runCore s (tbArm 0 false)

/-- TB_OFS_WRITE (R63). -/
def execTbOfsWrite (val : Bool) (ofs : BitVec 16) (s : State) : Out := runCore s (tbOfsOp val ofs.toNat)

/-- An enabled comparator's instant comes: network time runs on to it, and it fires as time reaches it (R65). -/
def cmpReach (i : Nat) (s : State) : State :=
  if s.on (cmpEn i) && !s.tbRetired then timeTo (s.cmpVal i) s else s

/-- TB_CMP_FIRE (R65). -/
def execTbCmpFire (i : Fin 2) (s : State) : Out := runAon s (cmpReach i)

/-- XK_FAIL (R47). -/
def execXkFail (s : State) : Out := runAon s Machine.xkFail

end Sys2Proof.Machine
end

