-- ==== Sys2Proof/Machine/Timer.lean ====
section
/-! DEFINITION. The meanings of the timers' commands (R389 to R395). -/

namespace Sys2Proof.Machine

/-- TMR_START (R392). -/
def execTmrStart (n : Fin 8) (s : State) : Out := runCore s (Machine.tmrStart n)

/-- TMR_STOP (R392). -/
def execTmrStop (n : Fin 8) (s : State) : Out := runCore s (Machine.tmrStop n)

/-- TMR_CLEAR (R392). -/
def execTmrClear (n : Fin 8) (s : State) : Out := runCore s (Machine.tmrClear n)

/-- TMR_GSTART (R392). -/
def execTmrGstart (set : BitVec 8) (s : State) : Out := runCore s (Machine.tmrGstart set.toNat)

/-- TMR_GSTOP (R392). -/
def execTmrGstop (set : BitVec 8) (s : State) : Out := runCore s (Machine.tmrGstop set.toNat)

/-- TIMER_MATCH (R390). -/
def execTimerMatch (n : Fin 8) (s : State) : Out := runAon s (tmrToMatch n)

/-- TIMER_WRAP (R391). -/
def execTimerWrap (n : Fin 8) (s : State) : Out := runAon s (tmrToWrap n)

/-- ONESHOT_END (R390). -/
def execOneshotEnd (n : Fin 8) (s : State) : Out := runAon s (tmrToEnd n)

/-- TIMER_CAPTURE (R394). -/
def execTimerCapture (n : Fin 8) (t : CapTrig) (s : State) : Out := runAon s (tmrTrigger n t)

/-- The address of capture register A or B of timer n. -/
def capAddr (n : Fin 8) (b : Bool) : Nat := 0x506018 + 0x40 * n + (if b then 4 else 0)

/-- CAPTURE_READ (R395). -/
def execCaptureRead (acc : Fin 18) (n : Fin 8) (b : Bool) (w : Width) (s : State) : Out :=
  runCore s (accessRead acc (capAddr n b) (widthBytes w))

end Sys2Proof.Machine
end

