-- ==== Sys2Proof/Machine/Update.lean ====
section
/-! DEFINITION. The meanings of the update block's commands (spec/17): campaigns, installs, trials and locks. UPD_CMD is secure
(R447). -/

namespace Sys2Proof.Machine

/-- UPD_OPEN (R447). -/
def execUpdOpen (acc : Fin 18) (s : State) : Out := runCore s (secureOnly acc Machine.updOpen)

/-- UPD_MORSEL (R448). -/
def execUpdMorsel (acc : Fin 18) (s : State) : Out := runCore s (secureOnly acc (Machine.updMorsel acc))

/-- UPD_FLUSH (R449). -/
def execUpdFlush (acc : Fin 18) (s : State) : Out := runCore s (secureOnly acc Machine.updFlush)

/-- MORSEL_RECORDED (R450). -/
def execMorselRecorded (ok : Bool) (s : State) : Out := runCore s (Machine.morselRecorded ok)

/-- UPD_INSTALL (R451), with VBAT in millivolts. -/
def execUpdInstall (acc : Fin 18) (vbat : BitVec 16) (s : State) : Out :=
  runCore s (secureOnly acc (Machine.updInstall vbat.toNat))

/-- INSTALL_END (R452). -/
def execInstallEnd (e : InstallEnding) (s : State) : Out := runCore s (Machine.installEnd e)

/-- UPD_CONFIRM (R445). -/
def execUpdConfirm (acc : Fin 18) (s : State) : Out := runCore s (secureOnly acc Machine.updConfirm)

/-- UPD_REVERT (R445). -/
def execUpdRevert (acc : Fin 18) (s : State) : Out := runCore s (secureOnly acc Machine.updRevert)

/-- UPD_CLEAR (R447). -/
def execUpdClear (acc : Fin 18) (s : State) : Out := runCore s (secureOnly acc Machine.updClear)

/-- UPD_CLEAR_END (R447). -/
def execUpdClearEnd (s : State) : Out := runCore s Machine.updClearEnd

/-- UPD_LOCKCMD (R454). -/
def execUpdLockcmd (acc : Fin 18) (s : State) : Out := runCore s (secureOnly acc (Machine.updLockcmd acc))

/-- TRIAL_PERIOD (R444). -/
def execTrialPeriod (s : State) : Out := runAon s Machine.trialPeriod

end Sys2Proof.Machine
end

