-- ==== Sys2Proof/Machine/Dispatch.lean ====
section
/-! DEFINITION. The meaning of every command: one arm per constructor, each a direct call of the command's own definition. -/

namespace Sys2Proof.Machine

def exec (i : Instr) (s : State) : Host.Outcome State Fault Refusal :=
  match i with
  | .regWrite acc addr w v => Sys2Proof.Machine.execRegWrite acc addr w v s
  | .llReadLow acc addr w => Sys2Proof.Machine.execLlReadLow acc addr w s
  | .llReadHigh acc addr w => Sys2Proof.Machine.execLlReadHigh acc addr w s
  | .llWriteLow acc addr w v => Sys2Proof.Machine.execLlWriteLow acc addr w v s
  | .llWriteHigh acc addr w v => Sys2Proof.Machine.execLlWriteHigh acc addr w v s
  | .commitArm blk => Sys2Proof.Machine.execCommitArm blk s
  | .commitCancel blk => Sys2Proof.Machine.execCommitCancel blk s
  | .commit blk => Sys2Proof.Machine.execCommit blk s
  | .clkSwitchPll held => Sys2Proof.Machine.execClkSwitchPll held s
  | .clkSwitchRc48 cause => Sys2Proof.Machine.execClkSwitchRc48 cause s
  | .pllLock => Sys2Proof.Machine.execPllLock s
  | .xoReady => Sys2Proof.Machine.execXoReady s
  | .clkFail xoStopped => Sys2Proof.Machine.execClkFail xoStopped s
  | .xo32Loss => Sys2Proof.Machine.execXo32Loss s
  | .cycleBoundary => Sys2Proof.Machine.execCycleBoundary s
  | .zcCandidate edge heldUs elapsedNs => Sys2Proof.Machine.execZcCandidate edge heldUs elapsedNs s
  | .zcAbsent => Sys2Proof.Machine.execZcAbsent s
  | .zcMiss => Sys2Proof.Machine.execZcMiss s
  | .tbCmdSeek => Sys2Proof.Machine.execTbCmdSeek s
  | .tbCmdVirt => Sys2Proof.Machine.execTbCmdVirt s
  | .tbSet t => Sys2Proof.Machine.execTbSet t s
  | .announceReanchor => Sys2Proof.Machine.execAnnounceReanchor s
  | .announceVirtual => Sys2Proof.Machine.execAnnounceVirtual s
  | .announceCancel => Sys2Proof.Machine.execAnnounceCancel s
  | .tbOfsWrite val ofs => Sys2Proof.Machine.execTbOfsWrite val ofs s
  | .tbCmpFire k => Sys2Proof.Machine.execTbCmpFire k s
  | .xkFail => Sys2Proof.Machine.execXkFail s
  | .brnStart acc b => Sys2Proof.Machine.execBrnStart acc b s
  | .brnStop acc b => Sys2Proof.Machine.execBrnStop acc b s
  | .brnPark acc b => Sys2Proof.Machine.execBrnPark acc b s
  | .brnResume acc b => Sys2Proof.Machine.execBrnResume acc b s
  | .brnGstart acc set => Sys2Proof.Machine.execBrnGstart acc set s
  | .brnGpark acc set => Sys2Proof.Machine.execBrnGpark acc set s
  | .parked b => Sys2Proof.Machine.execParked b s
  | .wake b => Sys2Proof.Machine.execWake b s
  | .clause b f => Sys2Proof.Machine.execClause b f s
  | .adc b f => Sys2Proof.Machine.execAdc b f s
  | .sbc b f => Sys2Proof.Machine.execSbc b f s
  | .cmpc b f => Sys2Proof.Machine.execCmpc b f s
  | .not b f => Sys2Proof.Machine.execNot b f s
  | .neg b f => Sys2Proof.Machine.execNeg b f s
  | .inc b f => Sys2Proof.Machine.execInc b f s
  | .dec b f => Sys2Proof.Machine.execDec b f s
  | .shl b f => Sys2Proof.Machine.execShl b f s
  | .shr b f => Sys2Proof.Machine.execShr b f s
  | .asr b f => Sys2Proof.Machine.execAsr b f s
  | .rol b f => Sys2Proof.Machine.execRol b f s
  | .ror b f => Sys2Proof.Machine.execRor b f s
  | .swapn b f => Sys2Proof.Machine.execSwapn b f s
  | .btst b f => Sys2Proof.Machine.execBtst b f s
  | .bset b f => Sys2Proof.Machine.execBset b f s
  | .bclr b f => Sys2Proof.Machine.execBclr b f s
  | .mulu b f => Sys2Proof.Machine.execMulu b f s
  | .movp b f => Sys2Proof.Machine.execMovp b f s
  | .addp b f => Sys2Proof.Machine.execAddp b f s
  | .subp b f => Sys2Proof.Machine.execSubp b f s
  | .cmpp b f => Sys2Proof.Machine.execCmpp b f s
  | .tst b f => Sys2Proof.Machine.execTst b f s
  | .ldp b f => Sys2Proof.Machine.execLdp b f s
  | .addpi b f => Sys2Proof.Machine.execAddpi b f s
  | .addpif b f => Sys2Proof.Machine.execAddpif b f s
  | .cmppi b f => Sys2Proof.Machine.execCmppi b f s
  | .movi b f => Sys2Proof.Machine.execMovi b f s
  | .addi b f => Sys2Proof.Machine.execAddi b f s
  | .subi b f => Sys2Proof.Machine.execSubi b f s
  | .andi b f => Sys2Proof.Machine.execAndi b f s
  | .ori b f => Sys2Proof.Machine.execOri b f s
  | .xori b f => Sys2Proof.Machine.execXori b f s
  | .cmpi b f => Sys2Proof.Machine.execCmpi b f s
  | .adci b f => Sys2Proof.Machine.execAdci b f s
  | .ldb b f => Sys2Proof.Machine.execLdb b f s
  | .stb b f => Sys2Proof.Machine.execStb b f s
  | .xchg b f => Sys2Proof.Machine.execXchg b f s
  | .cas b f => Sys2Proof.Machine.execCas b f s
  | .ldadd b f => Sys2Proof.Machine.execLdadd b f s
  | .tset b f => Sys2Proof.Machine.execTset b f s
  | .tclr b f => Sys2Proof.Machine.execTclr b f s
  | .br b f => Sys2Proof.Machine.execBr b f s
  | .jmp b f => Sys2Proof.Machine.execJmp b f s
  | .call b f => Sys2Proof.Machine.execCall b f s
  | .nop b opd => Sys2Proof.Machine.execNop b opd s
  | .yield b opd => Sys2Proof.Machine.execYield b opd s
  | .wait b opd => Sys2Proof.Machine.execWait b opd s
  | .waita b opd => Sys2Proof.Machine.execWaita b opd s
  | .sleep b opd => Sys2Proof.Machine.execSleep b opd s
  | .sleepa b opd => Sys2Proof.Machine.execSleepa b opd s
  | .sig b opd => Sys2Proof.Machine.execSig b opd s
  | .brk b opd => Sys2Proof.Machine.execBrk b opd s
  | .eret b opd => Sys2Proof.Machine.execEret b opd s
  | .jr b opd => Sys2Proof.Machine.execJr b opd s
  | .callr b opd => Sys2Proof.Machine.execCallr b opd s
  | .rds b opd => Sys2Proof.Machine.execRds b opd s
  | .movf b opd => Sys2Proof.Machine.execMovf b opd s
  | .setf b opd => Sys2Proof.Machine.execSetf b opd s
  | .sett b opd => Sys2Proof.Machine.execSett b opd s
  | .crd b f => Sys2Proof.Machine.execCrd b f s
  | .cwr b f => Sys2Proof.Machine.execCwr b f s
  | .csync b f => Sys2Proof.Machine.execCsync b f s
  | .c0Clr b opd => Sys2Proof.Machine.execC0Clr b opd s
  | .c0Mul b opd => Sys2Proof.Machine.execC0Mul b opd s
  | .c0Mac b opd => Sys2Proof.Machine.execC0Mac b opd s
  | .c0Msu b opd => Sys2Proof.Machine.execC0Msu b opd s
  | .c0Mulu b opd => Sys2Proof.Machine.execC0Mulu b opd s
  | .c0Macu b opd => Sys2Proof.Machine.execC0Macu b opd s
  | .c0Shra b opd => Sys2Proof.Machine.execC0Shra b opd s
  | .c0Sata b opd => Sys2Proof.Machine.execC0Sata b opd s
  | .c1Crcinit b opd => Sys2Proof.Machine.execC1Crcinit b opd s
  | .c1Crcfin b opd => Sys2Proof.Machine.execC1Crcfin b opd s
  | .c1Feed b r => Sys2Proof.Machine.execC1Feed b r s
  | .c1Bfx b opd => Sys2Proof.Machine.execC1Bfx b opd s
  | .c1Bfi b opd => Sys2Proof.Machine.execC1Bfi b opd s
  | .c1Brev b opd => Sys2Proof.Machine.execC1Brev b opd s
  | .c1Popc b opd => Sys2Proof.Machine.execC1Popc b opd s
  | .c3Madd b f => Sys2Proof.Machine.execC3Madd b f s
  | .c3Msub b f => Sys2Proof.Machine.execC3Msub b f s
  | .c3Mmul b f => Sys2Proof.Machine.execC3Mmul b f s
  | .c3Minv b f => Sys2Proof.Machine.execC3Minv b f s
  | .c3Pmul b f => Sys2Proof.Machine.execC3Pmul b f s
  | .c3Pmul2 b f => Sys2Proof.Machine.execC3Pmul2 b f s
  | .c3Mred b f => Sys2Proof.Machine.execC3Mred b f s
  | .c3Done => Sys2Proof.Machine.execC3Done s
  | .whiskFire acc set => Sys2Proof.Machine.execWhiskFire acc set s
  | .whiskClrall acc => Sys2Proof.Machine.execWhiskClrall acc s
  | .preambleDetect lane k snr => Sys2Proof.Machine.execPreambleDetect lane k snr s
  | .frameMark lane slot fofs => Sys2Proof.Machine.execFrameMark lane slot fofs s
  | .nomarkTimeout lane slot => Sys2Proof.Machine.execNomarkTimeout lane slot s
  | .networkMark lane slot m1 m2 rssi ts => Sys2Proof.Machine.execNetworkMark lane slot m1 m2 rssi ts s
  | .headerDecode lane slot h => Sys2Proof.Machine.execHeaderDecode lane slot h s
  | .payloadEnd lane slot payload => Sys2Proof.Machine.execPayloadEnd lane slot payload s
  | .lostEntry lane slot => Sys2Proof.Machine.execLostEntry lane slot s
  | .lostRecover lane slot => Sys2Proof.Machine.execLostRecover lane slot s
  | .lostExpire lane slot => Sys2Proof.Machine.execLostExpire lane slot s
  | .laneAbort lane => Sys2Proof.Machine.execLaneAbort lane s
  | .laneSrchon lane => Sys2Proof.Machine.execLaneSrchon lane s
  | .laneSrchoff lane => Sys2Proof.Machine.execLaneSrchoff lane s
  | .laneParityError lane slot => Sys2Proof.Machine.execLaneParityError lane slot s
  | .interrWindow => Sys2Proof.Machine.execInterrWindow s
  | .laneRetire lanes => Sys2Proof.Machine.execLaneRetire lanes s
  | .modemTxEnd => Sys2Proof.Machine.execModemTxEnd s
  | .feStbyReady => Sys2Proof.Machine.execFeStbyReady s
  | .feRxreq => Sys2Proof.Machine.execFeRxreq s
  | .feRxrel => Sys2Proof.Machine.execFeRxrel s
  | .feRetune => Sys2Proof.Machine.execFeRetune s
  | .feCal => Sys2Proof.Machine.execFeCal s
  | .feAborttx => Sys2Proof.Machine.execFeAborttx s
  | .synthLock => Sys2Proof.Machine.execSynthLock s
  | .synthLockTimeout => Sys2Proof.Machine.execSynthLockTimeout s
  | .dcCalEnd daci dacq => Sys2Proof.Machine.execDcCalEnd daci dacq s
  | .lockLoss => Sys2Proof.Machine.execLockLoss s
  | .agcPeriod peak => Sys2Proof.Machine.execAgcPeriod peak s
  | .txAdmit => Sys2Proof.Machine.execTxAdmit s
  | .rampupEnd rl => Sys2Proof.Machine.execRampupEnd rl s
  | .reflMeasure rl => Sys2Proof.Machine.execReflMeasure rl s
  | .rampdnEnd air => Sys2Proof.Machine.execRampdnEnd air s
  | .calEnd => Sys2Proof.Machine.execCalEnd s
  | .bucketBoundary sb => Sys2Proof.Machine.execBucketBoundary sb s
  | .chanWindow => Sys2Proof.Machine.execChanWindow s
  | .chretReinstate set => Sys2Proof.Machine.execChretReinstate set s
  | .cpEnable p => Sys2Proof.Machine.execCpEnable p s
  | .trainStart p => Sys2Proof.Machine.execTrainStart p s
  | .infoBlockRx p blk => Sys2Proof.Machine.execInfoBlockRx p blk s
  | .trainStageEnd p snr lock us => Sys2Proof.Machine.execTrainStageEnd p snr lock us s
  | .trainTimeout p => Sys2Proof.Machine.execTrainTimeout p s
  | .warmTimeout p => Sys2Proof.Machine.execWarmTimeout p s
  | .silenceEnd p => Sys2Proof.Machine.execSilenceEnd p s
  | .blockLock p => Sys2Proof.Machine.execBlockLock p s
  | .blockLockLoss p => Sys2Proof.Machine.execBlockLockLoss p s
  | .cpLos p => Sys2Proof.Machine.execCpLos p s
  | .cpFrameStart p first => Sys2Proof.Machine.execCpFrameStart p first s
  | .cpFrameEnd p e => Sys2Proof.Machine.execCpFrameEnd p e s
  | .cpTxEnd p e => Sys2Proof.Machine.execCpTxEnd p e s
  | .cpErrWindow p => Sys2Proof.Machine.execCpErrWindow p s
  | .cpReinst p => Sys2Proof.Machine.execCpReinst p s
  | .cpDown p => Sys2Proof.Machine.execCpDown p s
  | .cpRetrain p => Sys2Proof.Machine.execCpRetrain p s
  | .cpRefl p taps => Sys2Proof.Machine.execCpRefl p taps s
  | .cpSnap p => Sys2Proof.Machine.execCpSnap p s
  | .probeEnd p taps => Sys2Proof.Machine.execProbeEnd p taps s
  | .macRxFrame => Sys2Proof.Machine.execMacRxFrame s
  | .macAckRx => Sys2Proof.Machine.execMacAckRx s
  | .ackTxStart => Sys2Proof.Machine.execAckTxStart s
  | .macCca pwr left => Sys2Proof.Machine.execMacCca pwr left s
  | .macTxAttempt => Sys2Proof.Machine.execMacTxAttempt s
  | .macAckTimeout => Sys2Proof.Machine.execMacAckTimeout s
  | .macBackoffEnd num => Sys2Proof.Machine.execMacBackoffEnd num s
  | .pendHoldEnd => Sys2Proof.Machine.execPendHoldEnd s
  | .wakeLead k => Sys2Proof.Machine.execWakeLead k s
  | .windowOpen k => Sys2Proof.Machine.execWindowOpen k s
  | .windowClose k => Sys2Proof.Machine.execWindowClose k s
  | .peerSlot c => Sys2Proof.Machine.execPeerSlot c s
  | .slotMiss c => Sys2Proof.Machine.execSlotMiss c s
  | .beaconSlot => Sys2Proof.Machine.execBeaconSlot s
  | .beaconSkipTask => Sys2Proof.Machine.execBeaconSkipTask s
  | .fwdRefill => Sys2Proof.Machine.execFwdRefill s
  | .gateEntryEnd p => Sys2Proof.Machine.execGateEntryEnd p s
  | .fwdEgressSelect p => Sys2Proof.Machine.execFwdEgressSelect p s
  | .fwdCtxRead c => Sys2Proof.Machine.execFwdCtxRead c s
  | .fwdCtxWrite c => Sys2Proof.Machine.execFwdCtxWrite c s
  | .fwdCtxClear c => Sys2Proof.Machine.execFwdCtxClear c s
  | .fwdTdataRead acc w => Sys2Proof.Machine.execFwdTdataRead acc w s
  | .fwdTdataWrite v => Sys2Proof.Machine.execFwdTdataWrite v s
  | .fwdLrxpop => Sys2Proof.Machine.execFwdLrxpop s
  | .fwdAlloc len => Sys2Proof.Machine.execFwdAlloc len s
  | .fwdSubmit v => Sys2Proof.Machine.execFwdSubmit v s
  | .fwdFree n => Sys2Proof.Machine.execFwdFree n s
  | .ciphCtr b opd => Sys2Proof.Machine.execCiphCtr b opd s
  | .ciphCcmenc b opd => Sys2Proof.Machine.execCiphCcmenc b opd s
  | .ciphCcmdec b opd => Sys2Proof.Machine.execCiphCcmdec b opd s
  | .ciphCmacgen b opd => Sys2Proof.Machine.execCiphCmacgen b opd s
  | .ciphCmacver b opd => Sys2Proof.Machine.execCiphCmacver b opd s
  | .ciphCbcmac b opd => Sys2Proof.Machine.execCiphCbcmac b opd s
  | .ciphImport b opd => Sys2Proof.Machine.execCiphImport b opd s
  | .ciphGen b opd => Sys2Proof.Machine.execCiphGen b opd s
  | .ciphPersist b opd => Sys2Proof.Machine.execCiphPersist b opd s
  | .ciphErase b opd => Sys2Proof.Machine.execCiphErase b opd s
  | .ciphNarrow b opd => Sys2Proof.Machine.execCiphNarrow b opd s
  | .ciphSetk0 b opd => Sys2Proof.Machine.execCiphSetk0 b opd s
  | .ciphSetk1 b opd => Sys2Proof.Machine.execCiphSetk1 b opd s
  | .ciphRetire b opd => Sys2Proof.Machine.execCiphRetire b opd s
  | .ciphDone => Sys2Proof.Machine.execCiphDone s
  | .larderAlarm cause => Sys2Proof.Machine.execLarderAlarm cause s
  | .larErased => Sys2Proof.Machine.execLarErased s
  | .flProg acc => Sys2Proof.Machine.execFlProg acc s
  | .flErase acc => Sys2Proof.Machine.execFlErase acc s
  | .flWprog acc => Sys2Proof.Machine.execFlWprog acc s
  | .flSerase acc => Sys2Proof.Machine.execFlSerase acc s
  | .flRdmeta acc => Sys2Proof.Machine.execFlRdmeta acc s
  | .flFindnext acc => Sys2Proof.Machine.execFlFindnext acc s
  | .flRetireUnit acc => Sys2Proof.Machine.execFlRetireUnit acc s
  | .flProgEnd ok => Sys2Proof.Machine.execFlProgEnd ok s
  | .flCompactEnd => Sys2Proof.Machine.execFlCompactEnd s
  | .flStampEnd => Sys2Proof.Machine.execFlStampEnd s
  | .flErasePulse pass => Sys2Proof.Machine.execFlErasePulse pass s
  | .flSuspend => Sys2Proof.Machine.execFlSuspend s
  | .flResume => Sys2Proof.Machine.execFlResume s
  | .pathToVbat => Sys2Proof.Machine.execPathToVbat s
  | .pathToVmain => Sys2Proof.Machine.execPathToVmain s
  | .brownout => Sys2Proof.Machine.execBrownout s
  | .nviLow => Sys2Proof.Machine.execNviLow s
  | .nviOk => Sys2Proof.Machine.execNviOk s
  | .vbatLow => Sys2Proof.Machine.execVbatLow s
  | .vddioLow => Sys2Proof.Machine.execVddioLow s
  | .tempSample v => Sys2Proof.Machine.execTempSample v s
  | .nrstAssert => Sys2Proof.Machine.execNrstAssert s
  | .nrstLong => Sys2Proof.Machine.execNrstLong s
  | .swResetAon acc => Sys2Proof.Machine.execSwResetAon acc s
  | .swResetCore acc => Sys2Proof.Machine.execSwResetCore acc s
  | .vcoreFault => Sys2Proof.Machine.execVcoreFault s
  | .vbkLoss => Sys2Proof.Machine.execVbkLoss s
  | .vbkPresent => Sys2Proof.Machine.execVbkPresent s
  | .resetRelease r => Sys2Proof.Machine.execResetRelease r s
  | .recoveryPart frame => Sys2Proof.Machine.execRecoveryPart frame s
  | .wdtKick => Sys2Proof.Machine.execWdtKick s
  | .wdtBadkick => Sys2Proof.Machine.execWdtBadkick s
  | .wdtExpire => Sys2Proof.Machine.execWdtExpire s
  | .restAttempt => Sys2Proof.Machine.execRestAttempt s
  | .restIsolation => Sys2Proof.Machine.execRestIsolation s
  | .restPowerdown => Sys2Proof.Machine.execRestPowerdown s
  | .restWake => Sys2Proof.Machine.execRestWake s
  | .restExitDone temp => Sys2Proof.Machine.execRestExitDone temp s
  | .secondBoundary => Sys2Proof.Machine.execSecondBoundary s
  | .xkReady => Sys2Proof.Machine.execXkReady s
  | .xkStop => Sys2Proof.Machine.execXkStop s
  | .rtcWriteApply => Sys2Proof.Machine.execRtcWriteApply s
  | .rtcWake => Sys2Proof.Machine.execRtcWake s
  | .compWindow => Sys2Proof.Machine.execCompWindow s
  | .pwronRelease => Sys2Proof.Machine.execPwronRelease s
  | .tamperTrip n => Sys2Proof.Machine.execTamperTrip n s
  | .tmrStart n => Sys2Proof.Machine.execTmrStart n s
  | .tmrStop n => Sys2Proof.Machine.execTmrStop n s
  | .tmrClear n => Sys2Proof.Machine.execTmrClear n s
  | .tmrGstart set => Sys2Proof.Machine.execTmrGstart set s
  | .tmrGstop set => Sys2Proof.Machine.execTmrGstop set s
  | .timerMatch n => Sys2Proof.Machine.execTimerMatch n s
  | .timerWrap n => Sys2Proof.Machine.execTimerWrap n s
  | .oneshotEnd n => Sys2Proof.Machine.execOneshotEnd n s
  | .timerCapture n b => Sys2Proof.Machine.execTimerCapture n b s
  | .captureRead acc n b w => Sys2Proof.Machine.execCaptureRead acc n b w s
  | .lioEnable => Sys2Proof.Machine.execLioEnable s
  | .dimPeriod => Sys2Proof.Machine.execDimPeriod s
  | .dimClockLoss => Sys2Proof.Machine.execDimClockLoss s
  | .rlyRequest val lvl => Sys2Proof.Machine.execRlyRequest val lvl s
  | .rlyDrive n => Sys2Proof.Machine.execRlyDrive n s
  | .rlyContact n => Sys2Proof.Machine.execRlyContact n s
  | .rlyNoangleDone n => Sys2Proof.Machine.execRlyNoangleDone n s
  | .adcSetStart => Sys2Proof.Machine.execAdcSetStart s
  | .adcConversionEnd v => Sys2Proof.Machine.execAdcConversionEnd v s
  | .trfArrival n => Sys2Proof.Machine.execTrfArrival n s
  | .trfDeparture n => Sys2Proof.Machine.execTrfDeparture n s
  | .trfStuck n => Sys2Proof.Machine.execTrfStuck n s
  | .trfSnap => Sys2Proof.Machine.execTrfSnap s
  | .hostWrite f => Sys2Proof.Machine.execHostWrite f s
  | .hostRead f => Sys2Proof.Machine.execHostRead f s
  | .hostStatusRead f => Sys2Proof.Machine.execHostStatusRead f s
  | .hostBcastWrite f => Sys2Proof.Machine.execHostBcastWrite f s
  | .hostFrameTimeout op f => Sys2Proof.Machine.execHostFrameTimeout op f s
  | .hpMbset v => Sys2Proof.Machine.execHpMbset v s
  | .compatNop f => Sys2Proof.Machine.execCompatNop f s
  | .compatWrite f => Sys2Proof.Machine.execCompatWrite f s
  | .compatRead f => Sys2Proof.Machine.execCompatRead f s
  | .compatWrite1 f => Sys2Proof.Machine.execCompatWrite1 f s
  | .compatBcast f => Sys2Proof.Machine.execCompatBcast f s
  | .hpMasterGo => Sys2Proof.Machine.execHpMasterGo s
  | .hpMasterAbort rx => Sys2Proof.Machine.execHpMasterAbort rx s
  | .masterDone rx => Sys2Proof.Machine.execMasterDone rx s
  | .selectFault rx => Sys2Proof.Machine.execSelectFault rx s
  | .updOpen acc => Sys2Proof.Machine.execUpdOpen acc s
  | .updMorsel acc => Sys2Proof.Machine.execUpdMorsel acc s
  | .updFlush acc => Sys2Proof.Machine.execUpdFlush acc s
  | .morselRecorded ok => Sys2Proof.Machine.execMorselRecorded ok s
  | .updInstall acc vbat => Sys2Proof.Machine.execUpdInstall acc vbat s
  | .installEnd e => Sys2Proof.Machine.execInstallEnd e s
  | .updConfirm acc => Sys2Proof.Machine.execUpdConfirm acc s
  | .updRevert acc => Sys2Proof.Machine.execUpdRevert acc s
  | .updClear acc => Sys2Proof.Machine.execUpdClear acc s
  | .updClearEnd => Sys2Proof.Machine.execUpdClearEnd s
  | .updLockcmd acc => Sys2Proof.Machine.execUpdLockcmd acc s
  | .trialPeriod => Sys2Proof.Machine.execTrialPeriod s
  | .bistGo busy => Sys2Proof.Machine.execBistGo busy s
  | .bistPass busy => Sys2Proof.Machine.execBistPass busy s
  | .bistSliceEnd ok busy => Sys2Proof.Machine.execBistSliceEnd ok busy s
  | .memSegmentEnd ok => Sys2Proof.Machine.execMemSegmentEnd ok s
  | .dbgRead hdr addr rcrc done => Sys2Proof.Machine.execDbgRead hdr addr rcrc done s
  | .dbgWrite hdr addr wdata rcrc done => Sys2Proof.Machine.execDbgWrite hdr addr wdata rcrc done s
  | .dbgResync => Sys2Proof.Machine.execDbgResync s
  | .dbgAuth reqlvl => Sys2Proof.Machine.execDbgAuth reqlvl s
  | .dbgNewchal => Sys2Proof.Machine.execDbgNewchal s
  | .dbgDrop acc => Sys2Proof.Machine.execDbgDrop acc s
  | .dbgCorerst => Sys2Proof.Machine.execDbgCorerst s
  | .dbgLockoutEnd => Sys2Proof.Machine.execDbgLockoutEnd s
  | .gateFirstCycleStart p => Sys2Proof.Machine.execGateFirstCycleStart p s
  | .listenAlternateBaud p => Sys2Proof.Machine.execListenAlternateBaud p s
  | .farEndEnergy p => Sys2Proof.Machine.execFarEndEnergy p s
  | .vbatRearm => Sys2Proof.Machine.execVbatRearm s
  | .vddioRearm => Sys2Proof.Machine.execVddioRearm s
  | .pllUnlock => Sys2Proof.Machine.execPllUnlock s

end Sys2Proof.Machine
end

