-- ==== Sys2Proof/Machine/Step.lean ====
section
/-! DEFINITION. One step of the block: the command at the front of the queue takes effect; with none waiting, the core issues the next
word that memory holds for it, or one tick of XK32 passes (notes/assumptions/1.md, notes/assumptions/76.md). -/

namespace Sys2Proof.Machine

/-- A step with no command waiting: the core issues a word of itself, the commands of the words being those of spec/04, or XK32
ticks. -/
def idle (s : State) : Host.Outcome State Fault Refusal :=
  match (settle s).ownWord with
  | none => run { s with cyc := 0 } xkTick
  | some (b, w) =>
    match decodeWord (Fin.ofNat 16 b) w with
    | some c => exec c { s with cyc := s.cyc + 1 }
    | none => runCore { s with cyc := s.cyc + 1 } (issueUndefined b w)

/-- One step. -/
def step (s : State) : Host.Outcome State Fault Refusal :=
  match s.pending with
  | [] => idle s
  | c :: rest => exec c { s with pending := rest }

/-- The state with the command that a word spells in front of its queue; the table gives no row any bits, so that no word
spells one. -/
def State.withFetchWord (s : State) (nbits w : Nat) : State :=
  match decodeTableWord nbits w with
  | some c => { s with pending := c :: s.pending }
  | none => s

end Sys2Proof.Machine
end

