-- ==== Sys2Proof/Safety.lean ====
section
/-! DEFINITION. The terms in which claims are made: the invariant of the model, what a command leaves alone, and how a command
completes. -/

namespace Sys2Proof.Machine

/-- The invariant: memory stands in its canonical form, so that equal memories are equal data. -/
abbrev State.Inv (s : State) : Prop := s.memWf = true

/-- The parts of State beside the queue, the register file, memory, and what events reach. -/
inductive Part where
  | ramLoss | latches | holds | busData | freeSeq | rest | whiskTest | cyc | rr | brn | c3 | tb | mod | fe | boot | bistPart | cp
  | fwd | mac | ciph | hp | fl | fuse | rtc | lio | pwr | upd | bist | dbg
  deriving DecidableEq, Repr

/-- A part is the same in two states; of the power block, all but the note of a wake cause, which an event can leave. -/
def Part.same (u t : State) : Part → Prop
  | .ramLoss => t.ramLoss = u.ramLoss
  | .latches => t.latches = u.latches
  | .holds => t.holds = u.holds
  | .busData => t.busData = u.busData
  | .freeSeq => t.freeSeq = u.freeSeq
  | .rest => t.rest = u.rest
  | .whiskTest => t.whiskTest = u.whiskTest
  | .cyc => t.cyc = u.cyc
  | .rr => t.rr = u.rr
  | .brn => t.brn = u.brn
  | .c3 => t.c3 = u.c3
  | .tb => t.tb = u.tb
  | .mod => t.mod = u.mod
  | .fe => t.fe = u.fe
  | .boot => t.boot = u.boot
  | .bistPart => t.bistPart = u.bistPart
  | .cp => t.cp = u.cp
  | .fwd => t.fwd = u.fwd
  | .mac => t.mac = u.mac
  | .ciph => t.ciph = u.ciph
  | .hp => t.hp = u.hp
  | .fl => t.fl = u.fl
  | .fuse => t.fuse = u.fuse
  | .rtc => t.rtc = u.rtc
  | .lio => t.lio = u.lio
  | .pwr => { t.pwr with wake := u.pwr.wake } = u.pwr
  | .upd => t.upd = u.upd
  | .bist => t.bist = u.bist
  | .dbg => t.dbg = u.dbg

/-- What a fired event can reach in the register file (R124, R125, R131, R134, R136): the Whisk's flags, overruns, its error record and
its counters, the burners' wake-pending bits, and BIST_HOLD. The key is that of a field. -/
def eventBit (k : Nat) : Bool :=
  (8 * 0x502200 ≤ k && k < 8 * 0x502410) || (8 * 0x502424 ≤ k && k < 8 * 0x502426) ||
  (8 * 0x502430 ≤ k && k < 8 * 0x502434) || k == 8 * 0x512302 ||
  (8 * 0x503000 ≤ k && k < 8 * 0x503400 && (k - 8 * 0x503000) % 0x200 == 0x140)

/-- From u to t exactly the events ev have fired, in this order; of the register file only the fields ks and what those events
reach have changed; memory reads as before; and of the other parts only ps have changed. -/
structure Frame (ks : List Fld) (ps : List Part) (ev : List Nat) (u t : State) : Prop where
  fired : t.fired = u.fired ++ ev
  regs : ∀ f : Fld, (∀ k ∈ ks, f.bit ≠ k.bit) → (eventBit f.bit = false ∨ ev = []) → t.rd f = u.rd f
  mem : ∀ a, t.byte a = u.byte a
  parts : ∀ p, p ∉ ps → p.same u t
  quiet : ev = [] → t.taskq = u.taskq ∧ t.whiskHeld = u.whiskHeld ∧ t.whiskAge = u.whiskAge ∧ t.pwr.wake = u.pwr.wake

/-- A wider frame: from u to t no events fire but some of evs; the register file changes only in the blocks of pages, in the
fields ks and in what events reach; memory only in the ranges ram (first address and the one after the last); of the other
parts only ps. -/
structure Within (pages : List Nat) (ks : List Fld) (ram : List (Nat × Nat)) (ps : List Part) (evs : List Nat)
    (u t : State) : Prop where
  fired : ∃ ev, t.fired = u.fired ++ ev ∧ ∀ n ∈ ev, n ∈ evs
  regs : ∀ f : Fld, f.bit / 0x8000 ∉ pages → (∀ k ∈ ks, f.bit ≠ k.bit) → (eventBit f.bit = false ∨ t.fired = u.fired) →
    t.rd f = u.rd f
  mem : ∀ a, (∀ r ∈ ram, a < r.1 ∨ r.2 ≤ a) → t.byte a = u.byte a
  parts : ∀ p, p ∉ ps → p.same u t
  quiet : t.fired = u.fired → t.taskq = u.taskq ∧ t.whiskHeld = u.whiskHeld ∧ t.whiskAge = u.whiskAge ∧ t.pwr.wake = u.pwr.wake

/-- Source n has fired from u to t. -/
def Fires (n : Nat) (u t : State) : Prop := n ∈ t.fired.drop u.fired.length

/-- A counter that saturates has counted one (R44). -/
def Counts (f : Fld) (u t : State) : Prop := t.rd f = min (u.rd f + 1) (2 ^ f.w - 1)

/-- The command completes: it answers a next state with the queue it found and with memory in its canonical form, of which P
holds. -/
def Completes (i : Instr) (s : State) (P : State → Prop) : Prop :=
  ∃ t, exec i s = .next t ∧ t.pending = s.pending ∧ t.Inv ∧ P t

/-! ### Fields that agree (R52, R81, R91, R93, R120) -/

/-- Burner b's state agrees with its flags: no parking is requested of one that is OFF or PARKED, and one that is FAULTED has an exception
in progress (R81, R91, R93). -/
def State.brnAgrees (s : State) (b : Nat) : Bool :=
  (s.bstate b != stOff && s.bstate b != stParked || !s.on (F.BRN_STAT_PARKREQ b)) && (s.bstate b != stFaulted || s.on (F.BRN_STAT_EXC b))

/-- The fields of one unit agree: so do every burner's, only the state GRID is in HOLD (R52), and C3 is busy exactly with an operation
(R120). -/
def State.agrees (s : State) : Bool :=
  (List.range 16).all s.brnAgrees && (!s.on F.TB_STAT_HOLD || s.rd F.TB_STAT_STATE == tbGrid) && s.c3.busy == s.c3.op.isSome

/-- Fields that agreed do so still. -/
def AgreesOn (u t : State) : Prop := u.agrees = true → t.agrees = true

/-! ### Commits (R34 to R37) -/

/-- The block's boundary stands: a COMMIT in this state commits (each block's chapter names its boundary; the strobe and the refill are the
row's own instant, and so is the start of a dimming period where it does not go by phase). -/
def State.atBoundary (u : State) : CommitBlock → Bool
  | .sys | .tb | .fwd => true
  | .lio => u.dimStopped || (!u.dimClockGone &&
      (!u.on F.LIO_DIMCFG_MODE || (u.now + 65536 - u.dimFrac) % 2 ^ (16 - u.rd F.LIO_DIMCFG_M) == 0))
  | .fe => u.fe_st == feOff || u.fe_st == feStby || !u.on F.FE_CTL_EN
  | .mod => u.modBoundary
  | .cpa => u.cpSt 0 == cpOff || u.cpSt 0 == cpQuiet || u.cpSt 0 == cpListen || u.cpSt 0 == cpRetired
  | .cpb => u.cpSt 1 == cpOff || u.cpSt 1 == cpQuiet || u.cpSt 1 == cpListen || u.cpSt 1 == cpRetired
  | .mac => !u.on F.MAC_CTL_EN || (u.mac.tx.isNone && u.mac.owed.isEmpty && u.mac.wins.isEmpty)

/-- A commit armed in this state is applied at once: the boundary source is stopped, or the boundary stands (R37). -/
def State.commitsAtOnce (u : State) : CommitBlock → Bool
  | .sys | .tb => false
  | .lio => u.dimStopped
  | .fwd => !u.on F.FWD_CTL_EN
  | b => u.atBoundary b

/-- The lowest failing code of the block's consistency rules on its staging copies; 0 where none fails (R35). -/
def State.commitCode (u : State) : CommitBlock → Nat
  | .sys => sysCheck u
  | .tb => tbCheck u
  | .lio => lioCheck u
  | .fe => feCheck u
  | .mod => modCheck u
  | .cpa => cpCheck 0 u
  | .cpb => cpCheck 1 u
  | .mac => macCheck u
  | .fwd => fwdCheck u

/-- A commit takes place from u to t (R35): PEND clears and the commit event fires; a snapshot that passes is in the active copies
whole, one that fails leaves them all and its lowest code in REASON. -/
def Commits (b : CommitBlock) (u t : State) : Prop :=
  let p := commitPage b
  t.on (cmtPend p) = false ∧ Fires 1 u t ∧ bitOf (t.rd F.WHISK_CMTBLK_BLK) (p - 0x500) = true ∧
  (if u.commitCode b = 0 then
    (∀ f ∈ stagedFlds p, t.rd f = u.rd f.stg % 2 ^ f.w) ∧ t.rd (cmtCount p) = (u.rd (cmtCount p) + 1) % 2 ^ 16 ∧
      t.on (cmtDone p) = true ∧ t.rd (cmtRej p) = u.rd (cmtRej p) ∧ t.rd (cmtReason p) = u.rd (cmtReason p)
  else
    (∀ f ∈ stagedFlds p, t.rd f = u.rd f) ∧ t.rd (cmtCount p) = u.rd (cmtCount p) ∧
      t.on (cmtRej p) = true ∧ t.rd (cmtReason p) = u.commitCode b % 16 ∧ t.rd (cmtDone p) = u.rd (cmtDone p)) ∧
  Within [p] [F.WHISK_CMTBLK_BLK, F.LIO_STAT_CLKLOSS] [] [.tb, .lio, .fe, .fwd] [1, 34, 36] u t

/-- XO32 is lost from u to t (R31, R51, R187, R222): XORDY and PLLLOCK clear, a core on the PLL falls back with CLKFAIL and event 0,
the front end goes to OFF and each column port that is not retired too, with their reference faults, ZCOK clears, and GRID is in
HOLD. -/
def XoLost (u t : State) : Prop :=
  t.rd F.SYS_CLK_XORDY = 0 ∧ t.rd F.SYS_CLK_PLLLOCK = 0 ∧ t.rd F.SYS_CLK_SRC = 0 ∧
  (u.on F.SYS_CLK_SRC = true → t.rd F.SYS_CLK_CLKFAIL = 1 ∧ Fires 0 u t) ∧
  t.fe_st = feOff ∧ t.rd F.FE_STAT_REFF = 1 ∧
  (∀ p, p ≤ 1 → if u.cpSt p = cpRetired then t.cpSt p = cpRetired else t.cpSt p = cpOff ∧ t.rd (F.CP_STAT_REFF p) = 1) ∧
  t.rd F.TB_STAT_ZCOK = 0 ∧ t.rd F.TB_STAT_STATE = u.rd F.TB_STAT_STATE ∧
  (u.rd F.TB_STAT_STATE = tbGrid → t.on F.TB_STAT_HOLD = true)

/-! ### Register access (R14 to R17, R26, R39, R40, R82 to R85, R420, R464, R467) -/

/-- The accessor makes an access of n bytes at an address: the unit is its own (R39), and the debug port has a level (R464, R467). -/
def State.makes (u : State) (acc a n : Nat) : Prop :=
  (acc < 16 → n = 1) ∧ (acc = 16 → n = 2 ∧ a % 2 = 0) ∧
  (acc = 17 → u.on F.DBG_STAT_KILLED = false ∧ u.rd F.DBG_STAT_LEVEL ≠ 0)

/-- The access is made, and neither the security maps nor the host's allow list stand against it (R84, R420). -/
def State.admits (u : State) (acc a n : Nat) (write : Bool) : Prop :=
  u.makes acc a n ∧ u.closedTo acc a = false ∧ u.closedTo acc (a + n - 1) = false ∧ (acc = 16 → u.hostAllow a write = true)

/-- The registers whose writes do more than reach their fields (commands, guarded registers, writes that wait): the first base address and
the one after the last. -/
def actingRegs : List (Nat × Nat) :=
  [(0x500020, 0x500021), (0x501002, 0x501003), (0x501004, 0x501005), (0x501008, 0x501009), (0x501016, 0x50101D), (0x502000, 0x504000),
    (0x504008, 0x504009), (0x504014, 0x504015), (0x504024, 0x504025), (0x50403C, 0x50403D), (0x505000, 0x507001), (0x507028, 0x507029),
    (0x507080, 0x507088), (0x5070B0, 0x5070B1), (0x508000, 0x508002), (0x508010, 0x508011), (0x50802E, 0x50802F), (0x508280, 0x5082E0),
    (0x509000, 0x50A002), (0x50B000, 0x50B002), (0x50C000, 0x50C001), (0x50D000, 0x50D001), (0x50D010, 0x50D011), (0x50D020, 0x50D021),
    (0x50D0B0, 0x50D0B3), (0x50D0C0, 0x50D0C9), (0x50E000, 0x50F001), (0x50F070, 0x50F100), (0x510008, 0x510009), (0x510042, 0x510043),
    (0x510060, 0x510061), (0x510180, 0x510200), (0x511000, 0x512001), (0x513000, 0x514000)]

/-- A write of the register at a base address only reaches its fields. -/
def plainReg (base : Nat) : Bool := base % 0x1000 != 0x7F0 && !actingRegs.any fun r => decide (r.1 ≤ base ∧ base < r.2)

/-- A field of the register at base meets a write of the bits val under mask (R14, R44). -/
def FldTakes (base val mask : Nat) (f : FldDesc) (u t : State) : Prop :=
  let x := Fld.at base f.lo f.w f.rst
  let written := fun i => bitOf mask (f.lo + i)
  (f.acc = .rw → ∀ i, i < f.w → bitOf (t.rd x) i = if written i then bitOf val (f.lo + i) else bitOf (u.rd x) i) ∧
  (f.acc = .w1c → ∀ i, i < f.w → bitOf (t.rd x) i = (bitOf (u.rd x) i && !(written i && bitOf val (f.lo + i)))) ∧
  (f.acc = .cnt → t.rd x = if (List.range f.w).any written then 0 else u.rd x)

/-- The fields of the register at base that a write changes. -/
def RegDesc.taking (r : RegDesc) (base : Nat) : List Fld :=
  (r.fields.filter fun f => f.acc != .ro && f.acc != .wo).map fun f => Fld.at base f.lo f.w f.rst

/-- The registers that show more than their fields hold (what a block computes, the level of an input, channels that an open accessor may not
see), or that are read as something else: the first base address and the one after the last. -/
def viewedRegs : List (Nat × Nat) :=
  [(0x500140, 0x500141), (0x501000, 0x501001), (0x50100A, 0x50100B), (0x501020, 0x501021), (0x502000, 0x503000), (0x503400, 0x503404),
    (0x503500, 0x503501), (0x503700, 0x503740), (0x504010, 0x504011), (0x504028, 0x504029), (0x504034, 0x504035), (0x505018, 0x505019),
    (0x50507C, 0x50507D), (0x506000, 0x506480), (0x507002, 0x507003), (0x508002, 0x508003), (0x508180, 0x5081C0), (0x509006, 0x509007),
    (0x509100, 0x509300), (0x50D004, 0x50D005), (0x50D020, 0x50D021), (0x50D0A0, 0x50D0AC), (0x50E002, 0x50E003), (0x50F05C, 0x50F05D),
    (0x510004, 0x510005), (0x510048, 0x510049), (0x511002, 0x511003), (0x513002, 0x513003)]

/-- A read of the register at a base address shows its fields alone. -/
def shownReg (base : Nat) : Bool := base % 0x1000 != 0x7F0 && !viewedRegs.any fun r => decide (r.1 ≤ base ∧ base < r.2)

/-- Byte o of the register at base reads m: each bit as its field has it, and 0 where no field stands or one that is only written (R14). -/
def ShowsByte (r : RegDesc) (base o m : Nat) (v : State) : Prop :=
  m < 256 ∧ ∀ i, i < 8 →
    let at_ := r.fields.filter fun f => f.acc != .wo && decide (f.lo ≤ 8 * o + i) && decide (8 * o + i < f.lo + f.w)
    bitOf m i = at_.any fun f => bitOf (v.rd (Fld.at base f.lo f.w f.rst)) (8 * o + i - f.lo)

/-- No byte of the access is defined in its block: no register stands there, or no active copy (R17, R26). -/
def undefinedAt (a n : Nat) : Bool :=
  if a % 0x1000 < 0x800 then (regAt a).isNone
  else match regAt (a - 0x800) with
    | some (r, b) =>
      !r.fields.any fun f => f.st && decide (f.lo < 8 * (a - 0x800 - b + n)) && decide (8 * (a - 0x800 - b) < f.lo + f.w)
    | none => true

/-- A write that its accessor is refused sets BRN_ERR.WERR with the accessor, and does nothing else (R82, R85). -/
def WriteErr (acc : Nat) (u t : State) : Prop :=
  t.rd F.BRN_ERR_WERR = 1 ∧ t.rd F.BRN_ERR_ACCESSOR = acc ∧ Frame [F.BRN_ERR_WERR, F.BRN_ERR_ACCESSOR] [] [] u t

/-- The registers of burner b that hold its bytes, and its flags (R82). -/
def brnByteReg (b : Fin 16) (k : Fin 17) : Fld := if k.val < 16 then F.BRN_B b k else F.BRN_FLAGS_TVCNZ b
/-- Their addresses. -/
def brnByteAddr (b : Fin 16) (k : Fin 17) : Nat := 0x503000 + 64 * b.val + if k.val < 16 then 0x30 + k.val else 6

/-! ### The timebase -/

/-- Network time comes from u to an instant of its cycle that lies ahead: exactly where it is interpolated on XO32, else at the first
tick at which it reaches or passes that instant (R47). -/
def Arrives (u : State) (i : Nat) (t : State) : Prop :=
  if u.tbFine then t.now = i
  else u.tb.slew.natAbs < 2 ^ 38 → later48 i t.now = false ∧
    (u.tb.slew = 0 → 0 < u.rd F.TB_INC_INC → t.now / 2 ^ 16 = u.now / 2 ^ 16 → (t.now - i) * 2 ^ 24 + t.tb.sub < u.rd F.TB_INC_INC)

/-- An armed announcement whose cycle is MCN or earlier, or one that was armed late, is due at a boundary where MCN takes the value
m (R53, R58). -/
def State.annDue (u : State) (m : Nat) : Bool :=
  (u.rd F.TB_SWCTL_MODE == 1 || u.rd F.TB_SWCTL_MODE == 2) && (u.tb.annLate || !mcnLater (u.rd F.TB_SWMCN_MCN) m)

/-- The timebase state after the boundary at which MCN becomes m: a due announcement, then a TB_CMD request, then the loss of the
offset or the retirement of the loop (R52, R53, R460). -/
def State.tbAfter (u : State) (m : Nat) : Nat :=
  let target := fun mode st => if mode = 1 then tbSeek else if mode = 2 then tbVirtual else st
  let st1 := if u.annDue m then target (u.rd F.TB_SWCTL_MODE) (u.rd F.TB_STAT_STATE) else u.rd F.TB_STAT_STATE
  let st2 := target u.tb.cmd st1
  if u.tbRetired then tbVirtual else if st2 = tbGrid ∧ !u.tbOfsOk then tbSeek else st2

/-- The address of TB_CMPi, a 48-bit LL register, and of its byte k. -/
def cmpBase (i : Fin 2) : Nat := 0x504040 + 8 * i.val
/-- Byte k of TB_CMPi. -/
def cmpByte (i : Fin 2) (k : Nat) : BitVec 24 := BitVec.ofNat 24 (cmpBase i + k)

/-! ### Sweune words (R81, R87 to R89, R96 to R102) -/

/-- The burner that issues the word, of a command that is one (R95, R103, R112). -/
def issuer : Instr → Option (Fin 16)
  | .clause b _ | .adc b _ | .sbc b _ | .cmpc b _ | .not b _ | .neg b _ | .inc b _ | .dec b _
  | .shl b _ | .shr b _ | .asr b _ | .rol b _ | .ror b _ | .swapn b _ | .btst b _ | .bset b _
  | .bclr b _ | .mulu b _ | .movp b _ | .addp b _ | .subp b _ | .cmpp b _ | .tst b _ | .ldp b _
  | .addpi b _ | .addpif b _ | .cmppi b _ | .movi b _ | .addi b _ | .subi b _ | .andi b _ | .ori b _
  | .xori b _ | .cmpi b _ | .adci b _ | .ldb b _ | .stb b _ | .xchg b _ | .cas b _ | .ldadd b _
  | .tset b _ | .tclr b _ | .br b _ | .jmp b _ | .call b _ | .nop b _ | .yield b _ | .wait b _
  | .waita b _ | .sleep b _ | .sleepa b _ | .sig b _ | .brk b _ | .eret b _ | .jr b _ | .callr b _
  | .rds b _ | .movf b _ | .setf b _ | .sett b _ | .crd b _ | .cwr b _ | .csync b _ | .c0Clr b _
  | .c0Mul b _ | .c0Mac b _ | .c0Msu b _ | .c0Mulu b _ | .c0Macu b _ | .c0Shra b _ | .c0Sata b _ | .c1Crcinit b _
  | .c1Crcfin b _ | .c1Feed b _ | .c1Bfx b _ | .c1Bfi b _ | .c1Brev b _ | .c1Popc b _ | .c3Madd b _ | .c3Msub b _
  | .c3Mmul b _ | .c3Minv b _ | .c3Pmul b _ | .c3Pmul2 b _ | .c3Mred b _ | .ciphCtr b _ | .ciphCcmenc b _ | .ciphCcmdec b _
  | .ciphCmacgen b _ | .ciphCmacver b _ | .ciphCbcmac b _ | .ciphImport b _ | .ciphGen b _ | .ciphPersist b _ | .ciphErase b _ | .ciphNarrow b _
  | .ciphSetk0 b _ | .ciphSetk1 b _ | .ciphRetire b _ => some b
  | _ => none

/-- The 24-bit word of a command that is one, bit for bit (R95, R103 to R112, R117 to R120, R305). -/
def wordOf : Instr → Nat
  | .clause _ f => clauseWord f
  | .adc _ f => alu2Word 0 f
  | .sbc _ f => alu2Word 1 f
  | .cmpc _ f => alu2Word 2 f
  | .not _ f => alu2Word 3 f
  | .neg _ f => alu2Word 4 f
  | .inc _ f => alu2Word 5 f
  | .dec _ f => alu2Word 6 f
  | .shl _ f => alu2Word 7 f
  | .shr _ f => alu2Word 8 f
  | .asr _ f => alu2Word 9 f
  | .rol _ f => alu2Word 10 f
  | .ror _ f => alu2Word 11 f
  | .swapn _ f => alu2Word 12 f
  | .btst _ f => alu2Word 13 f
  | .bset _ f => alu2Word 14 f
  | .bclr _ f => alu2Word 15 f
  | .mulu _ f => alu2Word 16 f
  | .movp _ f => alu2Word 17 f
  | .addp _ f => alu2Word 18 f
  | .subp _ f => alu2Word 19 f
  | .cmpp _ f => alu2Word 20 f
  | .tst _ f => alu2Word 21 f
  | .ldp _ f => ldpWord f
  | .addpi _ f => addpWord 0 f
  | .addpif _ f => addpWord 1 f
  | .cmppi _ f => addpWord 2 f
  | .movi _ f => aluIWord 0 f
  | .addi _ f => aluIWord 1 f
  | .subi _ f => aluIWord 2 f
  | .andi _ f => aluIWord 3 f
  | .ori _ f => aluIWord 4 f
  | .xori _ f => aluIWord 5 f
  | .cmpi _ f => aluIWord 6 f
  | .adci _ f => aluIWord 7 f
  | .ldb _ f => memWord 6 f
  | .stb _ f => memWord 7 f
  | .xchg _ f => atomWord 0 f
  | .cas _ f => atomWord 1 f
  | .ldadd _ f => atomWord 2 f
  | .tset _ f => atomWord 3 f
  | .tclr _ f => atomWord 4 f
  | .br _ f => brWord f
  | .jmp _ f => jmpWord 10 f
  | .call _ f => jmpWord 11 f
  | .nop _ f => sysWord 0 f.toNat
  | .yield _ f => sysWord 1 f.toNat
  | .wait _ f => sysWord 2 f.toNat
  | .waita _ f => sysWord 3 f.toNat
  | .sleep _ f => sysWord 4 f.toNat
  | .sleepa _ f => sysWord 5 f.toNat
  | .sig _ f => sysWord 6 f.toNat
  | .brk _ f => sysWord 7 f.toNat
  | .eret _ f => sysWord 8 f.toNat
  | .jr _ f => sysWord 9 f.toNat
  | .callr _ f => sysWord 10 f.toNat
  | .rds _ f => sysWord 11 f.toNat
  | .movf _ f => sysWord 12 f.toNat
  | .setf _ f => sysWord 13 f.toNat
  | .sett _ f => sysWord 14 f.toNat
  | .crd _ f => crWord 1 f
  | .cwr _ f => crWord 2 f
  | .c1Feed _ r => crWord 2 ⟨1, r, 5⟩
  | .csync _ f => adverbWord 3 f.cp.toNat f.rsv.toNat
  | .c0Clr _ f => cxWord 0 0 f.toNat
  | .c0Mul _ f => cxWord 0 1 f.toNat
  | .c0Mac _ f => cxWord 0 2 f.toNat
  | .c0Msu _ f => cxWord 0 3 f.toNat
  | .c0Mulu _ f => cxWord 0 4 f.toNat
  | .c0Macu _ f => cxWord 0 5 f.toNat
  | .c0Shra _ f => cxWord 0 6 f.toNat
  | .c0Sata _ f => cxWord 0 7 f.toNat
  | .c1Crcinit _ f => cxWord 1 0 f.toNat
  | .c1Crcfin _ f => cxWord 1 1 f.toNat
  | .c1Bfx _ f => cxWord 1 2 f.toNat
  | .c1Bfi _ f => cxWord 1 3 f.toNat
  | .c1Brev _ f => cxWord 1 4 f.toNat
  | .c1Popc _ f => cxWord 1 5 f.toNat
  | .ciphCtr _ f => cxWord 2 0 f.toNat
  | .ciphCcmenc _ f => cxWord 2 1 f.toNat
  | .ciphCcmdec _ f => cxWord 2 2 f.toNat
  | .ciphCmacgen _ f => cxWord 2 3 f.toNat
  | .ciphCmacver _ f => cxWord 2 4 f.toNat
  | .ciphCbcmac _ f => cxWord 2 5 f.toNat
  | .ciphImport _ f => cxWord 2 6 f.toNat
  | .ciphGen _ f => cxWord 2 7 f.toNat
  | .ciphPersist _ f => cxWord 2 8 f.toNat
  | .ciphErase _ f => cxWord 2 9 f.toNat
  | .ciphNarrow _ f => cxWord 2 10 f.toNat
  | .ciphSetk0 _ f => cxWord 2 11 f.toNat
  | .ciphSetk1 _ f => cxWord 2 12 f.toNat
  | .ciphRetire _ f => cxWord 2 13 f.toNat
  | .c3Madd _ f => c3Word 0 f
  | .c3Msub _ f => c3Word 1 f
  | .c3Mmul _ f => c3Word 2 f
  | .c3Minv _ f => c3Word 3 f
  | .c3Pmul _ f => c3Word 4 f
  | .c3Pmul2 _ f => c3Word 5 f
  | .c3Mred _ f => c3Word 6 f
  | _ => 0

/-- Burner b issues its next word in this state, and the fetch of it raises no exception (R78). -/
def State.ready (u : State) (b : Nat) : Bool :=
  u.coreUp && u.issues b && (fetchWord b 0 (issueMark b (firstWord u))).1.isNone

/-- The state in which the word that burner b issues does what it says: its issue is counted and the word fetched. -/
def State.fetched (u : State) (b : Nat) : State := (fetchWord b 0 (issueMark b (firstWord u))).2

/-- A word of burner b ends with PC at pc (R81, R96): beside the fields ks, the parts ps, the events ev and the burner's hidden
state x nothing changes but that a burner whose parking is requested parks here. -/
def WordEnds (b : Nat) (ks : List Fld) (ps : List Part) (ev : List Nat) (pc : Nat) (x : BurnerX) (v t : State) : Prop :=
  t.pc b = pc % 2 ^ 16 ∧ (∀ c, c ≠ b → t.bx c = v.bx c) ∧
  if v.on (F.BRN_STAT_PARKREQ b) then
    t.bstate b = stParked ∧ t.rd (F.BRN_STAT_PARKREQ b) = 0 ∧ t.rd (F.BRN_STAT_PARKF b) = 1 ∧
    t.bx b = { x with csync := none, stopping := false, await := 64 } ∧
    Frame (F.BRN_PC_PC b :: F.BRN_STAT_STATE b :: F.BRN_STAT_PARKREQ b :: F.BRN_STAT_PARKF b :: ks) (.brn :: ps)
      (ev ++ [16 + b]) v t
  else t.bx b = x ∧ Frame (F.BRN_PC_PC b :: ks) (.brn :: ps) ev v t

/-- Burner b takes an exception (R87 to R89, R91): the exception registers are written and nothing that the word would have done
happens; with EXC = 0 the burner enters its handler at BRN_EVEC, with EXC = 1 it is FAULTED at the word. -/
def ExcTaken (b cause cp addr info : Nat) (v t : State) : Prop :=
  let ks := [F.BRN_EPC_EPC b, F.BRN_EFLAGS_TVCNZ b, F.BRN_ECAUSE_CAUSE b, F.BRN_ECAUSE_CP b, F.BRN_ECAUSE_DBL b,
    F.BRN_EINFO_WORD b, F.BRN_EADDR_ADDR b] ++ (if cause = 5 then [F.BRN_SECVIOL] else [])
  t.rd (F.BRN_EPC_EPC b) = v.pc b ∧ t.rd (F.BRN_EFLAGS_TVCNZ b) = v.rd (F.BRN_FLAGS_TVCNZ b) ∧
  t.rd (F.BRN_ECAUSE_CAUSE b) = cause ∧ t.rd (F.BRN_ECAUSE_CP b) = cp ∧
  t.on (F.BRN_ECAUSE_DBL b) = v.on (F.BRN_STAT_EXC b) ∧
  t.rd (F.BRN_EINFO_WORD b) = info ∧ t.rd (F.BRN_EADDR_ADDR b) = addr ∧ (cause = 5 → Counts F.BRN_SECVIOL v t) ∧
  if v.on (F.BRN_STAT_EXC b) then
    t.bstate b = stFaulted ∧ t.rd (F.BRN_STAT_FAULTF b) = 1 ∧ Counts F.BRN_DBLFLT v t ∧
    Frame (F.BRN_STAT_STATE b :: F.BRN_STAT_FAULTF b :: F.BRN_DBLFLT :: ks) [] [16 + b] v t
  else t.rd (F.BRN_STAT_EXC b) = 1 ∧ WordEnds b (F.BRN_STAT_EXC b :: ks) [] [] (v.rd (F.BRN_EVEC_VEC b)) (v.bx b) v t

/-- The word w does P where its encoding is legal, and raises ILLEGAL otherwise (R97). -/
def IfLegal (b w : Nat) (legal : Bool) (v : State) (P : State → Prop) (t : State) : Prop :=
  if legal then P t else ExcTaken b 1 0 0 w v t

/-- The adverb w to coprocessor cp does P: an absent coprocessor raises ADVERB, an encoding that is not legal ILLEGAL (R97, R98,
R113). During a slice of the coprocessor's partition it is in flight until the slice ends, with nothing done yet, counted once (R42, R114,
R459). -/
def IfPresent (b cp w : Nat) (legal : Bool) (v : State) (P : State → Prop) (t : State) : Prop :=
  if bitOf v.cpresent cp then
    IfLegal b w legal v (fun t =>
      if v.bistPart = some (if cp = 2 then 10 else 18) then
        (v.whiskTest = none → Counts F.BIST_HOLD v t) ∧ t.issues b = false ∧
          (∃ a : Adverb, a.word = w ∧ t.bist = { v.bist with adverbs := v.bist.adverbs ++ [(b, a)] }) ∧
          Frame [F.BIST_HOLD] [.bist] [] v t
      else P t) t
  else ExcTaken b 3 cp 0 w v t

/-- The top bit of a value of w bits. -/
def sgn (w x : Nat) : Bool := decide (2 ^ (w - 1) ≤ x)

/-- Z and N of a result of w bits; the other flags stay (R102). -/
def znFlags (w r : Nat) (f : Flags) : Flags := ⟨r == 0, sgn w r, f.c, f.v, f.t⟩

/-- The flags of the sum x + y + c of w bits (R102). -/
def sumFlags (w x y c : Nat) (f : Flags) : Flags :=
  let r := (x + y + c) % 2 ^ w
  ⟨r == 0, sgn w r, decide (2 ^ w ≤ x + y + c), sgn w x == sgn w y && sgn w r != sgn w x, f.t⟩

/-- The difference x − y − c of w bits. -/
def diff (w x y c : Nat) : Nat := (((x : Int) - y - c) % 2 ^ w).toNat

/-- The flags of the difference x − y − c of w bits: C is the borrow (R102). -/
def diffFlags (w x y c : Nat) (f : Flags) : Flags :=
  let r := diff w x y c
  ⟨r == 0, sgn w r, decide (x < y + c), sgn w x != sgn w y && sgn w r != sgn w x, f.t⟩

/-- The word's one effect is byte register d and the flags. -/
def ByteRes (b d r : Nat) (f : Flags) (v t : State) : Prop :=
  t.breg b d = r ∧ t.flags b = f ∧
    WordEnds b [F.BRN_B b d, F.BRN_FLAGS_TVCNZ b] [] [] (v.pc b + 1) (v.bx b) v t

/-- The word's one effect is byte register d. -/
def RegRes (b d r : Nat) (v t : State) : Prop :=
  t.breg b d = r ∧ WordEnds b [F.BRN_B b d] [] [] (v.pc b + 1) (v.bx b) v t

/-- The word's one effect is the flags. -/
def FlagRes (b : Nat) (f : Flags) (v t : State) : Prop :=
  t.flags b = f ∧ WordEnds b [F.BRN_FLAGS_TVCNZ b] [] [] (v.pc b + 1) (v.bx b) v t

/-- The word's one effect is pointer Pp, and the flags where it writes them. -/
def PtrRes (b p r : Nat) (f : Flags) (v t : State) : Prop :=
  t.preg b p = r ∧ t.flags b = f ∧
    WordEnds b [F.BRN_B b (2 * p), F.BRN_B b (2 * p + 1), F.BRN_FLAGS_TVCNZ b] [] [] (v.pc b + 1) (v.bx b) v t

/-- A word has addressed coprocessor cp: all but the cipher engine count as busy for the next slice for 300 µs (R457), which the model counts
as ten ticks of XK32 (notes/assumptions/59.md). -/
def AdverbHeld (cp : Nat) (v t : State) : Prop :=
  t.bist = if cp = 2 then v.bist else { v.bist with advAge := 10 }

/-- The word's one effect is on the burner's hidden state: its context of coprocessor cp. -/
def CtxRes (b cp : Nat) (x : BurnerX) (v t : State) : Prop :=
  AdverbHeld cp v t ∧ WordEnds b [] [.bist] [] (v.pc b + 1) x v t

/-- What one half of a clause writes to its register, if it does, from the state before the word (R101). -/
def halfVal (b : Nat) (h : ClauseHalf) (v : State) : Option Nat :=
  let x := v.breg b h.d.toNat
  let y := v.breg b h.s.toNat
  [if h.d = h.s then none else some y, some h.s.toNat, some ((x + y) % 256), some (diff 8 x y 0), some (x &&& y), some (x ||| y),
    some (x ^^^ y), none].getD h.op.toNat none

/-- The flags that one half of a clause writes, if it does (R101). -/
def halfFlags (b : Nat) (h : ClauseHalf) (v : State) : Option Flags :=
  let x := v.breg b h.d.toNat
  let y := v.breg b h.s.toNat
  let f := v.flags b
  [none, none, some (sumFlags 8 x y 0 f), some (diffFlags 8 x y 0 f), some (znFlags 8 (x &&& y) f), some (znFlags 8 (x ||| y) f),
    some (znFlags 8 (x ^^^ y) f), some (diffFlags 8 x y 0 f)].getD h.op.toNat none

/-- The physical address of a window address (R76). -/
def windowAddr (b a : Nat) (v : State) : Nat := v.rd (F.BRN_W_BASE b (a / 2 ^ 14)) * 2 ^ 14 + a % 2 ^ 14

/-- An address lies in SRAM, in a bank that is not retired, in the context RAM or in the frame buffer (R25, R461). -/
def State.ramAt (v : State) (p : Nat) : Bool :=
  (decide (0x400000 ≤ p) && decide (p < 0x480000) && !bitOf (v.rd F.BIST_MEMRET_BANK) ((p - 0x400000) / 0x8000)) ||
    (decide (0x480000 ≤ p) && decide (p < 0x488000)) || (decide (0x490000 ≤ p) && decide (p < 0x4B0000))

/-- Burner b reaches a byte of RAM whole: the security maps leave it open, no memory test holds its segment, and no tag that is still to be
checked keeps it. -/
def State.ramOk (v : State) (b p : Nat) : Bool := v.ramAt p && !v.closedTo b p && !v.segTouched p 1 && !v.c2Hidden p && !v.cellHidden p

/-- An address that no store reaches: flash, the fine area, the boot ROM, a retired bank of SRAM, and what is unassigned (R25, R26). -/
def State.noStore (v : State) (p : Nat) : Bool := !v.ramAt p && (decide (p < 0x500000) || decide (0x514000 ≤ p))

/-- An address that no load reaches: a retired bank of SRAM, what is unassigned, and the boot ROM once it has handed over (R25, R26,
R496). -/
def State.noLoad (v : State) (p : Nat) : Bool :=
  v.noStore p && decide (0x400000 ≤ p) && !(decide (0x540000 ≤ p) && decide (p < 0x580000)) &&
    !(decide (0x600000 ≤ p) && decide (p < 0x608000) && !v.boot.handedOver)

/-- An ATOM word on the byte that Pp addresses (R108): put is the new byte by the old one, none where the word writes none, and
would what it would write; fin says the word's effect on registers and flags by the old byte. -/
def AtomRes (b p word : Nat) (put : Nat → Option Nat) (would : Nat → Nat) (ks : List Fld) (fin : Nat → State → Prop)
    (v t : State) : Prop :=
  let a := v.preg b p
  let ph := windowAddr b a v
  let r := busRead b ph 1 v
  if (v.on (F.BRN_W_EN b (a / 2 ^ 14)) && v.on (F.BRN_W_WE b (a / 2 ^ 14))) = false then ExcTaken b 4 0 ph word v t
  else
    (r.1 = .bus → ExcTaken b 4 0 ph word v t) ∧ (r.1 = .security → ExcTaken b 5 0 ph word v t) ∧
    (∀ m, r.1 = .ok m →
      (v.verdict b ph 1 true (would m) = .security → v.verdict b ph 1 true 2 ≠ .bus → ExcTaken b 5 0 ph word v t) ∧
      (v.verdict b ph 1 true (would m) = .bus → ExcTaken b 4 0 ph word v t) ∧
      (v.verdict b ph 1 true (would m) = .ok →
        let w := ((put m).map fun x => writeAt b (ownAddr b ph) 1 x r.2).getD r.2
        if w.boot.held then Frame [] [] [] w t else fin m t ∧ WordEnds b ks [] [] (w.pc b + 1) (w.bx b) w t)) ∧
    (v.ramOk b ph = true →
      let m := (v.byte ph).toNat
      let x := (put m).getD m
      t.byte ph = BitVec.ofNat 8 x ∧ (∀ c, c ≠ ph → t.byte c = v.byte c) ∧ fin m t ∧
        WordEnds b ks [.busData] [] (v.pc b + 1) (v.bx b) (v.setByte ph (BitVec.ofNat 8 x)) t)

/-- The byte at a coprocessor register for burner b, where the coprocessor defines it (R117, R118, R120; of the cipher engine R304). C3 is
busy too while the update block verifies a lock command with it (R454). -/
def State.cpByte (v : State) (b cp cr : Nat) : Option Nat :=
  let x := v.bx b
  let byte := fun n k => n / 256 ^ k % 256
  match cp with
  | 0 =>
    if cr < 2 then some (byte x.c0x cr) else if cr < 4 then some (byte x.c0y (cr - 2))
    else if cr < 9 then some (byte x.c0a (cr - 4)) else if cr = 9 then some x.c0stat else none
  | 1 =>
    if cr < 4 then some (byte (x.c1s % 2 ^ crcWidth x.c1cfg) cr) else if cr = 4 then some x.c1cfg else if cr = 5 then some 0
    else if 0x10 ≤ cr ∧ cr < 0x14 then some (byte x.c1src (cr - 0x10))
    else if 0x14 ≤ cr ∧ cr < 0x18 then some (byte x.c1res (cr - 0x14)) else none
  | 2 => c2Read (v.c2Set b) cr
  | _ =>
    let busy := v.c3.busy || v.upd.lock.isSome
    if cr < 0x200 then some (if busy then 0 else byte (v.c3.vv (cr / 32)) (cr % 32))
    else if cr = 0x200 then
      some ((if busy then 1 else 0) + (if v.c3.err then 2 else 0) + (if v.c3.abort then 4 else 0) + 16 * v.c3.issuer)
    else if cr = 0x201 then some (if busy then 0 else v.c3.mod) else none

/-- One bit passes through a CRC of width w (R118): to the left with the polynomial, or reflected. -/
def crcBit (w poly : Nat) (ref : Bool) (s bit : Nat) : Nat :=
  if ref then s / 2 ^^^ (if (s + bit) % 2 = 1 then revBits w poly else 0)
  else 2 * s % 2 ^ w ^^^ (if (s / 2 ^ (w - 1) + bit) % 2 = 1 then poly else 0)

/-! ### The Whisk (R122 to R131) and resets -/

/-- From u to t no source produces an event, and nothing changes but what firings of channels reach. -/
structure FireFrame (u t : State) : Prop where
  fired : t.fired = u.fired
  regs : ∀ f : Fld, eventBit f.bit = false → t.rd f = u.rd f
  mem : ∀ a, t.byte a = u.byte a
  parts : ∀ p : Part, p.same u t

/-- A channel that is driven now fires: its group neither stopped nor under self-test (R136). -/
def State.canFire (u : State) (c : Nat) : Bool :=
  !bitOf (u.rd F.WHISK_GRPRET_RET) (c / 8) && !(u.whiskTest == some (c / 8))

/-- A channel that is driven now fires, but the firing is held: its group is under self-test (R136). -/
def State.holdsFire (u : State) (c : Nat) : Bool :=
  !bitOf (u.rd F.WHISK_GRPRET_RET) (c / 8) && u.whiskTest == some (c / 8)

/-- The channels cs have fired once each from u to t, in this order, and so have those of hs, whose firings are held (R124, R125, R131,
R136, R137): flags, overruns, burner wakes, task inputs, what is withheld from open channels beside so many source events, what a held
firing will reach, and the groups that count as busy. -/
def ChannelsFired (sources : Nat) (cs hs : List Nat) (u t : State) : Prop :=
  let far := fun c n => u.on (F.WHISK_CFG_SEC c) || !u.brnSecure n
  let reach := fun c k => (taskBlock k).any fun blk => u.on (F.WHISK_CFG_SEC c) || !u.blkSecure blk
  let drives := fun c k => u.on (F.WHISK_TASK_EN k) && u.rd (F.WHISK_TASK_CH k) == c && (taskBlock k).isSome
  let withheld := sources + ((cs ++ hs).map fun c =>
    ((List.range 16).filter fun n => bitOf (u.rd (F.WHISK_WAKE_MASK c)) n && !far c n).length +
      ((List.range 128).filter fun k => drives c k && !reach c k).length).sum
  (∀ c, c < 64 → bitOf (t.rd F.WHISK_FLAG_FLAG) c = (bitOf (u.rd F.WHISK_FLAG_FLAG) c || cs.contains c)) ∧
  (∀ c, c < 64 → bitOf (t.rd F.WHISK_OVRF_OVR) c =
    (bitOf (u.rd F.WHISK_OVRF_OVR) c || (cs.contains c && bitOf (u.rd F.WHISK_FLAG_FLAG) c))) ∧
  (∀ c, c < 64 → t.rd (F.WHISK_OVR c) =
    if cs.contains c && bitOf (u.rd F.WHISK_FLAG_FLAG) c then min (u.rd (F.WHISK_OVR c) + 1) 65535 else u.rd (F.WHISK_OVR c)) ∧
  (∀ n, n < 16 → ∀ c, c < 64 → bitOf (t.rd (F.BRN_WPEND_PEND n)) c =
    (bitOf (u.rd (F.BRN_WPEND_PEND n)) c || (cs.contains c && bitOf (u.rd (F.WHISK_WAKE_MASK c)) n && far c n))) ∧
  t.taskq = u.taskq ++ cs.flatMap (fun c => (List.range 128).filter fun k => drives c k && reach c k) ∧
  t.rd F.WHISK_SECMASK = min (u.rd F.WHISK_SECMASK + withheld) 65535 ∧
  t.on F.WHISK_ERR_SECMASK = (u.on F.WHISK_ERR_SECMASK || decide (0 < withheld)) ∧
  t.whiskHeld = u.whiskHeld ++ hs.map (fun c =>
    ⟨c, u.rd (F.WHISK_WAKE_MASK c) != 0, (List.range 16).filter (fun n => bitOf (u.rd (F.WHISK_WAKE_MASK c)) n && far c n),
      (List.range 128).filter (fun k => drives c k && reach c k)⟩) ∧
  t.rd F.BIST_HOLD = min (u.rd F.BIST_HOLD + hs.length) 65535 ∧
  (∀ g, g < 8 → t.whiskAge.getD g 0 = if (cs ++ hs).any (fun c => c / 8 == g) then 10 else u.whiskAge.getD g 0)

/-- Source n produces an event from u to t, from a secure block or not (R122, R124, R125, R131): every enabled channel that selects it
fires, but an open one not where the source is secure: its flag and overrun stay, and SECMASK sets and counts once for the event. -/
def SourceFires (n : Nat) (isSecure : Bool) (u t : State) : Prop :=
  let selects := (List.range 64).filter fun c => u.on (F.WHISK_CFG_EN c) && u.rd (F.WHISK_CFG_SRC c) == n
  let fires := selects.filter fun c => u.on (F.WHISK_CFG_SEC c) || !isSecure
  Fires n u t ∧ ChannelsFired (if fires.length < selects.length then 1 else 0) (fires.filter u.canFire) (fires.filter u.holdsFire) u t

/-- Task input k, driven while the blocks have nothing left to do, does what a command does (R124, R134): the blocks are left as the command
leaves them, but for the events that are reported and what the column ports show as sent. -/
def TaskDoes (k : Nat) (c : Instr) (s : State) : Prop :=
  ∃ t, exec c s = .next t ∧ (t.taskq = [] → forget (settle { s with taskq := [k] }) = forget (settle t))

/-- The task inputs that set or clear one bit: the task, the field, and its value (R248, R281, R434). -/
def taskBits : List (Nat × Fld × Nat) :=
  [(98, F.MAC_CTL_TXHALT, 1), (99, F.MAC_CTL_TXHALT, 0), (104, F.FWD_CTL_HOLDQ, 1), (105, F.FWD_CTL_HOLDQ, 0), (121, F.HP_CTL_HREQSW, 1),
    (122, F.HP_CTL_HREQSW, 0)]

/-- Every register field from byte address lo to hi - 1 is at its reset value. -/
def ResetIn (lo hi : Nat) (t : State) : Prop :=
  ∀ f : Fld, 8 * lo ≤ f.bit → f.bit < 8 * hi → t.rd f = f.rst % 2 ^ f.w

/-- Every register field from byte address lo to hi - 1 is as it was. -/
def SameIn (lo hi : Nat) (u t : State) : Prop :=
  ∀ f : Fld, 8 * lo ≤ f.bit → f.bit < 8 * hi → t.rd f = u.rd f

/-! ### Receptions (R155 to R163, R195) -/

/-- Of the sixteen slots of the lanes only slot j of lane n has changed, to x. -/
def SlotIs (n j : Nat) (x : Slot) (u t : State) : Prop :=
  t.slot n j = x ∧ (∀ i, i < 8 → ∀ k, k < 2 → i ≠ n ∨ k ≠ j → t.slot i k = u.slot i k) ∧
  { t.mod with slots := [], pullSlot := none, rxq := [] } = { u.mod with slots := [], pullSlot := none, rxq := [] }

/-- What the MAC's open window sees of the modem: the slots new that leave IDLE hold it, and a DET is remembered (R253). -/
def WinSees (new : List Nat) (det : Bool) (u t : State) : Prop :=
  t.mac = if u.on F.MAC_STAT_WIN then
    { u.mac with holders := u.mac.holders ++ new.filter (fun k => !u.mac.holders.contains k), det := u.mac.det || det }
  else u.mac

/-- The fields that a pull of the LO writes. -/
def pullFlds : List Fld := [F.MOD_PULL_ACTIVE, F.MOD_PULL_LANE, F.MOD_PULL_STEPS, F.FE_LOACT_LO]

/-- The LO runs at its programmed frequency plus the pull's steps (R161, R163, R179). -/
def LoAt (steps : Int) (u t : State) : Prop :=
  t.rd F.FE_LOACT_LO = ofInt ((u.rd F.FE_LO_INT * 2 ^ 24 + u.rd F.FE_LO_FRAC : Nat) + steps) 32

/-- Slot j of lane n is IDLE, and the pull it held has ended; a commit that waits for it may take place (R156, R163, R167). -/
def SlotFreed (n j : Nat) (ks : List Fld) (ev : List Nat) (u t : State) : Prop :=
  SlotIs n j {} u t ∧ WinSees [] false u t ∧
  (if u.mod.pullSlot = some (2 * n + j) then
    t.rd F.MOD_PULL_ACTIVE = 0 ∧ t.rd F.MOD_PULL_STEPS = 0 ∧ LoAt 0 u t ∧ t.mod.pullSlot = none
  else t.mod.pullSlot = u.mod.pullSlot) ∧
  (if u.on (cmtPend 0x509) then Within [0x509] (F.WHISK_CMTBLK_BLK :: F.FE_LOACT_LO :: ks) [] [.mod, .mac] (1 :: ev) u t
  else Frame ((if u.mod.pullSlot = some (2 * n + j) then pullFlds else []) ++ ks) [.mod, .mac] ev u t)

/-- The counter that the ending of a reception adds to, by its status (R173). -/
def endCount (n status : Nat) : List Fld :=
  match status with
  | 0 | 1 => [F.LANE_GOOD n]
  | 2 => [F.LANE_CRCBAD n]
  | 3 | 4 => [F.LANE_HDRBAD n]
  | 5 => [F.LANE_LOST n]
  | 6 => [F.RX_ABORT_TX n]
  | 7 => [F.RX_ABORT_FE n]
  | _ => []

/-- A fault of a kind at a channel's centre counts in every channel entry that it matches (R195). -/
def ChanCounts (bit ofs : Nat) (u t : State) : Prop :=
  ∀ k, k < 16 → t.rd (F.FE_CHST_CUR k) =
    if bitOf (u.rd F.FE_CHMASK_MASK) bit && u.on (F.FE_CHF_EN k) &&
        decide ((u.centre ofs - hzScaled (50 * u.rd (F.FE_CHF_FREQ k))).natAbs * 4 ≤ bwHz (u.rd (F.FE_CHF_BW k)) * 2 ^ 24)
    then min (u.rd (F.FE_CHST_CUR k) + 1) (2 ^ (F.FE_CHST_CUR k).w - 1) else u.rd (F.FE_CHST_CUR k)

/-- The lane's record of the reception that has ended in slot j (R159). -/
def LaneRecord (n j status : Nat) (x : Slot) (t : State) : Prop :=
  t.rd (F.LANE_RES_NID n) = x.nid % 2 ^ 10 ∧ t.rd (F.LANE_RES_SLOT n) = j ∧ t.rd (F.LANE_RES_STATUS n) = status ∧
  t.rd (F.LANE_RES_CHK n) = x.hdr / 2 ^ 12 % 4 ∧ t.rd (F.LANE_RES_RATE n) = x.hdr / 2 ^ 14 % 4 ∧
  t.rd (F.LANE_RES_K n) = x.k % 16 ∧ t.rd (F.LANE_RES_LEN n) = x.hdr / 2 ^ 16 % 256 ∧
  t.rd (F.LANE_META_FOFS n) = x.fofs % 2 ^ 24 ∧ t.rd (F.LANE_META_SNR n) = x.snr % 2 ^ (F.LANE_META_SNR n).w ∧
  t.rd (F.LANE_META_RSSI n) = x.rssi % 2 ^ (F.LANE_META_RSSI n).w ∧
  t.rd (F.LANE_TS_MCN n) = x.ts / 2 ^ 16 % 2 ^ 32 ∧ t.rd (F.LANE_TS_FRAC n) = x.ts % 2 ^ 16

/-- The fields of lane n that the ending of a reception writes. -/
def endFlds (n : Nat) : List Fld :=
  [F.LANE_RES_NID n, F.LANE_RES_SLOT n, F.LANE_RES_STATUS n, F.LANE_RES_CHK n, F.LANE_RES_RATE n, F.LANE_RES_K n, F.LANE_RES_LEN n,
    F.LANE_META_FOFS n, F.LANE_META_SNR n, F.LANE_META_RSSI n, F.LANE_TS_MCN n, F.LANE_TS_FRAC n]

/-- The reception of slot j of lane n ends with a status: its record, its counter, the channel's fault count, END, and the slot is
free (R156, R159, R195). -/
def RecEnds (n j status : Nat) (x : Slot) (u t : State) : Prop :=
  let bit := if status = 2 ∨ status = 3 ∨ status = 4 then some 1 else if status = 5 then some 2 else none
  LaneRecord n j status x t ∧ (∀ f ∈ endCount n status, Counts f u t) ∧
  (∀ k, bit = some k → ChanCounts k (u.rd (F.LANE_OFS_OFS n)) u t) ∧
  SlotFreed n j (endFlds n ++ endCount n status ++ (if bit = none then [] else (List.range 16).map F.FE_CHST_CUR)) [98 + 3 * n] u t

/-- The events of commits, the front end, the ends of receptions, the MAC and the forwarding engine: what an event of the radio can
bring about there (R138). -/
def radioEvents : List Nat := 1 :: List.range' 88 8 ++ (List.range 8).map (98 + 3 * ·) ++ List.range' 136 32

/-- The first valid gain entry of a list (R180). -/
def firstGain (u : State) (l : List Nat) : Option Nat := l.find? fun g => u.on (F.FE_GAINTAB_VALID g)

/-! ### The column ports (R213 to R223) -/

/-- Of the two ports' hidden states only that of port p has changed, to x. -/
def PortIs (p : Nat) (x : CpState) (u t : State) : Prop := t.cpx p = x ∧ t.cpx (1 - p) = u.cpx (1 - p)

/-- The same, of port p all but what it sends, after what it had sent: its blocks, their order, and the scrambler's transmit register. -/
def PortNear (p : Nat) (x : CpState) (u t : State) : Prop :=
  { t.cpx p with line := [], linePam := 0, txScr := 0 } = { x with line := [], linePam := 0, txScr := 0 } ∧
  (u.cpx p).line <+: (t.cpx p).line ∧ t.cpx (1 - p) = u.cpx (1 - p)

/-- The blocks that port p has sent from u to t. -/
def sentBlocks (p : Nat) (u t : State) : List LineBlock := (t.cpx p).line.drop (u.cpx p).line.length

/-- What a port holds as it enters a stage of training (R205, R211, R212): the length of the stage, the scrambler at 7F_FFFFh where the
port begins to send, a descrambler that has to find its place where the far end begins to, no codeword. -/
def CpState.entering (x : CpState) (leader : Bool) (baud stage : Nat) : CpState :=
  let len := if x.warm then (if baud = 0 then 900 else 225)
    else ((if baud = 0 then [7500, 7500, 3750, 1875, 1875] else [1875, 1875, 938, 469, 469] : List Nat)).getD (stage - 1) 0
  { x with
    left := len
    txScr := if stage = 3 ∨ stage = (if leader then 1 else 2) then 2 ^ 23 - 1 else x.txScr
    rxSync := x.rxSync && stage != 2 && (stage != 3 || x.warm)
    txWord := [], rxWord := [] }

/-- The blocks that line blocks carry, to a descrambler whose register is r (R205). -/
def unline : Nat → List LineBlock → List Block
  | _, [] => []
  | r, l :: t => (fromLine l r).1 :: unline (fromLine l r).2 t

/-- The CRC-16 over P0 to P5 of an INFO block (R213). -/
def infoSum (b : Nat) : Nat :=
  (List.range 48).foldl (fun c i => crcBit 16 0x1021 false c (b / 2 ^ (8 * (i / 8) + 7 - i % 8) % 2)) 0xFFFF

/-- A payload is that of a good INFO block (R213). -/
def infoGood (b : Nat) : Bool := b % 256 == 0x4B && b / 2 ^ 14 % 4 == 0 && b / 2 ^ 46 % 4 == 0 && b / 2 ^ 48 == infoSum b

/-- A block is the INFO block that port p sends in state u with a STAGE and a COUNT, of an end that has computed an order and whether the
code is on (R213). -/
def InfoSent (p stage count chosen : Nat) (rson : Bool) (u : State) (k : Block) : Prop :=
  let b := k.word
  k.hdr = 2 ∧ infoGood b = true ∧ b / 2 ^ 8 % 8 = stage ∧ bitOf b 11 = u.on (F.CP_CFG_ROLE p) ∧ bitOf b 12 = (u.cpx p).warm ∧
  b / 2 ^ 13 % 2 = u.rd (F.CP_STAT_BAUD p) ∧ b / 2 ^ 16 % 2 ^ 16 = count % 2 ^ 16 ∧
  b / 2 ^ 32 % 2 ^ 8 = (if 4 ≤ stage then u.rd (F.CP_SNR_OWN p) else 0) ∧ b / 2 ^ 40 % 4 = u.rd (F.CP_CFG_MAXPAM p) ∧
  b / 2 ^ 42 % 4 = chosen % 4 ∧ bitOf b 44 = u.on (F.CP_CFG_RS p) ∧ bitOf b 45 = rson

/-- Port p is in a state and stage; TRAIN fires at a change, UP on entering DATA and DOWN on leaving it (R218). -/
def PortAt (p st stage : Nat) (u t : State) : Prop :=
  t.cpSt p = st ∧ t.rd (F.CP_STAT_STAGE p) = stage ∧
  (u.cpSt p ≠ st ∨ u.rd (F.CP_STAT_STAGE p) ≠ stage → Fires (123 + 8 * p) u t) ∧
  (st = cpData → u.cpSt p ≠ cpData → Fires (120 + 8 * p) u t) ∧ (u.cpSt p = cpData → st ≠ cpData → Fires (121 + 8 * p) u t)

/-- What an event of port p may change: its registers, its commit, its snapshot, and what the engine, the MAC and the cipher make of a
link that goes down or of a frame. -/
def PortFrame (p : Nat) (u t : State) : Prop :=
  Within [cpPage p, 0x50C, 0x50D, 0x50E] [F.WHISK_CMTBLK_BLK, F.BIST_HOLD, F.HOLD_BLOCKED] [(0x480000, 0x488000), (0x490000, 0x4B0000)]
    [.cp, .fwd, .mac, .freeSeq] (1 :: List.range' (120 + 8 * p) 8 ++ List.range' 136 39) u t

/-- Port p may start warm at a baud: the conditions of R216 on its snapshot. -/
def WarmFits (p baud : Nat) (u : State) : Bool :=
  let a := 0x480000 + u.rd (F.CP_SNAP_OFS p) * 0x200
  u.on (F.CP_CFG_WARM p) && u.leAt (a + 8) 4 == crc32 (u.bytes a 8 ++ u.bytes (a + 16) 496) && u.leAt (a + 6) 1 % 2 == baud &&
    decide ((u.rd F.RTC_SECCNT + 2 ^ 32 - u.leAt a 4) % 2 ^ 32 < 600) &&
    decide ((signed (u.leAt (a + 4) 2) 16 - signed (u.rd F.PWR_TEMP_DEG) 16).natAbs < 20)

/-- Port p is retired from u to t: it is silent at once, TRAIN fires at the change, and RETIRE (R218, R220). -/
def PortRetires (p : Nat) (u t : State) : Prop :=
  PortAt p cpRetired 0 u t ∧ t.on (F.CP_STAT_RET p) = true ∧ Fires (127 + 8 * p) u t ∧ (t.cpx p).silence = .no

/-- A training or link of port p fails with a code (R219, R220): recorded, counted and stamped; the eighth failure within 600 s
retires the port, else it stops its transmitter for 4 ms, in the state in which it is. -/
def PortFails (p code : Nat) (u t : State) : Prop :=
  let now := u.rd F.RTC_SECCNT
  let stamps := (now :: (u.cpx p).fails).take 8
  t.rd (F.CP_TRFAIL_REASON p) = code ∧ t.rd (F.CP_TRFAIL_STAGE p) = u.rd (F.CP_STAT_STAGE p) ∧ Counts (F.CP_TRFAILS p) u t ∧
  (t.cpx p).fails = stamps ∧ (t.cpx p).fellBack = false ∧ (t.cpx p).far = none ∧
  if stamps.length = 8 ∧ (now + 2 ^ 32 - stamps.getD 7 0) % 2 ^ 32 ≤ 600 then PortRetires p u t
  else
    t.cpSt p = u.cpSt p ∧ t.rd (F.CP_STAT_STAGE p) = u.rd (F.CP_STAT_STAGE p) ∧ ¬ Fires (123 + 8 * p) u t ∧
      (t.cpx p).silence = .base ∧ (t.cpx p).waitMs = if u.on (F.CP_CFG_ROLE p) then 10 * u.rd (F.CP_RETRY_WAIT p) else 0

/-- A snapshot of port p stands at its place (R217): seconds, temperature, settings, and the CRC over the whole. -/
def SnapAt (p : Nat) (u t : State) : Prop :=
  let a := 0x480000 + u.rd (F.CP_SNAP_OFS p) * 0x200
  t.leAt a 4 = u.rd F.RTC_SECCNT ∧ t.leAt (a + 4) 2 = u.rd F.PWR_TEMP_DEG ∧
  t.leAt (a + 6) 2 = u.rd (F.CP_STAT_BAUD p) + 2 * u.rd (F.CP_STAT_PAM p) + 8 * u.rd (F.CP_STAT_RSON p) ∧
  t.leAt (a + 8) 4 = crc32 (t.bytes a 8 ++ t.bytes (a + 16) 496) ∧ t.leAt (a + 12) 4 = 0

/-- The link of port p goes down (R210, R217 to R219): block lock and the frame that comes in end, a frame that goes out is cut short,
and the port falls silent; within 1 s of UP it is a FLAP. The state changes when the silence is over, with DOWN and the snapshot; a port that
retires changes at once. -/
def LinkDown (p : Nat) (u t : State) : Prop :=
  t.on (F.CP_STAT_BLK p) = false ∧ (t.cpx p).rx = none ∧ (t.cpx p).far = none ∧
  (u.portIdle (p + 1) = false → Counts (F.CP_TXABORT p) u t) ∧
  (t.cpSt p = cpRetired → Fires (121 + 8 * p) u t ∧
    (u.on (F.CP_SNAP_EN p) = true → u.fwd.txs = [] → u.fwd.cuts = [] → SnapAt p u t)) ∧
  if (u.rtcTicks + 2 ^ 47 - (u.cpx p).upAt) % 2 ^ 47 < 32768 then PortFails p 7 u t
  else t.cpSt p = cpData ∧ t.rd (F.CP_TRFAILS p) = u.rd (F.CP_TRFAILS p) ∧ (t.cpx p).silence = .base ∧ (t.cpx p).waitMs = 0

/-- One more error on a link (R221): at THR in a second ERR fires once, and with ACT the link goes down. -/
def PortErrs (p : Nat) (u t : State) : Prop :=
  let n := (u.cpx p).errs + 1
  let thr := u.rd (F.CP_ERRCFG_THR p)
  if u.cpUp p = false then t.cpSt p = u.cpSt p
  else if thr ≠ 0 ∧ thr ≤ n ∧ (u.cpx p).errFired = false then
    Fires (126 + 8 * p) u t ∧ if u.on (F.CP_ERRCFG_ACT p) then LinkDown p u t else t.cpSt p = cpData ∧ (t.cpx p).errs = n
  else t.cpSt p = cpData ∧ (t.cpx p).errs = n ∧ ¬ Fires (126 + 8 * p) u t

/-- Loss of signal at port p (R218, R219). -/
def PortLoses (p : Nat) (u t : State) : Prop :=
  if u.cpSt p = cpData then
    Fires (122 + 8 * p) u t ∧ Counts (F.CP_LOSCNT p) u t ∧ if u.cpUp p then LinkDown p u t else t.cpSt p = cpData
  else if u.cpSt p = cpTrain then
    Fires (122 + 8 * p) u t ∧ Counts (F.CP_LOSCNT p) u t ∧
      if (u.cpx p).far.isSome && u.cpTrains p then PortFails p 6 u t else t.cpSt p = cpTrain
  else t.cpSt p = u.cpSt p ∧ t.rd (F.CP_LOSCNT p) = u.rd (F.CP_LOSCNT p)

/-- Port p begins a training at a stage and baud, warm or cold; far is the INFO block by which a follower joins (R212, R216). -/
def TrainStarts (p : Nat) (y : CpState) (stage : Nat) (warm : Bool) (baud : Nat) (far : Option Nat) (u t : State) : Prop :=
  t.on (F.CP_STAT_WARMUSED p) = warm ∧ t.rd (F.CP_STAT_BAUD p) = baud ∧ PortAt p cpTrain stage u t ∧ PortFrame p u t ∧
    PortIs p { ({ y with warm := warm, far := none, chosen := 0, rson := false, silence := .no } : CpState).entering
      (u.on (F.CP_CFG_ROLE p)) baud stage with far := far } u t

/-- The order, 0 for none, and the code that an end computes in S4 from a block f of the other end (R214; a follower's MARGIN is its own:
notes/assumptions/88.md). -/
def State.rateChoice (u : State) (p f : Nat) : Nat × Bool :=
  let rs := u.on (F.CP_CFG_RS p) && bitOf f 44
  let fits := fun pam => decide (pam ≤ u.rd (F.CP_CFG_MAXPAM p)) && decide (pam ≤ f / 2 ^ 40 % 4) &&
    decide (4 * ([0, 14, 21, 27].getD pam 0 - (if rs then 2 else 0) + u.rd (F.CP_CFG_MARGIN p)) ≤
      min (u.rd (F.CP_SNR_OWN p)) (f / 2 ^ 32 % 256))
  ((([1, 2, 3].filter fits).getLast?).getD 0, rs)

/-- A block's time passes while port p trains, after which it holds z but for what it sends: in S3 and S4 it sends one block, a leader with
its own COUNT until that is at its end, a follower with the STAGE and COUNT it received last (R204, R212). -/
def BlockTime (p : Nat) (z : CpState) (u t : State) : Prop :=
  let stage := u.rd (F.CP_STAT_STAGE p)
  let leader := u.on (F.CP_CFG_ROLE p)
  let far := z.far.getD 0
  if u.cpTrains p = true ∧ (stage = 3 ∨ stage = 4) ∧ (leader = true → z.left ≠ 0) then
    PortNear p { z with left := z.left - 1 } u t ∧ (t.cpx p).linePam = 1 ∧
      ∃ k, unline (u.cpx p).txScr (sentBlocks p u t) = [k] ∧
        InfoSent p (if leader ∨ far / 2 ^ 8 % 8 < 3 then stage else far / 2 ^ 8 % 8)
          (if leader then z.left - 1 else far / 2 ^ 16 % 2 ^ 16) z.chosen z.rson u k
  else PortIs p z u t

/-- A descrambled block meets a link that is up (R209 to R211, R215, R221): frames with their counters, codewords; ABORT before any other
block is the failed S5 of the other end (notes/assumptions/98.md). -/
def LinkBlock (p : Nat) (b : Block) (y : CpState) (u t : State) : Prop :=
  let x := u.cpx p
  let errs := fun (ctr : Fld) (t : State) => Counts ctr u t ∧ PortErrs p u t
  if x.young = true ∧ b.kind = .abort then PortFails p 5 u t ∧ (t.cpx p).rx = none ∧ t.on (F.CP_STAT_BLK p) = false
  else if u.on (F.CP_STAT_RSON p) then
    let word := (x.rxWord.flatMap fun l => (leBytes 8 l.bits.toNat).map (·.toNat)) ++ (leBytes 8 b.word).map (·.toNat)
    if x.rxWord.length < 15 then
      PortIs p { y with rxWord := x.rxWord ++ [⟨BitVec.ofNat 2 b.hdr, BitVec.ofNat 64 b.word⟩] } u t ∧ Frame [] [.cp] [] u t
    else match rsDecode word with
      | none => Counts (F.CP_RSUNC p) u t ∧ PortErrs p u t ∧ (t.cpx p).rx = none ∧ (x.rx.isSome = true → Counts (F.CP_BLKERR p) u t)
      | some (_, n) => t.rd (F.CP_RSCORR p) = min (u.rd (F.CP_RSCORR p) + n) 65535
  else match x.rx, b.kind with
    | none, .start l => t.cpSt p = cpData ∧ (t.cpx p).rx = some l ∧ t.rd (F.CP_BLKERR p) = u.rd (F.CP_BLKERR p)
    | none, _ => PortIs p y u t ∧ Frame [] [.cp] [] u t
    | some r, .data l =>
      if 1536 < r.length + l.length then Counts (F.CP_LONG p) u t ∧ (t.cpx p).rx = none
      else t.cpSt p = cpData ∧ (t.cpx p).rx = some (r ++ l)
    | some r, .term l =>
      let f := r ++ l
      (t.cpx p).rx = none ∧
      if f.length < 10 then Counts (F.CP_RUNT p) u t
      else if 1536 < f.length then Counts (F.CP_LONG p) u t
      else if crc32 (f.take (f.length - 4)) = leNat (f.drop (f.length - 4)) then Counts (F.CP_RXOK p) u t ∧ Fires (124 + 8 * p) u t
      else errs (F.CP_CRCERR p) t
    | some _, .abort => Counts (F.CP_RXERRT p) u t ∧ (t.cpx p).rx = none
    | some _, .start l => errs (F.CP_BLKERR p) t ∧ (t.cpUp p = true → (t.cpx p).rx = some l)
    | some _, _ => errs (F.CP_BLKERR p) t ∧ (t.cpx p).rx = none

/-- A descrambled block, its INFO payload b where it is a good one, meets a port that listens or trains, which holds y once it is heard
(R212 to R216, R218, R219). -/
def TrainBlock (p : Nat) (k : Block) (y : CpState) (u t : State) : Prop :=
  let st := u.cpSt p
  let stage := u.rd (F.CP_STAT_STAGE p)
  let baud := u.rd (F.CP_STAT_BAUD p)
  let b := k.word
  let info := k.hdr == 2 && infoGood b
  let keeps := t.rd (F.CP_SNR_FAR p) = b / 2 ^ 32 % 256
  let hears := BlockTime p y u t ∧ Frame [] [.cp] [] u t
  let fails := fun (code : Nat) => PortFails p code u t ∧ PortFrame p u t
  if st = cpListen then
    let cold := b / 2 ^ 8 % 8 == 1
    let warm := b / 2 ^ 8 % 8 == 3 && bitOf b 12 && WarmFits p baud u
    if info = true ∧ bitOf b 11 = true ∧ b / 2 ^ 13 % 2 = baud ∧ (cold = true ∨ warm = true) then
      if u.on F.PWR_STAT_HOLD then Counts F.HOLD_BLOCKED u t ∧ PortIs p y u t ∧ Frame [F.HOLD_BLOCKED] [.cp] [] u t
      else keeps ∧ TrainStarts p y (if cold then 1 else 3) (!cold) baud (some b) u t
    else hears
  else if stage = 5 then (if k.hdr = 2 ∧ b % 256 = 0xE1 then fails 5 else hears)
  else if info = false then hears
  else if bitOf b 11 = u.on (F.CP_CFG_ROLE p) then fails 2
  else if b / 2 ^ 13 % 2 ≠ baud then (if u.on (F.CP_CFG_FALLBACK p) = true ∧ u.rd (F.CP_CFG_BAUD p) = 0 then hears else fails 8)
  else
    let c := if stage = 4 ∧ b / 2 ^ 8 % 8 = 4 ∧ b / 2 ^ 32 % 256 ≠ 0 then u.rateChoice p b else (y.chosen, y.rson)
    keeps ∧ Frame [F.CP_SNR_FAR p] [.cp] [] u t ∧ BlockTime p { y with far := some b, chosen := c.1, rson := c.2 } u t

/-- A block comes over the line of port p: nothing where the port hears none, else it is descrambled, and meets the port but for the block
that brings the first 23 bits after silence (R205). -/
def BlockHeard (p : Nat) (blk : LineBlock) (u t : State) : Prop :=
  let x := u.cpx p
  let heard := fromLine blk x.rxScr
  let y := { x with rxScr := heard.2, rxSync := true }
  if u.cpUp p then
    PortFrame p u t ∧ if x.rxSync then LinkBlock p heard.1 { y with young := false } u t else PortIs p y u t ∧ Frame [] [.cp] [] u t
  else if u.cpTrains p = true ∨ u.cpSt p = cpListen then
    if x.rxSync then TrainBlock p heard.1 y u t else BlockTime p y u t ∧ Frame [] [.cp] [] u t
  else PortIs p x u t ∧ Frame [] [.cp] [] u t

/-- Blocks come over the line of port p, each met as the one before it has left the port. -/
def BlocksHeard (p : Nat) : List LineBlock → State → State → Prop
  | [], u, t => Frame [] [] [] u t
  | b :: l, u, t => ∃ m, BlockHeard p b u m ∧ (m.cpx p).txCut = false ∧ (if l = [] then Frame [] [] [] m t else BlocksHeard p l m t)

/-- A reflection profile of port p has been captured (R223): the taps, and the fault at the largest of them beyond SKIP. -/
def Captured (p baud : Nat) (taps : List Nat) (u t : State) : Prop :=
  let val := fun k => signed (taps.getD k 0) 16
  let mag := signed (t.rd (F.CP_FAULT_MAG p)) 16
  let pk := (peakTap (u.rd (F.CP_REFLCFG_SKIP p)) taps).1
  (∀ k, k < 160 → t.rd (F.CP_REFLT_TAP p k) = taps.getD k 0 % 2 ^ 16) ∧ t.rd (F.CP_FAULT_VALID p) = 1 ∧
  (∀ k, k < 160 → u.rd (F.CP_REFLCFG_SKIP p) ≤ k → (val k).natAbs ≤ mag.natAbs) ∧
  (u.rd (F.CP_REFLCFG_SKIP p) < 160 → pk < 160 ∧ u.rd (F.CP_REFLCFG_SKIP p) ≤ pk ∧ mag = val pk) ∧
  t.on (F.CP_FAULT_SIGN p) = decide (mag < 0) ∧
  (∀ x, refineTap taps pk = some x → t.rd (F.CP_FAULT_DIST p) =
    roundDiv (x * min (max (u.rd (F.CP_REFLCFG_VF p)) 50) 100 * 2997924580) (16 * (if baud = 0 then 2500 else 625) * 1000000) % 2 ^ 16)

/-! ### The link MAC (R236 to R260) -/

/-- Something holds the MAC's RX request: LISTEN, an ack wait, the hold of R250, a window or its lead (R249, R250, R254, R256). -/
def MacKeeps (t : State) : Bool :=
  t.on F.MAC_CTL_EN && (t.on F.MAC_CTL_LISTEN || t.on F.MAC_STAT_AWAIT || t.mac.pwin || !t.mac.wins.isEmpty || !t.mac.leads.isEmpty)

/-- An RX request of the MAC's own ends with what it was for, unless something else keeps it; one that software set stands (R185). -/
def RxFollows (u t : State) : Prop :=
  (MacKeeps t = false → u.mac.rxOwn = true → t.on F.FE_STAT_RXREQ = false) ∧
  (u.mac.rxOwn = false → t.on F.FE_STAT_RXREQ = u.on F.FE_STAT_RXREQ)

/-- No attempt is in progress in t, and no ack wait holds the RX request (R248, R249). -/
def AttemptOver (u t : State) : Prop :=
  t.mac.tx = none ∧ t.rd F.MAC_STAT_TXACT = 0 ∧ t.rd F.MAC_STAT_AWAIT = 0 ∧ RxFollows u t

/-- What the MAC may change at an instant of its own: its registers and contexts, the RX request with what hangs on it, the commits
of the three blocks, and the frames of the forwarding engine. -/
def MacFrameOf (u t : State) : Prop :=
  Within [0x508, 0x509, 0x50C, 0x50D] [F.WHISK_CMTBLK_BLK, F.BIST_HOLD, F.CIPH_KEYERR] [(0x480000, 0x488000)]
    [.fe, .mod, .mac, .fwd, .freeSeq] radioEvents u t

/-- The same where network time moves on to that instant, over the cycles' boundaries before it. -/
def MacTimed (u t : State) : Prop :=
  Within [0x500, 0x504, 0x508, 0x509, 0x50C, 0x50D] [F.WHISK_CMTBLK_BLK, F.BIST_HOLD, F.CIPH_KEYERR] [(0x480000, 0x488000)]
    [.tb, .fe, .mod, .mac, .fwd, .freeSeq] (radioEvents ++ List.range' 32 8) u t

/-- Network time comes from u to the act of an instant i that comes the guard g before it, g n being the guard after n more cycles (R252 to
R255): exactly where it is interpolated, and in this cycle with the guard of now. -/
def ActComes (g : Nat → Nat) (i : Nat) (u t : State) : Prop :=
  u.tbFine = true →
    t.now = (u.now + nearing u.now (i - u.now) g) % 2 ^ 48 ∧
    (u.now + g 0 ≤ i → (i - g 0) / 2 ^ 16 = u.now / 2 ^ 16 → t.now = i - g 0)

/-- Network time comes from u to the end e of a window or slot, unless it has passed it. -/
def EndComes (e : Nat) (u t : State) : Prop :=
  if later48 e u.now then u.tbFine = true → t.now = e % 2 ^ 48 else t.now = u.now

/-- An instant is one of a schedule entry (R252). -/
def Sched.At (e : Sched) (i : Nat) : Prop :=
  i % 2 ^ 16 = e.frac % 2 ^ 16 ∧ (e.cyc < e.per → i / 2 ^ 16 % 2 ^ 32 % e.per = e.cyc)

/-- The MAC's hidden state but for whose the RX request is and which instants have had their acts. -/
def MacState.core (m : MacState) : MacState := { m with rxOwn := false, acted := [] }

/-! ### The forwarding engine (R276, R279) -/

/-- The lane whose radio settings a request has (R245). -/
def TxReq.lane (r : TxReq) (u : State) : Option Nat :=
  (List.range 8).find? fun n => u.laneLive n && u.rd (F.LANE_OFS_OFS n) == r.ofs && u.rd (F.LANE_CFG_BW n) == r.bw &&
    bitOf (u.rd (F.LANE_CFG_ORD n)) (r.k - 5)

/-- Frame f is put out for context c in class q (R276, R279, R285): the checks in their order and the first that fails drops it; one
that passes waits at the tail of its class, or in the hold list of a scheduled peer. -/
def FrameOut (f : FwdFrame) (c q pre : Nat) (u t : State) : Prop :=
  let p := u.ctxPort c
  let len := u.egressLen f c
  let i := 8 * p + q
  let ctl := u.tabAct 7 i
  let most := if p = 0 then (if u.ctxSlv c = 0 then 251 else 255) else if p ≤ 2 then 1532 else 1536
  let colour : Nat := if !bitOf ctl 63 then 0
    else if (bitOf ctl 62 && decide (2 ≤ pre)) || decide (u.fwd.ptok.getD i 0 < len) then 2
    else if (bitOf ctl 62 && pre == 1) || decide (u.fwd.ctok.getD i 0 < len) then 1 else 0
  let waits := (u.fwd.queue.filter fun e => e.port == p && e.cls == q).length
  let drops := fun ctr : Fld => Counts ctr u t ∧ Fires 154 u t ∧ t.fwd.queue = u.fwd.queue ∧ t.fwd.held = u.fwd.held
  if 4 < p then drops F.FWD_NOROUTE ∧ Fires 160 u t
  else if (p = 1 ∨ p = 2) ∧ u.cpSt (p - 1) ≠ cpData then drops F.FWD_LINKDOWN ∧ Fires 165 u t
  else if p ≠ 4 ∧ most < len then drops F.FWD_TOOLONG
  else if colour = 2 then drops F.FWD_REDDROP ∧ Fires 156 u t
  else
    t.fwd.ptok.getD i 0 = (if bitOf ctl 63 then u.fwd.ptok.getD i 0 - len else u.fwd.ptok.getD i 0) ∧
    t.fwd.ctok.getD i 0 = (if bitOf ctl 63 && colour == 0 then u.fwd.ctok.getD i 0 - len else u.fwd.ctok.getD i 0) ∧
    if colour = 1 ∧ ctl % 256 ≤ waits then drops F.FWD_YDROP
    else if ctl / 2 ^ 8 % 256 ≤ waits then drops F.FWD_QDROP
    else
      let e : QEnt := { num := f.num, port := p, cls := q, ctx := some c, len := len }
      t.ctxLe c 58 2 = min (u.ctxLe c 58 2 + 1) 65535 ∧ (t.frame f.num).map (·.uses) = some (f.uses + 1) ∧
      (p = 3 → Fires 153 u t) ∧ (p = 4 → Fires 152 u t) ∧
      if p = 0 ∧ u.ctxFlag c 2 = true then t.fwd.held = u.fwd.held ++ [e] ∧ t.fwd.queue = u.fwd.queue
      else t.fwd.queue = u.fwd.queue ++ [e] ∧ t.fwd.held = u.fwd.held

/-! ### Alarms, resets and Rest (R316, R350, R362) -/

/-- An alarm of an enabled cause is raised from u to t (R316, R465): the alarm and its erasure stand, slots that say so are empty, a
latched wrap key is destroyed, a cipher command ends aborted, secured frames that come in or go out on the radio are discarded, and the
debug port's level is 0. -/
def AlarmRaised (cause : Nat) (u t : State) : Prop :=
  t.rd F.LAR_STAT_ALARM = 1 ∧ t.rd F.LAR_STAT_ERASING = 1 ∧ t.rd F.FL_STAT_LARPEND = 1 ∧ Counts F.LAR_ALARMS u t ∧ Fires 171 u t ∧
  (∀ i, i < 7 → bitOf (t.rd F.LAR_ALMSRC_SRC) i = (bitOf (u.rd F.LAR_ALMSRC_SRC) i || i == cause)) ∧
  (∀ k, k < 128 →
    if bitOf (u.rd (F.LAR_ATTR_ATTR k)) 7 then
      t.on (F.LAR_ATTR_VALID k) = false ∧ t.rd (F.LAR_ATTR_ATTR k) = 0 ∧ t.ciph.keys.getD k 0 = 0
    else
      t.on (F.LAR_ATTR_VALID k) = u.on (F.LAR_ATTR_VALID k) ∧ t.rd (F.LAR_ATTR_ATTR k) = u.rd (F.LAR_ATTR_ATTR k) ∧
        t.ciph.keys.getD k 0 = u.ciph.keys.getD k 0) ∧
  (if u.on F.LARDER_POLICY_MODE then t.ciph.latch = none ∧ t.rd F.LAR_STAT_LWKOK = 0
    else t.ciph.latch = u.ciph.latch ∧ t.rd F.LAR_STAT_LWKOK = u.rd F.LAR_STAT_LWKOK) ∧
  t.ciph.op = none ∧ t.rd F.DBG_STAT_LEVEL = 0 ∧
  (u.inlineHeld = true →
    (∀ p, p < 2 → ∀ l, (t.cpx p).rx = some l → secured l = false) ∧ (∀ x ∈ t.mod.rxq, x.chk = 0) ∧
    (∀ n l, t.hp.tx = some (n, l) → secured l = false) ∧
    (∀ r, u.fe.tx = some r → r.req.chk ≠ 0 → u.fe_st = feRampup ∨ u.fe_st = feTx → t.fe_st = feRampdn)) ∧
  (∀ o, u.ciph.op = some o →
    (t.c2Set o.burner).abort = true ∧ (t.c2Set o.burner).err = false ∧ (t.c2Set o.burner).busy = false ∧ Fires 168 u t ∧ Fires 169 u t ∧
    let x := u.c2Set o.burner
    (o.fn ≤ 2 → o.checked = true → 0x400000 ≤ x.dst → x.dst + x.len ≤ 0x480000 → t.bytes x.dst x.len = List.replicate x.len 0)) ∧
  t.rd F.CIPH_ALARM_ABORT = min (u.rd F.CIPH_ALARM_ABORT + (if u.ciph.op.isSome then 1 else 0) +
    if u.inlineHeld then 1 else 0) 65535

/-- Every register field of a block, but for some, is at its reset value. -/
def PageReset (page : Nat) (but : List Fld) (t : State) : Prop :=
  ∀ f : Fld, f.bit / 0x8000 = page → (∀ k ∈ but, f.bit ≠ k.bit) → t.rd f = f.rst % 2 ^ f.w

/-- The fields that an erase of the device's own writes (R337, R339). -/
def eraseFlds : List Fld :=
  [F.FL_STAT_ERASE_SLOW, F.FL_ERASEINFO_PULSES, F.FL_ERASEINFO_COUNT, F.FL_RETMAIN_UNIT, F.FL_HALFMAIN_UNIT]

/-- The fields that a read of flash by the device writes, beside the count of a wait (R325, R326). -/
def readFlds : List Fld :=
  [F.FL_RETRYOK, F.FL_STAT_RETRYF, F.FL_ERRADDR_ADDR, F.FL_ECCHIGHS, F.FL_LASTRD_CORR, F.FL_LASTRD_SHIFT, F.FL_ECCUNCS]

/-- The memory of units of flash: first address and the one after the last. -/
def unitRam (l : List Nat) : List (Nat × Nat) := l.map fun n => (unitBase n, unitBase n + unitSize n)

/-- The core domain is reset from u to t and held (R93, R121, R170, R199, R225, R262, R295, R319, R341, R350, R352, R407, R432, R468):
burner control, the modem and the flash controller are at their reset values but for what is retired, XO32 is off and with it the sampling of
ZC_IN (R51, R52, R474), an erase of the Larder's is cut short (R337), every block that has an enable is disabled and idle, of the tasks that channels have driven those of the blocks outside it stand (R134), the watchdog, HOLD and Rest have ended, and a self-test slice, with which what it held is
delivered (R42); the schedules of the MAC, the timebase, the clock, and the debug port stay as they are. -/
def CoreReset (ks : List Fld) (u t : State) : Prop :=
  t.boot.held = true ∧ t.boot.started = false ∧ t.boot.handedOver = false ∧ t.boot.wait = none ∧ t.boot.parts = [] ∧
  t.rest = .running ∧ t.pwr.wake = false ∧ u.taskq.filter taskInRest <+: t.taskq ∧ (∀ k ∈ t.taskq, taskInRest k = true) ∧
  (∀ l ∈ t.latches, l.page < 0x500 ∨ 0x513 < l.page) ∧
  (∀ l ∈ t.holds, l.page < 0x500 ∨ 0x513 < l.page) ∧
  PageReset 0x503 [] t ∧ t.brn = List.replicate 16 {} ∧ t.c3 = {} ∧ t.rr = List.replicate 4 0 ∧
  t.rd F.SYS_CLK_SRC = 0 ∧ t.rd F.SYS_CLK_XOEN = 0 ∧ t.rd F.SYS_CLK_XORDY = 0 ∧ (u.on F.SYS_CLK_XORDY = true → t.rd F.SYS_CLK_PLLLOCK = 0 ∧
    t.rd F.TB_STAT_ZCOK = 0 ∧ (u.rd F.TB_STAT_STATE = tbGrid → t.rd F.TB_STAT_STATE = tbGrid → t.rd F.TB_STAT_HOLD = 1)) ∧
  t.rd F.PWR_WDTCFG_EN = 0 ∧ t.rd F.PWR_STAT_HOLD = 0 ∧ t.pwr.wdt = 0 ∧
  (∀ n, n < 8 → t.rd (F.TMR_STAT_RUN n) = 0) ∧ t.rd F.LIO_CTL_EN = 0 ∧ (t.rly 0).req = none ∧ (t.rly 1).req = none ∧
  t.rd F.FE_CTL_EN = 0 ∧ t.fe_st = feOff ∧ t.fe.tx = none ∧ t.fe.req = none ∧ t.fe.held = [] ∧
  PageReset 0x509 [F.MOD_RET_RET] t ∧ t.rd F.MOD_RET_RET = u.rd F.MOD_RET_RET ∧ t.mod = {} ∧
  (∀ p, p ≤ 1 → t.rd (F.CP_CTL_EN p) = 0 ∧ (t.cpx p).enHeld = none ∧ t.cpSt p = if u.cpSt p = cpRetired then cpRetired else cpOff) ∧
  t.rd F.MAC_CTL_EN = 0 ∧ t.mac.tx = none ∧ t.mac.waits = [] ∧ t.mac.owed = [] ∧ t.mac.ackTx = false ∧ t.mac.pwin = false ∧
  t.mac.leads = u.mac.leads ∧ t.mac.wins = u.mac.wins ∧ t.mac.skip = u.mac.skip ∧ t.rd F.MAC_STAT_TXACT = 0 ∧ t.rd F.MAC_STAT_ACKOWED = 0 ∧
  t.rd F.MAC_STAT_AWAIT = 0 ∧ t.rd F.MAC_STAT_WIN = u.rd F.MAC_STAT_WIN ∧ t.rd F.MAC_STAT_GUARDSAT = u.rd F.MAC_STAT_GUARDSAT ∧ (u.mac.tx.isSome = true → t.rd F.MAC_TXSTAT_RESULT = 8) ∧
  t.rd F.FWD_CTL_EN = 0 ∧ t.fwd.frames = [] ∧ t.fwd.queue = [] ∧ t.fwd.held = [] ∧ t.fwd.txs = [] ∧ t.fwd.cuts = [] ∧ t.fwd.waits = [] ∧
  t.rd F.CIPH_CTL_EN = 0 ∧ t.ciph.op = none ∧ t.ciph.sets = List.replicate 16 {} ∧ t.ciph.keys = u.ciph.keys ∧
  PageReset 0x50F [F.FL_STAT_RET] t ∧ t.rd F.FL_STAT_RET = u.rd F.FL_STAT_RET ∧ t.fl.op = none ∧ t.fl.others = [] ∧
  (u.on F.UPD_STAT_INSTALLING = false → u.upd.clearing = false → u.larErases = [] → t.fl.units = u.fl.units) ∧
  t.hp.rx = [] ∧ t.hp.tx = none ∧ t.rd F.HP_STAT_SEL = 0 ∧ t.rd F.HP_STAT_MASTER = 0 ∧
  t.rd F.UPD_STAT_READY = 0 ∧ t.rd F.UPD_STAT_INSTALLING = 0 ∧ t.upd.buf = [] ∧ t.upd.prog = none ∧
  t.rd F.BIST_CTL_EN = 0 ∧ t.rd F.BIST_STAT_RUN = 0 ∧ t.bistPart = none ∧ t.bist = { u.bist with run := false, seg := false, adverbs := [] } ∧
  Within ([0x503, 0x508, 0x509, 0x50A, 0x50B, 0x50C, 0x50D, 0x50E, 0x50F, 0x510] ++ (if u.bistPart = some 16 then [0x502] else []) ++
      (if u.bistPart = some 14 then [0x500, 0x504] else []))
    ((if u.on F.SYS_CLK_XORDY then [F.SYS_CLK_XORDY, F.SYS_CLK_PLLLOCK, F.TB_STAT_ZCOK, F.TB_STAT_HOLD] else []) ++
      [F.SYS_CLK_SRC, F.SYS_CLK_XOEN, F.PWR_WDTCFG_EN, F.PWR_STAT_HOLD, F.LIO_CTL_EN, F.LIO_RLYSTAT_PEND, F.LIO_RLYSTAT_LEVEL, F.UPD_STAT_READY,
      F.UPD_STAT_INSTALLING, F.UPD_IPROG_PAGES, F.BIST_CTL_EN, F.BIST_STAT_RUN, F.WHISK_CMTBLK_BLK] ++ (List.range 8).map F.TMR_STAT_RUN ++ ks)
    ([(0x480000, 0x488000)] ++ (match u.fl.op with | some (.word a _) => [(a, a + 8)] | _ => []) ++
      (match u.ciph.op with | some o => [((u.c2Set o.burner).dst, (u.c2Set o.burner).dst + (u.c2Set o.burner).len)] | none => []) ++
      (if u.on F.UPD_STAT_INSTALLING then [(slotBase u.idleSlot, slotBase u.idleSlot + 0x100000), (0x540000, 0x541000)] else []) ++
      (if u.upd.clearing then (0x540000, 0x541000) :: unitRam u.clearUnits else []) ++
      (if u.larErases = [] then [] else [(0x540000, 0x541000)]))
    ([.latches, .holds, .freeSeq, .rest, .whiskTest, .rr, .brn, .c3, .mod, .fe, .boot, .bistPart, .cp, .fwd, .mac, .ciph, .hp, .fl, .lio,
      .pwr, .upd, .bist] ++ (if u.bistPart = some 14 ∨ u.on F.SYS_CLK_XORDY = true then [.tb] else []))
    ([1, 88, 91, 121, 123, 129, 131, 168, 169, 173] ++ (if u.bistPart = some 14 then List.range' 32 8 ++ [141, 143] else []) ++
      (if u.on F.SYS_CLK_XORDY then [36] else []) ++
      (if u.on F.UPD_STAT_INSTALLING then [178, 179, 181] else []) ++ if u.upd.clearing ∨ u.larErases ≠ [] then [177, 181, 182] else [])
    { u with
      taskq := t.taskq, whiskHeld := if u.bistPart = some 16 then [] else u.whiskHeld
      whiskAge := if u.bistPart = some 16 then t.whiskAge else u.whiskAge, pwr := { u.pwr with wake := false } } t

/-- The fields that a reset of the always-on domain leaves as they are: the supplies, the fuses, and what the backup domain holds. -/
def aonKept : List Fld :=
  [F.PWR_STAT_ONBAT, F.PWR_STAT_MAINOK, F.PWR_STAT_NVILOW, F.PWR_STAT_VBATLOW, F.PWR_STAT_VDDIOLOW, F.LARDER_POLICY_MODE,
    F.LAR_STAT_LWKOK, F.LAR_STAT_ERASING, F.UPD_BOOT_ARB, F.DBG_STAT_KILLED]

/-- The always-on domain is reset from u to t for a cause, and the core domain with it (R350): every register outside the backup
domain has its reset value but for RSTCAUSE, which shows the cause alone, and what is fused or watched; SRAM, contexts and frames
are lost; keys are erased; the backup domain is left alone. -/
def AonReset (cause : Fld) (u t : State) : Prop :=
  t.boot.held = true ∧ t.boot.aon = true ∧ t.boot.started = false ∧ t.boot.handedOver = false ∧ t.rest = .running ∧
  (∀ page, 0x500 ≤ page → page < 0x514 → page ≠ 0x505 →
    PageReset page (F.PWR_RSTCAUSE_POR :: cause :: aonKept) t) ∧
  (∀ f ∈ aonKept, t.rd f = u.rd f) ∧ t.rd cause = 1 ∧ (cause ≠ F.PWR_RSTCAUSE_POR → t.rd F.PWR_RSTCAUSE_POR = 0) ∧
  SameIn 0x505000 0x506000 u t ∧ t.rtc = u.rtc ∧
  t.brn = List.replicate 16 {} ∧ t.c3 = {} ∧ t.rr = List.replicate 4 0 ∧ t.tb = {} ∧ t.mod = {} ∧ t.fe = {} ∧ t.cp = [{}, {}] ∧ t.fwd = {} ∧
  t.mac = {} ∧ t.ciph.op = none ∧ t.ciph.sets = List.replicate 16 {} ∧ t.ciph.keys = List.replicate 128 0 ∧
  t.ciph.latch = u.ciph.latch ∧ t.hp = {} ∧ t.lio = {} ∧ t.pwr = {} ∧ t.upd = {} ∧ t.bist = {} ∧ t.bistPart = none ∧ t.whiskTest = none ∧
  t.dbg = {} ∧ t.fl.op = none ∧ t.fl.units = u.fl.units ∧ t.fuse = u.fuse ∧ (∀ k ∈ t.taskq, taskBlock k = some 5) ∧
  (∀ b, b < 17 → t.ramLoss.getD b 0 = u.ramLoss.getD b 0 + 1) ∧ (∀ k, k < 0x8000 → t.byte (0x480000 + k) = 0)

/-! ### Timers and relays (R390, R391, R399, R400) -/

/-- Timer n's count rises by d from u to t (R390, R391): the wrap, the match against the old compare, the end of a one-shot, the
auto-add, and at a wrap the preloads. -/
def TimerAdds (n d : Nat) (u t : State) : Prop :=
  let c := u.rd (F.TMR_CNT_VAL n)
  let top := u.rd (F.TMR_TOPACT_VAL n)
  let cmp := u.rd (F.TMR_CMPACT_VAL n)
  let mode := u.rd (F.TMR_CFG_MODE n)
  let goes := decide (top < c + d)
  let land := (c + d) % (top + 1)
  let hit := decide (cmp ≤ top) && ((decide (c < cmp) && decide (cmp ≤ c + d)) || (goes && (decide (cmp ≤ land) || decide (2 ≤ (c + d) / (top + 1)))))
  if mode = 1 ∧ top ≤ c + d then
    t.rd (F.TMR_CNT_VAL n) = top ∧ t.rd (F.TMR_STAT_RUN n) = 0 ∧ t.rd (F.TMR_STAT_ENDF n) = 1 ∧ Fires (48 + 3 * n) u t ∧
      t.on (F.TMR_STAT_CMPF n) = (u.on (F.TMR_STAT_CMPF n) || (decide (c < cmp) && decide (cmp ≤ top))) ∧
      t.rd (F.TMR_CMPACT_VAL n) = cmp ∧ t.rd (F.TMR_TOPACT_VAL n) = top
  else
    t.rd (F.TMR_CNT_VAL n) = (if goes then land else c + d) ∧ t.rd (F.TMR_STAT_RUN n) = u.rd (F.TMR_STAT_RUN n) ∧
      t.on (F.TMR_STAT_CMPF n) = (u.on (F.TMR_STAT_CMPF n) || hit) ∧ (Fires (48 + 3 * n) u t ↔ hit = true) ∧
      if goes ∧ u.on (F.TMR_STAT_PRELD n) then
        t.rd (F.TMR_CMPACT_VAL n) = u.rd (F.TMR_CMP_VAL n) ∧ t.rd (F.TMR_TOPACT_VAL n) = u.rd (F.TMR_TOP_VAL n) ∧ t.rd (F.TMR_STAT_PRELD n) = 0
      else
        t.rd (F.TMR_CMPACT_VAL n) = (if hit ∧ mode = 2 then (cmp + u.rd (F.TMR_INTV_VAL n)) % (top + 1) else cmp) ∧
          t.rd (F.TMR_TOPACT_VAL n) = top ∧ t.rd (F.TMR_STAT_PRELD n) = u.rd (F.TMR_STAT_PRELD n)

/-- The fields of timer n that an increment writes. -/
def tmrFlds (n : Nat) : List Fld :=
  [F.TMR_CNT_VAL n, F.TMR_STAT_RUN n, F.TMR_STAT_ENDF n, F.TMR_STAT_CMPF n, F.TMR_CMPACT_VAL n, F.TMR_TOPACT_VAL n, F.TMR_STAT_PRELD n]

/-- Timer n's prescaler counter is x, the others' are as they were, and so is the rest of the block. -/
def PreIs (n x : Nat) (u t : State) : Prop :=
  t.lio.pre.getD n 0 = x ∧ (∀ m, m < 8 → m ≠ n → t.lio.pre.getD m 0 = u.lio.pre.getD m 0) ∧ { t.lio with pre := [] } = { u.lio with pre := [] }

/-- The counts from timer k's count to its next wrap, and the wraps these make (R390). -/
def State.tmrDue (u : State) (k : Nat) : Nat × Nat :=
  let c := u.rd (F.TMR_CNT_VAL k)
  let top := u.rd (F.TMR_TOPACT_VAL k)
  let d := max 1 (top + 1 - c)
  (d, (c + d) / (top + 1))

/-- Timer i is the high half of a cascade (R393). -/
def State.tmrCasc (u : State) (i : Nat) : Bool := i % 2 == 1 && u.rd (F.TMR_CFG_SRC i) == 8

/-- Timer i's source comes in the present power state (R389, R406). -/
def State.tmrClocked (u : State) (i : Nat) : Bool :=
  let src := fun j => u.rd (F.TMR_CFG_SRC j)
  let slow := fun j => src j == 2 || (decide (4 ≤ src j) && decide (src j ≤ 7))
  !u.inRest || slow i || (u.tmrCasc i && slow (i - 1))

/-- Timer k, no high half, comes from u to t to its next wrap, whose wraps the running timer above it counts where it is a high half
(R390, R391, R393). -/
def TimerWraps (k : Nat) (u t : State) : Prop :=
  let w := (u.tmrDue k).2
  let above := k % 2 == 0 && u.tmrCasc (k + 1)
  let fed := u.lio.pre.getD (k + 1) 0 + w
  let m := 2 ^ u.rd (F.TMR_CFG_PS (k + 1))
  TimerAdds k (u.tmrDue k).1 u t ∧
  Within [] (tmrFlds k ++ if above then tmrFlds (k + 1) else []) [] [.lio] [48 + 3 * k, 48 + 3 * (k + 1)] u t ∧
  if above ∧ u.on (F.TMR_STAT_RUN (k + 1)) ∧ w ≠ 0 then
    PreIs (k + 1) (fed % m) { u with lio := { u.lio with pre := setAt 0 u.lio.pre k 0 } } t ∧ (m ≤ fed → TimerAdds (k + 1) (fed / m) u t) ∧
      (fed < m → Within [] (tmrFlds k) [] [.lio] [48 + 3 * k] u t)
  else PreIs k 0 u t ∧ Within [] (tmrFlds k) [] [.lio] [48 + 3 * k] u t

/-- A running timer k is to count d, to an instant of its own: on a source that comes it does so, as P says; a high half counts in the
next wrap of the timer below, where that wrap brings it so far; else nothing (R389, R393). -/
def TimerRuns (k d : Nat) (P : State → Prop) (u t : State) : Prop :=
  let src := fun i => u.rd (F.TMR_CFG_SRC i)
  if u.tmrCasc k then
    if u.on (F.TMR_STAT_RUN (k - 1)) ∧ u.rd (F.TMR_CFG_MODE (k - 1)) ≠ 1 ∧ src (k - 1) < 8 ∧ u.tmrClocked (k - 1) ∧
        d ≤ (u.lio.pre.getD k 0 + (u.tmrDue (k - 1)).2) / 2 ^ u.rd (F.TMR_CFG_PS k) then TimerWraps (k - 1) u t
    else Frame [] [] [] u t
  else if src k < 8 ∧ u.tmrClocked k then P t
  else Frame [] [] [] u t

/-- The value, the CAPNEW bit and the CAPOVR bit of timer i's capture B or A. -/
def capFlds (i : Nat) (b : Bool) : Fld × Fld × Fld :=
  if b then (F.TMR_CAPB_VAL i, F.TMR_STAT_CAPNEWB i, F.TMR_STAT_CAPOVRB i) else (F.TMR_CAPA_VAL i, F.TMR_STAT_CAPNEWA i, F.TMR_STAT_CAPOVRA i)

/-- Timer i's capture is taken from u to t, of a cascade both halves (R394, R395). -/
def Captures (i : Nat) (b : Bool) (u t : State) : Prop :=
  let f := capFlds i b
  t.rd f.1 = u.rd (F.TMR_CNT_VAL i) ∧ t.rd f.2.1 = 1 ∧ t.on f.2.2 = (u.on f.2.2 || u.on f.2.1) ∧
    (i % 2 = 0 → u.tmrCasc (i + 1) = true → t.rd (capFlds (i + 1) b).1 = u.rd (F.TMR_CNT_VAL (i + 1))) ∧
    Fires (if b then 50 + 3 * i else 49 + 3 * i) u t

/-- An edge at CNTpin triggers timer i's capture (R394, R406). -/
def State.edgeTakes (u : State) (pin : Nat) (rising : Bool) (i : Nat) (b : Bool) : Bool :=
  u.tmrClocked i && !u.tmrCasc i && u.rd (if b then F.TMR_CFG_CAPBPIN i else F.TMR_CFG_CAPAPIN i) == pin &&
    bitOf (u.rd (if b then F.TMR_CFG_CAPBEDGE i else F.TMR_CFG_CAPAEDGE i)) (if rising then 0 else 1)

/-- An edge at CNTpin is one that running timer i counts (R389). -/
def State.edgeCounts (u : State) (pin : Nat) (rising : Bool) (i : Nat) : Bool :=
  u.on (F.TMR_STAT_RUN i) && u.rd (F.TMR_CFG_SRC i) == 4 + pin &&
    (if rising then [0, 1, 3] else [2, 3]).contains (u.rd (F.TMR_CFG_CNTEDGE i))

/-! ### The host port (R412 to R428) -/

/-- The bits of HP_ERR, from bit 0. -/
def hpErrs : List Fld :=
  [F.HP_ERR_FRAME_SHORT, F.HP_ERR_UNDERRUN, F.HP_ERR_WRAP, F.HP_ERR_DENY, F.HP_ERR_MBBUSY, F.HP_ERR_TXREF, F.HP_ERR_CBAD,
    F.HP_ERR_SELECT_FAULT, F.HP_ERR_MISSED]

/-- The number whose bits these are, from bit 0. -/
def bitsNat (l : List Bool) : Nat := l.foldr (fun b n => b2n b + 2 * n) 0

/-- The port drives HREQ low (R425). -/
def State.attention (u : State) : Bool :=
  u.on F.HP_CTL_EN && !u.on F.HP_STAT_PRET &&
    (((List.range 8).any fun m => bitOf (u.rd F.HP_MBSTAT_MBOUT) m && bitOf (u.rd F.HP_CFG_MBMASK) m) ||
      (!u.hp.rx.isEmpty && u.on F.HP_CFG_RXEN) || (hpErrs.any u.on && u.on F.HP_CFG_ERREN) || u.on F.HP_CTL_HREQSW)

/-- The status word (R414). -/
def State.statusOf (u : State) : Nat :=
  bitsNat ((List.range 8).map (bitOf (u.rd F.HP_MBSTAT_MBOUT)) ++ (List.range 3).map (bitOf (u.rd F.HP_STAT_HID)) ++
    [false, u.on F.PWR_STAT_HOLD, (match u.hp.tx with | none => true | some (_, l) => decide (l.length + 1536 ≤ 4096)), !u.hp.rx.isEmpty,
      u.attention])

/-- The value of a window word whose reads have no effect (R419). -/
def State.winValue (u : State) (a : Nat) : Option Nat :=
  let eui := fun k => u.rd F.MAC_EXT_EUI / 2 ^ (16 * k) % 2 ^ 16
  let box := (a - 0x40) / 16
  if a = 0x000 then some (u.rd F.SYS_ID_TYPE)
  else if a = 0x001 then some (u.rd F.SYS_ID_REV * 2 ^ 8 + 1)
  else if 0x002 ≤ a ∧ a ≤ 0x005 then some (eui (a - 2))
  else if a = 0x006 then some (u.rd F.HP_STAT_HID + 8 * u.rd F.HP_STAT_HMODE)
  else if a = 0x008 then some u.statusOf
  else if a = 0x009 then some (bitsNat (hpErrs.map u.on))
  else if a = 0x00A then some (u.rd F.HP_MBSTAT_MBIN + 2 ^ 8 * u.rd F.HP_MBSTAT_MBOUT)
  else if a = 0x021 ∨ a = 0x022 then some 0
  else if a = 0x023 then some (match u.hp.tx with | none => 4096 | some (_, l) => 4096 - l.length)
  else if a = 0x024 then some u.hp.rx.length
  else if 0x040 ≤ a ∧ a < 0x0C0 then
    some (if a % 16 < 8 then u.rd (F.HP_MBIN_WORD (8 * box + a % 16)) else u.rd (F.HP_MBOUT_WORD (8 * box + a % 16 - 8)))
  else none

/-- A window word is assigned (R419). -/
def winAssigned (a : Nat) : Bool :=
  decide (a ≤ 0x006) || decide (0x008 ≤ a ∧ a ≤ 0x00A) || a == 0x010 || a == 0x011 || decide (0x020 ≤ a ∧ a ≤ 0x024) ||
    decide (0x040 ≤ a ∧ a < 0x0C0) || decide (0x100 ≤ a)

/-- The word v is written at window word a (R419, R420, R423, R424): from u to t exactly this; a frame that is whole goes to the MAC,
for which a slice of the MAC or of the engine, and where it is secured one of the cipher engine, makes it wait (R42, R459). -/
def WinWrite (a v : Nat) (u t : State) : Prop :=
  let box := (a - 0x40) / 16
  let ptr := u.rd F.HP_IPTR_PTR
  let verdict := u.verdict 16 ptr 2 true v
  let moved := fun (ks : List Fld) (ev : List Nat) (w : State) =>
    t.rd F.HP_IPTR_PTR = (if u.on F.HP_IPTR_INC then (ptr + 2) % 2 ^ 24 else ptr) ∧ Frame (F.HP_IPTR_PTR :: ks) [] ev w t
  let hold := u.holdOf 0x510 16
  if 0x400 ≤ a then
    match u.hp.tx with
    | none => t.rd F.HP_ERR_TXREF = 1 ∧ Frame [F.HP_ERR_TXREF] [] [] u t
    | some (len, l) =>
      let l1 := l ++ leBytes 2 v
      if l1.length < len then t.hp = { u.hp with tx := some (len, l1) } ∧ Frame [] [.hp] [] u t
      else t.hp.tx = none ∧ t.hp.rx = u.hp.rx ∧
        if u.bistPart = some 11 ∨ u.bistPart = some 12 ∨ (u.bistPart = some 10 ∧ secured (l1.take len) = true) then
          t.fwd = { u.fwd with waits := u.fwd.waits ++ [.frame 3 (l1.take len) none] } ∧ Counts F.BIST_HOLD u t ∧
            Frame [F.BIST_HOLD] [.hp, .fwd] [] u t
        else
          (u.on F.MAC_CTL_EN = false → Frame [] [.hp] [] u t) ∧
          (u.on F.MAC_CTL_EN = true → parseFrame (l1.take len) = none → Counts F.MAC_FMTERR u t ∧ Frame [F.MAC_FMTERR] [.hp] [] u t)
  else if 0x100 ≤ a then
    if verdict = .ok ∧ u.hostAllow ptr true = true then
      let w := (busWrite 16 ptr 2 v u).2
      t.rd F.HP_IPTR_PTR = (if w.on F.HP_IPTR_INC then (w.rd F.HP_IPTR_PTR + 2) % 2 ^ 24 else w.rd F.HP_IPTR_PTR) ∧ Frame [F.HP_IPTR_PTR] [] [] w t
    else if verdict = .bus then
      t.rd F.SYS_ACCERR_UNMAPPED = 1 ∧ t.rd F.SYS_ACCERR_ACCESSOR = 16 ∧ moved [F.SYS_ACCERR_UNMAPPED, F.SYS_ACCERR_ACCESSOR] [2] u
    else t.rd F.HP_ERR_DENY = 1 ∧ Counts F.HP_DENIES u t ∧ moved [F.HP_ERR_DENY, F.HP_DENIES] [] u
  else if a = 0x009 then
    (∀ i, i < 9 → t.on (hpErrs.getD i F.HP_ERR_WRAP) = (u.on (hpErrs.getD i F.HP_ERR_WRAP) && !bitOf v i)) ∧ Frame hpErrs [] [] u t
  else if a = 0x00A then
    (∀ m, m < 8 → bitOf (t.rd F.HP_MBSTAT_MBOUT) m = (bitOf (u.rd F.HP_MBSTAT_MBOUT) m && !bitOf v (8 + m))) ∧ Frame [F.HP_MBSTAT_MBOUT] [] [] u t
  else if a = 0x010 then
    (hold = none → t.holdOf 0x510 16 = some ⟨0x510, 16, 0x510044, v % 2 ^ 16, 0xFFFF⟩ ∧ Frame [] [.holds] [] u t) ∧
    (∀ l, hold = some l → (t.holdOf 0x510 16).map (·.reg) = some 0x510044 ∧
      if l.reg = 0x510044 then Frame [] [.holds] [] u t
      else t.rd F.SYS_ACCERR_LLORDER = 1 ∧ t.rd F.SYS_ACCERR_ACCESSOR = 16 ∧ Frame [F.SYS_ACCERR_LLORDER, F.SYS_ACCERR_ACCESSOR] [.holds] [2] u t)
  else if a = 0x011 then
    t.on F.HP_IPTR_INC = bitOf v 15 ∧ t.rd F.HP_IPTR_PTR / 2 ^ 16 = v % 2 ^ 8 ∧
    (hold = none → t.rd F.HP_IPTR_PTR % 2 ^ 16 = ptr % 2 ^ 16 / 2 * 2) ∧
    (∀ l, hold = some l → l.reg = 0x510044 → l.mask = 0xFFFF → l.val < 2 ^ 16 → t.rd F.HP_IPTR_PTR % 2 ^ 16 = l.val / 2 * 2) ∧
    Frame [F.HP_IPTR_PTR, F.HP_IPTR_INC] [.holds] [] u t
  else if a = 0x021 then t.hp = { u.hp with rx := u.hp.rx.drop 1, pos := 0, taken := false, owedLo := false, owedHi := false } ∧ Frame [] [.hp] [] u t
  else if a = 0x022 then
    let n := v % 2 ^ 11
    let ok := decide (10 ≤ n) && decide (n ≤ 1536)
    t.hp = { u.hp with tx := if ok then some (n, []) else none } ∧
      t.on F.HP_ERR_TXREF = (u.on F.HP_ERR_TXREF || u.hp.tx.isSome || !ok) ∧ Frame [F.HP_ERR_TXREF] [.hp] [] u t
  else if 0x040 ≤ a ∧ a < 0x0C0 ∧ a % 16 < 8 then
    if bitOf (u.rd F.HP_MBSTAT_MBIN) box then t.rd F.HP_ERR_MBBUSY = 1 ∧ Frame [F.HP_ERR_MBBUSY] [] [] u t
    else t.rd (F.HP_MBIN_WORD (8 * box + a % 16)) = v % 2 ^ 16 ∧
      (∀ m, m < 8 → bitOf (t.rd F.HP_MBSTAT_MBIN) m = (bitOf (u.rd F.HP_MBSTAT_MBIN) m || (a % 16 == 7 && m == box))) ∧
      Frame [F.HP_MBIN_WORD (8 * box + a % 16), F.HP_MBSTAT_MBIN] [] (if a % 16 = 7 then [185] else []) u t
  else if winAssigned a then Frame [] [] [] u t
  else t.rd F.SYS_ACCERR_UNMAPPED = 1 ∧ t.rd F.SYS_ACCERR_ACCESSOR = 16 ∧ Frame [F.SYS_ACCERR_UNMAPPED, F.SYS_ACCERR_ACCESSOR] [] [2] u t

/-- The word v is written at window word a, and the window address moves on; from 7FFh it wraps (R413). -/
def WinWrites (a v : Nat) (u x t : State) : Prop :=
  WinWrite a v u x ∧ if a = 0x7FF then t.rd F.HP_ERR_WRAP = 1 ∧ Frame [F.HP_ERR_WRAP] [] [] x t else t = x

/-- HSEL has fallen (R362, R432, R433): HP_STAT.SEL shows it, the port counts as busy for 300 µs more, and a closing for Rest is aborted by
refuser 4. -/
def State.hselDown (u : State) : State :=
  let v := { u.set1 F.HP_STAT_SEL with hp := { u.hp with selAge := 10, frame := true } }
  if u.rest = .closing then
    fire 11 ((({ v with rest := .running }.inc F.REST_REFUSED).wr F.PWR_RESTREF_CODE 4).set1 F.PWR_RESTREF_ABORT)
  else v

/-- The port is enabled and not retired (R417, R433). -/
def State.portUp (u : State) : Bool := u.on F.HP_CTL_EN && !u.on F.HP_STAT_PRET

/-- A host frame that stood in w, with hidden state h, is over in t: HP_STAT.SEL shows sel, the fields ks and the parts ps are changed and ev
has fired; a GO that waited for the frame's end starts its transfer, or is answered at once where its pin is not set up (R429, R477). -/
def FrameOver (sel : Nat) (ks : List Fld) (ps : List Part) (ev : List Nat) (h : HpState) (w t : State) : Prop :=
  t.rd F.HP_STAT_SEL = sel ∧
  if h.goWait = false ∨ w.bistPart = some 17 then
    t.hp = { h with frame := false } ∧ Frame (F.HP_STAT_SEL :: ks) (.hp :: ps) ev w t
  else if w.portUp = false ∨ w.on F.HP_STAT_MASTER = true then
    t.hp = { h with frame := false, goWait := false } ∧ Frame (F.HP_STAT_SEL :: ks) (.hp :: ps) ev w t
  else if w.rd (F.SYS_PINCFG_FUNC (w.rd F.HP_MCFG_SELPIN)) = 3 then
    t.rd F.HP_STAT_MASTER = 1 ∧ t.hp = { h with frame := false, goWait := false, selOff := none } ∧
      Frame (F.HP_STAT_SEL :: F.HP_STAT_MASTER :: ks) (.hp :: ps) ev w t
  else t.rd F.HP_MSTAT_MDONE = 1 ∧ t.rd F.HP_MSTAT_MCNT = 0 ∧ t.hp = { h with frame := false, goWait := false } ∧
    Frame (F.HP_STAT_SEL :: F.HP_MSTAT_MDONE :: F.HP_MSTAT_MCNT :: ks) (.hp :: ps) (ev ++ [184]) w t

/-- A host frame meets the port (R362, R418, R430, R432, R433): a held core domain takes none, in Rest it wakes the device or does nothing, a
port that is off, retired, in a slice or mastering does not serve it; one that serves does P from the state with HSEL low. HP_STAT.SEL
shows HSEL after it as sel. -/
def FrameMet (sel : Nat) (P : State → State → Prop) (u t : State) : Prop :=
  let v := u.hselDown
  if u.boot.aonDown ∨ u.boot.held then Frame [] [] [] u t
  else if u.inRest then
    let w := { u with hp := { u.hp with selAge := 10 } }
    Frame [] [] [] (if u.on F.PWR_RESTCTL_HSELWAKE then { w with pwr := { w.pwr with wake := true } } else w) t
  else if u.on F.HP_STAT_MASTER then
    u.hp.goWait = false →
      t.rd F.HP_STAT_SEL = sel ∧ t.rd F.HP_STAT_MASTER = 0 ∧ t.rd F.HP_MSTAT_MDONE = 1 ∧ t.rd F.HP_MSTAT_MCNT ≤ 64 ∧
      t.rd F.HP_ERR_SELECT_FAULT = 1 ∧ Counts F.SELECT_FAULT u t ∧
      t.hp = { v.hp with
        frame := false, selOff := some (u.rd F.HP_MCFG_SELPIN)
        msent := if u.ioOff then [] else (List.range (t.rd F.HP_MSTAT_MCNT)).map fun i => u.rd (F.HP_MBUF_BYTE i) } ∧
      (∀ i, i < 64 → t.rd F.HP_MSTAT_MCNT ≤ i → t.rd (F.HP_MBUF_BYTE i) = u.rd (F.HP_MBUF_BYTE i)) ∧
      Frame ([F.HP_STAT_SEL, F.HP_STAT_MASTER, F.HP_MSTAT_MDONE, F.HP_MSTAT_MCNT, F.HP_ERR_SELECT_FAULT, F.SELECT_FAULT] ++
        (List.range 64).map F.HP_MBUF_BYTE) [.hp, .freeSeq] [184, 187] v t
  else if u.portUp = false then FrameOver sel [] [] [] v.hp v t
  else if u.bistPart = some 17 then Counts F.BIST_HOLD u t ∧ FrameOver sel [F.BIST_HOLD] [] [] { v.hp with missed := true } v t
  else P v t

/-- The head frame of the receive FIFO is released where its last word was completed (R422). -/
def HpState.released (h : HpState) : HpState :=
  if h.taken then { h with rx := h.rx.drop 1, pos := 0, taken := false, owedLo := false, owedHi := false } else h

/-- A native frame ends from w to t (R417, R422): what it sent, a partial word, a head frame that was taken whole, event 184; one that a
reset has ended ends without (R432). -/
def FrameEnds (sel part : Nat) (sent : List Nat) (w t : State) : Prop :=
  if w.boot.held then FrameOver sel [] [] [] w.hp w t
  else
    (part ≠ 0 → t.rd F.HP_ERR_FRAME_SHORT = 1 ∧ Counts F.HP_SHORTS w t) ∧
    FrameOver sel (if part = 0 then [] else [F.HP_ERR_FRAME_SHORT, F.HP_SHORTS]) [] ((if part = 0 then [] else [186]) ++ [184])
      { w.hp.released with sent := if w.ioOff then [] else sent } w t

/-- What so many edges of a reply take from the receive FIFO (R422, R428): the word of ADDR + 1 stands in bits [39:24] and that of ADDR in
bits [23:8]; each is taken once. -/
def HpState.shifted (edges : Nat) (h : HpState) : HpState :=
  let hi := h.owedHi && decide (40 ≤ edges)
  let lo := h.owedLo && decide (56 ≤ edges)
  let words := match h.rx with | [] => 0 | g :: _ => (g.data.length + 1) / 2
  let pos := max h.pos (min (h.pos + b2n hi + b2n lo) words)
  { h with owedHi := h.owedHi && !hi, owedLo := h.owedLo && !lo, pos := pos, taken := h.taken || decide (h.pos < pos ∧ pos = words) }

/-- A compatibility frame with CMD cmd at a port that serves it, from u with HSEL low to t (R422, R426 to R428): what HSDO carries and what
of it the FIFO counts as taken, bad frames, a repeated frame, and the work of a good one with its stored reply. Three clauses are the
model's (notes/assumptions/48.md): the word before the first good frame, a late reply that takes nothing, and a frame that ends by the
timeout executes as at HSEL's rise. -/
def CompatServes (sel cmd : Nat) (f : CompatFrame) (u t : State) : Prop :=
  let body := f.alive.toNat * 2 ^ 52 + cmd * 2 ^ 48 + f.addr.toNat * 2 ^ 32 + f.data.toNat
  let crcOf := fun b : Nat => crc8 ((List.range 7).map fun i => b / 2 ^ (8 * (6 - i)) % 256)
  let stored := if f.late then u.hp.creply / 2 ^ 32 * 2 ^ 32 + 2 ^ 49 else u.hp.creply
  let reply := stored + (if u.hp.cbad then 2 ^ 51 else 0) + if u.attention then 2 ^ 50 else 0
  let a := f.addr.toNat
  let a1 := (a + 1) % 0x800
  let lo := f.data.toNat % 2 ^ 16
  let hi := f.data.toNat / 2 ^ 16
  let known := u.hp.cprev.isSome
  let free := if known then [] else [Part.freeSeq]
  let h1 := { (if f.late then u.hp else u.hp.shifted f.edges.toNat) with
    sent := if u.ioOff then [] else if known then [reply * 256 + crcOf reply] else [Config.free u.freeSeq % 2 ^ 64] }
  let answer := fun (err : Bool) (data : Nat) => f.alive.toNat * 2 ^ 52 + b2n err * 2 ^ 48 + a * 2 ^ 32 + data
  let fails := fun (b x : Nat) (w : State) =>
    let ptr := w.rd F.HP_IPTR_PTR
    !winAssigned b || (decide (0x100 ≤ b ∧ b < 0x400) && !(w.verdict 16 ptr 2 true x == .ok && w.hostAllow ptr true))
  let v := { u with
    freeSeq := if known then u.freeSeq else u.freeSeq + 1
    hp := { h1 with cbad := false, cprev := some body, owedLo := cmd == 4 && h1.owedLo, owedHi := cmd == 4 && h1.owedHi } }
  let ends := fun (rep : Option Nat) (w t : State) =>
    if w.boot.held then FrameOver sel [] [] [] w.hp w t
    else FrameOver sel [] [] [184] { w.hp.released with creply := rep.getD w.hp.creply } w t
  let data := fun x : Nat => if cmd = 4 then none else some (answer (fails a lo v) x)
  if f.edges ≠ 64 ∨ f.crc.toNat ≠ crcOf body ∨ 4 < cmd ∨ 0x800 ≤ a then
    let flag := if f.edges = 64 then F.HP_ERR_CBAD else F.HP_ERR_FRAME_SHORT
    t.rd flag = 1 ∧ Counts F.HP_CBADS u t ∧
      t.rd F.HP_SHORTS = (if f.edges = 64 then u.rd F.HP_SHORTS else min (u.rd F.HP_SHORTS + 1) 65535) ∧
      FrameOver sel [flag, F.HP_CBADS, F.HP_SHORTS] free [186] { h1 with cbad := true }.released u t
  else if u.hp.cprev = some body then FrameOver sel [] free [184] { h1 with cbad := false }.released u t
  else if cmd = 0 then ends (some (answer false 0)) v t
  else if cmd = 2 then
    (∀ x, v.winValue a = some x → ∀ y, v.winValue a1 = some y → ends (some (answer false (x + 2 ^ 16 * y))) v t) ∧
    (winAssigned a = false → ∀ y, v.winValue a1 = some y → v.hp.goWait = false →
      t.rd F.SYS_ACCERR_UNMAPPED = 1 ∧ t.rd F.SYS_ACCERR_ACCESSOR = 16 ∧
        FrameOver sel [F.SYS_ACCERR_UNMAPPED, F.SYS_ACCERR_ACCESSOR] [] [2, 184] { v.hp.released with creply := answer true (2 ^ 16 * y) } v t) ∧
    (0x400 ≤ a → a < 0x7FF → ∀ g, v.hp.rx.head? = some g →
      let word := fun k => leNat ((g.data.drop (2 * (v.hp.pos + k))).take 2)
      let left := (g.data.length + 1) / 2 - v.hp.pos
      FrameOver sel [] [] [184]
        { v.hp with creply := answer false (word 0 + 2 ^ 16 * word 1), owedLo := decide (1 ≤ left), owedHi := decide (2 ≤ left) }.released v t)
  else
    let x1 := (winWrite a lo v).2
    WinWrite a lo v x1 ∧
      if cmd = 3 ∨ x1.boot.held = true then ends (data 0) x1 t
      else
        let w1 := if a = 0x7FF then x1.set1 F.HP_ERR_WRAP else x1
        let x2 := (winWrite a1 hi w1).2
        WinWrite a1 hi w1 x2 ∧ ends (if cmd = 4 then none else some (answer (fails a lo v || fails a1 hi w1) 0)) x2 t

/-! ### The boot-state journal (R438) -/

/-- Word i of boot-state sector j; one that cannot be read is no valid word. -/
def State.bootWord (u : State) (j i : Nat) : Nat :=
  let a := 0x544000 + 0x800 * j + 8 * i
  if (u.cellQual a).unc then 0 else u.leAt a 8

/-- SEQ of a boot-state sector whose header is valid. -/
def State.bootSeq (u : State) (j : Nat) : Option Nat :=
  let w := u.bootWord j 0
  if w / 2 ^ 56 = 0x6A ∧ w / 2 ^ 32 % 2 ^ 24 = 0 then some (w % 2 ^ 32) else none

/-- The current sector: that of the higher SEQ. -/
def State.bootSector (u : State) : Option Nat :=
  match u.bootSeq 0, u.bootSeq 1 with
  | none, none => none
  | some _, none => some 0
  | none, some _ => some 1
  | some a, some b => some (if a < b then 1 else 0)

/-- The kind and the slot of a record word. -/
def recKind (w : Nat) : Nat := w / 2 ^ 48 % 2 ^ 8
def recSlot (w : Nat) : Nat := w / 2 ^ 40 % 2 ^ 8

/-- A record word. -/
def recOf (kind slot arb lseq : Nat) : Nat := 0x6B * 2 ^ 56 + kind * 2 ^ 48 + slot * 2 ^ 40 + arb * 2 ^ 32 + lseq

/-- The valid records of the current sector, the oldest first. -/
def State.bootRecords (u : State) : List Nat :=
  match u.bootSector with
  | none => []
  | some j => ((List.range' 1 255).map (u.bootWord j)).filter fun w =>
      w / 2 ^ 56 == 0x6B && decide (1 ≤ recKind w) && decide (recKind w ≤ 7) && decide (recSlot w ≤ 1)

/-- The latest record of some kinds. -/
def State.latest (u : State) (kinds : List Nat) : Option Nat := (u.bootRecords.filter fun w => kinds.contains (recKind w)).getLast?

/-- The active slot, and the other one. -/
def State.bootSlot (u : State) : Nat := match u.latest [3, 5] with | some w => recSlot w | none => 0
def State.otherSlot (u : State) : Nat := 1 - u.bootSlot

/-- The TRY or START record of a trial that is pending. -/
def State.pendingTrial (u : State) : Option Nat := (u.latest [1, 2, 3, 4, 5]).filter fun w => recKind w ≤ 2

/-- The lock state is LOCK. -/
def State.ownerLocked (u : State) : Bool := (u.latest [6, 7]).any fun w => recKind w == 6

/-- The SEQ of the current sector has a successor. -/
def State.bootSeqLeft (u : State) : Bool := u.bootSector.all fun j => u.bootSeq j != some (2 ^ 32 - 1)

/-- The sector that takes the next record: the current one, or with fewer than 4 words left in it the other, compacted first (R438). -/
def State.bootDest (u : State) : Nat :=
  match u.bootSector with
  | none => 0
  | some j => if (List.range 4).all fun k => u.bootWord j (252 + k) == 2 ^ 64 - 1 then j else 1 - j

/-- A record can be written in full: the ECC partition is not retired (R342), SEQ has a successor, and t shows that the sector it goes to
is not retired, neither before nor by its erase. -/
def BootTakes (u t : State) : Prop :=
  u.on F.FL_STAT_RET = false ∧ u.bootSeqLeft = true ∧ (t.unit (72 + u.bootDest)).ret = false

/-- Record w is written from u to t (R438), and beside it only the fields ks and the parts ps change, and some of evs fire: the
records still needed are as they were, and the views follow. With the ECC partition retired none is (notes/assumptions/101.md). -/
def BootWrites (w : Nat) (ks : List Fld) (ps : List Part) (evs : List Nat) (u t : State) : Prop :=
  (u.on F.FL_STAT_RET = true → Within [] ks [] ps evs u t) ∧
  (u.on F.FL_STAT_RET = false →
    Within [] ([F.UPD_BOOT_ACTSLOT, F.UPD_BOOT_LOCK, F.UPD_LOCKSEQ_LSEQ, F.FL_RETIRES] ++ eraseFlds ++ ks) [(0x540000, 0x541000), (0x544000, 0x545000)]
      ([.fl, .freeSeq] ++ ps) ([177, 181, 182] ++ evs) u t) ∧
  (BootTakes u t →
    t.bootRecords.getLast? = some w ∧
    (recKind w ≠ 3 → recKind w ≠ 5 → t.latest [3, 5] = u.latest [3, 5]) ∧
    (recKind w ≤ 5 → t.latest [6, 7] = u.latest [6, 7]) ∧
    (5 < recKind w → t.pendingTrial = u.pendingTrial) ∧
    t.rd F.UPD_BOOT_ACTSLOT = t.bootSlot ∧ t.on F.UPD_BOOT_LOCK = t.ownerLocked)

/-! ### Self-test (R457, R458, R461) -/

/-- The pass stands in t where it goes on at partition p (R458): the first partition that is enabled, not retired and free has its slice,
those before it that are not free were deferred beside d; where there is none, a memory segment is tested (R461), or the pass has
ended. -/
def BistGoes (busy p d : Nat) (u t : State) : Prop :=
  let able := fun q => bitOf (t.rd F.BIST_EN_EN) q && !bitOf (t.rd F.BIST_RET_PART) q
  let free := fun q => able q && !(bitOf busy q || t.partBusy q || t.partStopped q)
  let rest := (List.range 19).filter fun q => decide (p ≤ q) && able q
  let bank := ((List.range 16).map fun i => (u.bist.bank + 1 + i) % 16).find? fun b =>
    bitOf (u.rd F.BIST_MEMEN_BANK) b && !bitOf (u.rd F.PWR_RET_BANK) b && !bitOf (u.rd F.BIST_MEMRET_BANK) b
  match rest.find? free with
  | some q =>
    t.bistPart = some q ∧ t.on F.BIST_STAT_RUN = true ∧ t.rd F.BIST_STAT_PART = q ∧ t.rd F.BIST_STAT_SLICE = t.bist.next.getD q 0 % 16 ∧
      t.bist.run = u.bist.run ∧ (q = 16 → t.whiskTest = some (t.bist.next.getD 16 0)) ∧
      t.rd F.BIST_DEFER = min (d + (rest.filter (· < q)).length) 65535
  | none =>
    t.bistPart = u.bistPart ∧ t.rd F.BIST_DEFER = min (d + rest.length) 65535 ∧
      match bank with
      | some b => t.bist.seg = true ∧ t.bist.bank = b ∧ t.bist.run = u.bist.run ∧ t.on F.BIST_STAT_RUN = true ∧ t.rd F.BIST_STAT_PART = 31 ∧
          t.rd F.BIST_STAT_SLICE = u.bist.segs.getD b 0 % 16
      | none => t.bist.run = false ∧ t.bist.seg = u.bist.seg

end Sys2Proof.Machine
end

