-- ==== Sys2Proof/Certificates/Slice0/Obligations.lean ====
section
/-! DEFINITION. The statements for the provers. Throughout, u is the state in which a command finds the block: settle s, in which the
blocks have done what the last command left them to do (notes/assumptions/8.md). A completion statement says what state a
command answers; Frame says what it leaves alone. -/

open Sys2Proof Sys2Proof.Machine

/-! ### The step and the state after reset -/

/-- A step takes the command in front of the queue and answers what exec answers on the state with the queue's rest. The queue
is the model's own (notes/assumptions/8.md). -/
def Obligations.StepRunsFront : Prop :=
  ∀ (c : Instr) (s : State), step { s with pending := c :: s.pending } = exec c s

/-- With no command waiting the core issues the next word that memory holds for it. The burner is the one that the arbitration of R73
chooses: one of a higher level that runs code in memory is passed over only by its yield mark. What the word does is what the command
that it spells does; a word that spells none raises ILLEGAL, or ADVERB as a call of an absent coprocessor.

Where no word is due, XK32 ticks: while it does not run nothing comes about, so that only the events of the last command are
forgotten. That a step on an empty queue is a word or a tick is the model's choice (notes/assumptions/1.md, notes/assumptions/76.md).

The words and the commands agree bit for bit (R95, R103, R112): a word spells a command exactly where it is that command's word. A CWR to
FEED is the command C1_FEED. -/
def Obligations.IdleStep : Prop :=
  (
  ∀ s : State, s.pending = [] →
    let u := settle s
    (u.ownWord = none →
      (u.on F.RTC_STAT_XKRDY = false → ∃ t, step s = .next t ∧ t.Inv ∧ t.cyc = 0 ∧ Frame [] [.cyc] [] u t) ∧
      (u.on F.RTC_STAT_XKRDY = true →
        ∃ t, step s = .next t ∧ t.Inv ∧ t = { tidy (xkTick { u with cyc := 0 }) with pending := [] })) ∧
    ∀ (b : Fin 16) (w : Nat), u.ownWord = some (b.val, w) →
      let v := State.fetched { u with cyc := u.cyc + 1 } b
      u.coreUp = true ∧ u.issues b = true ∧ w < 2 ^ 24 ∧
      (∀ c, c < 16 → u.runsMemory c = true → u.rd (F.BRN_CFG_PRIO c) < u.rd (F.BRN_CFG_PRIO b) → (u.bx c).yield = true) ∧
      (∀ c, decodeWord b w = some c → step s = exec c { s with cyc := s.cyc + 1 }) ∧
      (decodeWord b w = none → ∃ t, step s = .next t ∧ t.Inv ∧
        (State.ready { u with cyc := u.cyc + 1 } b = true →
          if 28 ≤ w / 2 ^ 18 ∧ bitOf v.cpresent (w / 2 ^ 15 % 8) = false then ExcTaken b 3 (w / 2 ^ 15 % 8) 0 w v t
          else ExcTaken b 1 0 0 w v t))) ∧
  (
  ∀ (b : Fin 16),
    (∀ (w : Nat) (c : Instr), w < 2 ^ 24 → decodeWord b w = some c → issuer c = some b ∧ wordOf c = w) ∧
    (∀ c : Instr, issuer c = some b → wordOf c < 2 ^ 24 ∧
      ((∀ r, c ≠ .cwr b ⟨1, r, 5⟩) → decodeWord b (wordOf c) = some c)))

/-- The state after reset meets the invariant, and holds the reset values that the register maps state: the core runs on RC48
with every clock source off (R29, SYS_CLK), burner 0 is in RUN at PC 0 and in the secure world and the other burners are OFF (R93), every Whisk
channel is disabled, nothing waits; the fields of one unit agree. -/
def Obligations.ResetState : Prop :=
  State.reset.Inv ∧ State.reset.agrees = true ∧ State.reset.pending = [] ∧
  State.reset.rd F.SYS_CLK_SRC = 0 ∧ State.reset.rd F.SYS_CLK_XORDY = 0 ∧ State.reset.rd F.SYS_CLK_PLLLOCK = 0 ∧
  State.reset.bstate 0 = stRun ∧ State.reset.pc 0 = 0 ∧ State.reset.brnSecure 0 = true ∧
  (∀ b < 16, 0 < b → State.reset.bstate b = stOff) ∧
  (∀ c < 64, State.reset.on (F.WHISK_CFG_EN c) = false) ∧
  State.reset.rd F.TB_NOW_MCN = 0 ∧ State.reset.rd F.TB_STAT_STATE = tbVirtual

/-- Whatever waits, a step answers a next state (no command stops the block), in which memory has its canonical form and the queue
has lost its front. -/
def Obligations.StepKeepsInv : Prop :=
  ∀ s : State, s.Inv → ∃ t, step s = .next t ∧ t.Inv ∧ t.pending = s.pending.tail

/-! ### Register access (R27, R39, R40) -/

/-- REG_WRITE by any accessor, in its own units (R39). Of a register whose write only reaches its fields, each field takes the bits that
were written by its access code, the staging copy of a staged one; read-only fields, reserved bits and everything else stay, and a write at an
active copy does nothing (R14, R15, R17). An undefined offset has no effect but UNMAPPED with event 2 for the host and debug ports (R26),
nor has an access that the security maps close but DENY for the host, as for one its allow list refuses (R84, R420), nor any access of a
killed debug port (R467).

The guarded registers: a burner's byte registers and flags take a write only while it is OFF, PARKED or FAULTED (R82); LOCK only sets, and
freezes the maps (R85); three registers of the power block take none from an open accessor; each refusal sets WERR. That the maps come
before the address is notes/assumptions/14.md, and where an active copy stands notes/assumptions/81.md. -/
def Obligations.RegWriteByte : Prop :=
  (
  ∀ (acc : Fin 18) (addr : BitVec 24) (w : Width) (v : BitVec 32) (s : State),
    let u := settle s
    let a := addr.toNat
    let n := widthBytes w
    let closed := u.closedTo acc a || u.closedTo acc (a + n - 1)
    let selfSet := decide (0x503700 ≤ a) && decide (a < 0x503740)
    let done := fun P : State → Prop => Completes (.regWrite acc addr w v) s P
    let denied := fun t : State =>
      if acc.val = 16 then t.rd F.HP_ERR_DENY = 1 ∧ Counts F.HP_DENIES u t ∧ Frame [F.HP_ERR_DENY, F.HP_DENIES] [] [] u t
      else Frame [] [] [] u t
    u.coreUp = true → 0x500000 ≤ a → a < 0x514000 →
    (acc.val = 17 → u.on F.DBG_STAT_KILLED = true → done (Frame [] [] [] u)) ∧
    (u.makes acc a n → (selfSet = true → 16 ≤ acc.val) →
      (closed = true → done denied) ∧
      (closed = false → (selfSet || undefinedAt a n) = true → done fun t =>
        if acc.val < 16 then Frame [] [] [] u t
        else t.rd F.SYS_ACCERR_UNMAPPED = 1 ∧ t.rd F.SYS_ACCERR_ACCESSOR = acc ∧
          Frame [F.SYS_ACCERR_UNMAPPED, F.SYS_ACCERR_ACCESSOR] [] [2] u t) ∧
      (closed = false → selfSet = false → undefinedAt a n = false → acc.val = 16 → u.hostAllow a true = false → done denied)) ∧
    (u.admits acc a n true → selfSet = false →
      (0x800 ≤ a % 0x1000 → undefinedAt a n = false → done (Frame [] [] [] u)) ∧
      ∀ x, regAt a = some x → a % 0x1000 < 0x800 → plainReg x.2 = true → x.1.ll = false ∨ (a = x.2 ∧ x.1.width ≤ 8 * n) →
        let k := 8 * min n (x.1.width / 8 - (a - x.2))
        let at_ := 2 ^ (8 * (a - x.2))
        done fun t => (∀ f ∈ x.1.fields, FldTakes x.2 (v.toNat % 2 ^ k * at_) ((2 ^ k - 1) * at_) f u t) ∧
          Frame (x.1.taking x.2) [] [] u t)) ∧
  (
  ∀ (acc : Fin 18) (b : Fin 16) (k : Fin 17) (w : Width) (v : BitVec 32) (s : State),
    let u := settle s
    let may := fun a : Nat => u.admits acc a (widthBytes w) true
    let done := fun (a : Nat) (P : State → Prop) => Completes (.regWrite acc (BitVec.ofNat 24 a) w v) s P
    u.coreUp = true →
    (may (brnByteAddr b k) → done (brnByteAddr b k) fun t =>
      if u.bstate b = stOff ∨ u.bstate b = stParked ∨ u.bstate b = stFaulted then
        t.rd (brnByteReg b k) = v.toNat % 2 ^ (brnByteReg b k).w ∧ Frame [brnByteReg b k] [] [] u t
      else WriteErr acc u t) ∧
    (may (0x503002 + 64 * b.val) → done (0x503002 + 64 * b.val) fun t =>
      t.rd (F.BRN_CFG_PRIO b) = v.toNat % 4 ∧ t.on (F.BRN_CFG_WORLD b) = bitOf v.toNat 2 ∧
        Frame [F.BRN_CFG_PRIO b, F.BRN_CFG_WORLD b] [] [] u t) ∧
    (may 0x503508 → done 0x503508 fun t =>
      t.on F.BRN_SECLOCK_LOCK = (u.on F.BRN_SECLOCK_LOCK || bitOf v.toNat 0) ∧ Frame [F.BRN_SECLOCK_LOCK] [] [] u t) ∧
    (may 0x503506 → done 0x503506 fun t =>
      if u.on F.BRN_SECLOCK_LOCK then WriteErr acc u t
      else (∀ r ∈ (regAt 0x503506).toList, (∀ f ∈ r.1.fields, FldTakes 0x503506 v.toNat 0xFF f u t) ∧ Frame (r.1.taking 0x503506) [] [] u t)) ∧
    (∀ a ∈ [0x501002, 0x501008, 0x501016], may a → u.accSecure acc = false → done a (WriteErr acc u)) ∧
    (may 0x501016 → v.toNat / 16 % 16 ≠ 0xA → done 0x501016 (WriteErr acc u)))

/-- A read of an LL register by any accessor in its own units, of TB_CMPi for one: the lowest unit answers its part and latches the whole
value; a higher unit answers its part of the latched value, whatever the register has become since; without a latch that
serves the register it latches anew and records LLORDER with event 2.

A write of TB_CMPi: a lower unit only collects in the holding copy, which it takes over, with LLORDER and event 2, where that served another
register; the highest unit commits the whole register, of which what was not collected keeps its own value. Of a register of flags that are
cleared by ones, and of one that acts, what was not collected counts as 0: WHISK_FLAG and BRN_GSTART.

That a commit empties the holding copy, and where one that served another register is left alone, is notes/assumptions/9.md. -/
def Obligations.LlAccess : Prop :=
  (
  ∀ (acc : Fin 18) (w : Width) (i : Fin 2) (k : Fin 6) (s : State),
    let u := settle s
    let a := cmpByte i k.val
    let part := fun x : Nat => x / 2 ^ (8 * k.val) % 2 ^ (8 * min (widthBytes w) (6 - k.val))
    u.coreUp = true → u.admits acc a.toNat (widthBytes w) false →
    (k.val = 0 → Completes (.llReadLow acc a w) s fun t =>
      t.busData = part (u.cmpVal i) ∧ t.latchOf 0x504 acc = some ⟨0x504, acc, cmpBase i, u.cmpVal i⟩ ∧
      Frame [] [.latches, .busData] [] u t) ∧
    (k.val ≠ 0 →
      (∀ l, u.latchOf 0x504 acc = some l → l.reg = cmpBase i →
        Completes (.llReadHigh acc a w) s fun t => t.busData = part l.val ∧ Frame [] [.busData] [] u t) ∧
      ((∀ l, u.latchOf 0x504 acc = some l → l.reg ≠ cmpBase i) →
        Completes (.llReadHigh acc a w) s fun t =>
          t.busData = part (u.cmpVal i) ∧ t.latchOf 0x504 acc = some ⟨0x504, acc, cmpBase i, u.cmpVal i⟩ ∧
          t.on F.SYS_ACCERR_LLORDER = true ∧ t.rd F.SYS_ACCERR_ACCESSOR = acc ∧
          Frame [F.SYS_ACCERR_LLORDER, F.SYS_ACCERR_ACCESSOR] [.latches, .busData] [2] u t))) ∧
  (
  ∀ (acc : Fin 18) (w : Width) (i : Fin 2) (k : Fin 6) (v : BitVec 32) (s : State),
    let u := settle s
    let a := cmpByte i k.val
    let n := widthBytes w
    let inUnit := fun j : Nat => decide (8 * k.val ≤ j) && decide (j < 8 * (k.val + n))
    let mine := u.holdOf 0x504 acc
    let others := mine.any fun l => l.reg != cmpBase i
    let old := (mine.filter fun l => l.reg == cmpBase i).getD ⟨0x504, acc, cmpBase i, 0, 0⟩
    u.coreUp = true → u.admits acc a.toNat n true →
    (k.val + n < 6 → Completes (.llWriteLow acc a w v) s fun t =>
      (∃ l, t.holdOf 0x504 acc = some l ∧ l.reg = cmpBase i ∧ ∀ j, j < 48 →
        bitOf l.mask j = (inUnit j || bitOf old.mask j) ∧
        bitOf l.val j = if inUnit j then bitOf v.toNat (j - 8 * k.val) else bitOf old.val j) ∧
      if others then
        t.on F.SYS_ACCERR_LLORDER = true ∧ t.rd F.SYS_ACCERR_ACCESSOR = acc ∧
          Frame [F.SYS_ACCERR_LLORDER, F.SYS_ACCERR_ACCESSOR] [.holds] [2] u t
      else Frame [] [.holds] [] u t) ∧
    (6 ≤ k.val + n → Completes (.llWriteHigh acc a w v) s fun t =>
      (∀ j, j < 48 → bitOf (t.cmpVal i) j =
        if inUnit j then bitOf v.toNat (j - 8 * k.val) else if bitOf old.mask j then bitOf old.val j else bitOf (u.cmpVal i) j) ∧
      t.holdOf 0x504 acc = (if others then mine else none) ∧ Frame [F.TB_CMP_MCN i, F.TB_CMP_FRAC i] [.holds] [] u t)) ∧
  (
  ∀ (acc : Fin 18) (v : BitVec 32) (s : State),
    let u := settle s
    let x := v.toNat % 256
    acc.val < 16 → u.coreUp = true → u.accSecure acc = true →
    ((u.holdOf 0x502 acc).all (fun l => l.reg != 0x502400) = true → Completes (.llWriteHigh acc 0x502407 .w8 v) s fun t =>
      (∀ c, c < 64 → bitOf (t.rd F.WHISK_FLAG_FLAG) c = (bitOf (u.rd F.WHISK_FLAG_FLAG) c && !(decide (56 ≤ c) && bitOf x (c - 56)))) ∧
      Frame [F.WHISK_FLAG_FLAG] [] [] u t) ∧
    ((u.holdOf 0x503 acc).all (fun l => l.reg != 0x503404) = true → Completes (.llWriteHigh acc 0x503405 .w8 v) s fun t =>
      ∀ b, b < 16 → t.bstate b =
        if 8 ≤ b ∧ bitOf x (b - 8) = true ∧ (u.bstate b = stOff ∨ u.bstate b = stParked ∨ u.bstate b = stFaulted) then stRun else u.bstate b))

/-! ### Commits and clocks (R28 to R37) -/

/-- COMMIT_ARM and COMMIT_CANCEL: ARM sets PEND, and where the block's boundary source is stopped, or its boundary stands, the
commit is applied at once (R34, R37; that a standing boundary is met at once is what the blocks' chapters say of theirs: R167, R197, and
those of the column ports, the MAC, the lantern outputs and the engine); CANCEL clears PEND and leaves the staging copies. -/
def Obligations.CommitArm : Prop :=
  ∀ (blk : CommitBlock) (s : State),
    let u := settle s
    u.coreUp = true →
    Completes (.commitArm blk) s (fun t =>
      if u.commitsAtOnce blk then Commits blk u t
      else t.on (cmtPend (commitPage blk)) = true ∧ Frame [cmtPend (commitPage blk)] [] [] u t) ∧
    Completes (.commitCancel blk) s (fun t =>
      t.on (cmtPend (commitPage blk)) = false ∧ Frame [cmtPend (commitPage blk)] [] [] u t)

/-- COMMIT, at a boundary of the block: with PEND set every staging copy is applied in one step, or none is (R35); without it, or
away from the boundary, no commit takes place. -/
def Obligations.CommitWhole : Prop :=
  ∀ (blk : CommitBlock) (s : State),
    let u := settle s
    u.coreUp = true → u.aonUp = true →
    Completes (.commit blk) s fun t =>
      if u.atBoundary blk && u.on (cmtPend (commitPage blk)) then Commits blk u t
      else (∀ f ∈ stagedFlds (commitPage blk), t.rd f = u.rd f) ∧ t.rd (cmtCount (commitPage blk)) = u.rd (cmtCount (commitPage blk)) ∧
        Within [] [F.TB_INC_INC, F.LIO_STAT_CLKLOSS] [] [] [] u t

/-- The switches of the core clock: to the PLL only with PLLLOCK held until the switch completes, else SWREF sets; back to RC48
by a write of SRC = 0, or first of all when PLLEN or XOEN is cleared.

The lock and unlock of the PLL, XO32 becoming stable, and the loss of the PLL's lock while the core runs on it: the core falls
back to RC48 with CLKFAIL and event 0. That PLLLOCK clears with PLLEN, and that such a loss ends an operation of the front end or of a
port that is in progress and leaves an idle one alone, is notes/assumptions/16.md. -/
def Obligations.ClockCommands : Prop :=
  (
  ∀ (held : Bool) (s : State),
    let u := settle s
    u.coreUp = true →
    Completes (.clkSwitchPll held) s (fun t =>
      if u.on F.SYS_CLK_SRC then Frame [] [] [] u t
      else if u.on F.SYS_CLK_PLLLOCK then
        (if held then t.rd F.SYS_CLK_SRC = 1 ∧ Frame [F.SYS_CLK_SRC] [] [] u t
        else t.rd F.SYS_CLK_SWREF = 1 ∧ t.rd F.SYS_CLK_PLLLOCK = 0 ∧ Frame [F.SYS_CLK_SWREF, F.SYS_CLK_PLLLOCK] [] [] u t)
      else t.rd F.SYS_CLK_SWREF = 1 ∧ Frame [F.SYS_CLK_SWREF] [] [] u t) ∧
    Completes (.clkSwitchRc48 .srcWrite) s (fun t => t.rd F.SYS_CLK_SRC = 0 ∧ Frame [F.SYS_CLK_SRC] [] [] u t) ∧
    Completes (.clkSwitchRc48 .pllenClear) s (fun t =>
      t.rd F.SYS_CLK_SRC = 0 ∧ t.rd F.SYS_CLK_PLLEN = 0 ∧ t.rd F.SYS_CLK_PLLLOCK = 0 ∧
      Frame [F.SYS_CLK_SRC, F.SYS_CLK_PLLEN, F.SYS_CLK_PLLLOCK] [] [] u t) ∧
    Completes (.clkSwitchRc48 .xoenClear) s (fun t =>
      t.rd F.SYS_CLK_SRC = 0 ∧ t.rd F.SYS_CLK_XOEN = 0 ∧ t.rd F.SYS_CLK_XORDY = 0 ∧
      (u.rd F.SYS_CLK_XORDY = 0 → Frame [F.SYS_CLK_SRC, F.SYS_CLK_XOEN] [] [] u t))) ∧
  (
  ∀ s : State,
    let u := settle s
    u.aonUp = true →
    Completes .pllLock s (fun t =>
      if u.on F.SYS_CLK_PLLEN && u.on F.SYS_CLK_XORDY && !u.on F.SYS_CLK_PLLLOCK && !u.inRest then
        t.rd F.SYS_CLK_PLLLOCK = 1 ∧ Frame [F.SYS_CLK_PLLLOCK] [] [3] u t
      else Frame [] [] [] u t) ∧
    Completes .pllUnlock s (fun t =>
      if u.on F.SYS_CLK_SRC then Frame [] [] [] u t
      else t.rd F.SYS_CLK_PLLLOCK = 0 ∧ Frame [F.SYS_CLK_PLLLOCK] [] [] u t) ∧
    Completes (.clkFail false) s (fun t =>
      let works := fun p => u.cpSt p == cpTrain || u.cpSt p == cpData || u.cpSt p == cpProbe
      let radio := u.fe_st != feOff && u.fe_st != feStby
      if u.on F.SYS_CLK_SRC then
        t.rd F.SYS_CLK_SRC = 0 ∧ t.rd F.SYS_CLK_CLKFAIL = 1 ∧ t.rd F.SYS_CLK_PLLLOCK = 0 ∧ Fires 0 u t ∧
          (radio = true → t.rd F.FE_STAT_REFF = 1) ∧ (∀ p, p ≤ 1 → works p = true → t.rd (F.CP_STAT_REFF p) = 1) ∧
          (radio = false → works 0 = false → works 1 = false →
            Frame [F.SYS_CLK_SRC, F.SYS_CLK_CLKFAIL, F.SYS_CLK_PLLLOCK] [] [0] u t)
      else Frame [] [] [] u t) ∧
    Completes .xoReady s (fun t =>
      if u.on F.SYS_CLK_XOEN && !u.on F.SYS_CLK_XORDY && (!u.inRest || u.on F.SYS_CLK_XOWARM) then
        t.rd F.SYS_CLK_XORDY = 1 ∧ Fires 4 u t ∧ Within [0x50A, 0x50B] [F.SYS_CLK_XORDY, F.BIST_HOLD, F.WHISK_CMTBLK_BLK] [] [.cp] [1, 4, 123, 131] u t
      else Frame [] [] [] u t))

/-- XO32 is lost, by XO32_LOSS or by CLK_FAIL with XO32 stopped: XORDY and PLLLOCK clear, a core on the PLL falls back with CLKFAIL
and event 0, the front end goes to OFF and each column port that is not retired too, with their reference faults, ZCOK clears,
and GRID enters HOLD. -/
def Obligations.Xo32Loss : Prop :=
  ∀ s : State,
    let u := settle s
    u.aonUp = true →
    Completes .xo32Loss s (fun t => if u.on F.SYS_CLK_XORDY then XoLost u t else Frame [] [] [] u t) ∧
    Completes (.clkFail true) s (fun t => if u.on F.SYS_CLK_SRC then XoLost u t else Frame [] [] [] u t)

/-! ### The timebase (R46 to R68) -/

/-- A cycle boundary: MCN counts on by one, and the fraction is 0, or where time is not interpolated on XO32 what the first tick at or
past the boundary gives it (R47; a slew in progress stays within the bound of R61); SYNCAGE counts; a due announcement, a TB_CMD request and the loss
of the offset are applied in this order (R53), which gives the state; then system control's commit may take place; event 32 fires
where MCN is a multiple of 2^DIV. A retired loop stays VIRTUAL (R460). That the loss of the offset is judged at the boundary is
notes/assumptions/82.md. -/
def Obligations.CycleBoundary : Prop :=
  ∀ (s : State),
    let u := settle s
    let m := (u.rd F.TB_NOW_MCN + 1) % 2 ^ 32
    u.aonUp = true → u.tb.slew.natAbs < 2 ^ 38 →
    Completes .cycleBoundary s fun t =>
      AgreesOn u t ∧ t.rd F.TB_NOW_MCN = m ∧
      (if u.tbFine then t.rd F.TB_NOW_FRAC = 0
      else u.tb.slew = 0 → 0 < u.rd F.TB_INC_INC → t.rd F.TB_NOW_FRAC * 2 ^ 24 + t.tb.sub < u.rd F.TB_INC_INC) ∧
      Counts F.TB_SYNCAGE_AGE u t ∧
      t.rd F.TB_STAT_STATE = u.tbAfter m ∧
      (u.annDue m = true → t.rd F.TB_SWCTL_MODE = 0) ∧ t.tb.cmd = 0 ∧
      (m % 2 ^ t.rd F.TB_CYCDIV_DIV = 0 → Fires 32 u t) ∧
      (t.rd F.TB_STAT_STATE = u.rd F.TB_STAT_STATE ∨ Fires 34 u t) ∧
      Within [0x504, 0x500] [F.WHISK_CMTBLK_BLK] [] [.tb] [1, 32, 34, 36, 37, 38] u t

/-- The timebase's commands and announcements: a TB_CMD request waits for the boundary, of two the later standing; an announcement is
armed, replaced or cancelled and is late when its cycle is not later than MCN, and a write of TB_OFS takes the offset and its validity, keeps
the samples and starts the rejections anew (the later request and what TB_OFS keeps are notes/assumptions/82.md).

TB_SET steps network time: it is the value written, VALID sets, AMBIG and SYNCAGE clear, TB_STEPS counts and event 35 fires. A step
backward does nothing else; one forward fires the comparators it passes over, each with LATE and counted in TB_LATE_FIRE, and a boundary
it crosses acts once (R42, R48, R55, R65).

A relay whose drive or contact instant a step passes over meets it before the next command (notes/assumptions/8.md): it is driven, or its
request ends with event 81, and LATE sets (R42, R55, R400). -/
def Obligations.TimebaseCommands : Prop :=
  (
  ∀ (val : Bool) (ofs : BitVec 16) (s : State),
    let u := settle s
    let late := !mcnLater (u.rd F.TB_SWMCN_MCN) (u.rd F.TB_NOW_MCN)
    u.coreUp = true →
    Completes .tbCmdSeek s (fun t => t.tb = { u.tb with cmd := 1 } ∧ Frame [] [.tb] [] u t) ∧
    Completes .tbCmdVirt s (fun t => t.tb = { u.tb with cmd := 2 } ∧ Frame [] [.tb] [] u t) ∧
    Completes .announceReanchor s (fun t =>
      t.rd F.TB_SWCTL_MODE = 1 ∧ t.rd F.TB_SWCTL_BYMAC = 0 ∧ t.tb = { u.tb with annLate := late } ∧
      Frame [F.TB_SWCTL_MODE, F.TB_SWCTL_BYMAC] [.tb] [] u t) ∧
    Completes .announceVirtual s (fun t =>
      t.rd F.TB_SWCTL_MODE = 2 ∧ t.rd F.TB_SWCTL_BYMAC = 0 ∧ t.tb = { u.tb with annLate := late } ∧
      Frame [F.TB_SWCTL_MODE, F.TB_SWCTL_BYMAC] [.tb] [] u t) ∧
    Completes .announceCancel s (fun t =>
      t.rd F.TB_SWCTL_MODE = 0 ∧ t.rd F.TB_SWCTL_BYMAC = 0 ∧ t.tb = { u.tb with annLate := false } ∧
      Frame [F.TB_SWCTL_MODE, F.TB_SWCTL_BYMAC] [.tb] [] u t) ∧
    Completes (.tbOfsWrite val ofs) s (fun t =>
      t.rd F.TB_OFS_OFS = ofs.toNat ∧ t.on F.TB_OFS_VAL = val ∧ t.tb = { u.tb with rej := 0 } ∧
      Frame [F.TB_OFS_OFS, F.TB_OFS_VAL] [.tb] [] u t)) ∧
  (
  ∀ (x : BitVec 48) (s : State),
    let u := settle s
    let met := fun i => u.on (cmpEn i) && !u.tbRetired && later48 (u.cmpVal i) u.now && !later48 (u.cmpVal i) x.toNat
    u.coreUp = true →
    Completes (.tbSet x) s fun t =>
      AgreesOn u t ∧ t.now = x.toNat ∧ t.on F.TB_STAT_VALID = true ∧ t.rd F.TB_STAT_AMBIG = 0 ∧ t.rd F.TB_SYNCAGE_AGE = 0 ∧
      Counts F.TB_STEPS u t ∧ Fires 35 u t ∧ t.tb.steps = u.tb.steps ++ [⟨u.now, x.toNat, u.tbUnc⟩] ∧ t.tb.slew = 0 ∧
      (later48 x.toNat u.now = true →
        (∀ i, i < 2 → t.on (cmpLate i) = (u.on (cmpLate i) || met i) ∧ (met i = true → Fires (37 + i) u t) ∧
          t.on (cmpEn i) = (u.on (cmpEn i) && (!met i || u.rd (F.TB_CMPPER_PER i) != 0))) ∧
        t.rd F.TB_LATE_FIRE = min (u.rd F.TB_LATE_FIRE + ((List.range 2).filter met).length) 65535 ∧
        (x.toNat / 2 ^ 16 ≠ u.now / 2 ^ 16 → t.rd F.TB_STAT_STATE = u.tbAfter (x.toNat / 2 ^ 16) ∧
          (x.toNat / 2 ^ 16 % 2 ^ t.rd F.TB_CYCDIV_DIV = 0 → Fires 32 u t))) ∧
      (later48 x.toNat u.now = false →
        Within [] [F.TB_NOW_MCN, F.TB_NOW_FRAC, F.TB_SYNCAGE_AGE, F.TB_STEPS, F.TB_STAT_STATE, F.TB_STAT_HOLD, F.TB_STAT_AMBIG,
          F.TB_STAT_VALID] [] [.tb] [34, 35] u t ∧ t.rd F.TB_STAT_STATE % 4 = u.rd F.TB_STAT_STATE % 4 ∧
          t.on F.TB_STAT_HOLD = u.on F.TB_STAT_HOLD) ∧
      Within [0x504, 0x500] [F.WHISK_CMTBLK_BLK] [] [.tb] [1, 32, 34, 35, 36, 37, 38] u t) ∧
  (
  ∀ (n : Fin 2) (x : TbStep) (s : State),
    let t := settle { s with tb := { s.tb with steps := [x] } }
    let passed := fun i => between48 i x.old x.new
    s.taskq = [] → s.rest = .running →
    (∀ lvl, (s.rly n).req = some (lvl, .waits true) → s.angleOk = true → passed (s.nextDrive n x.old) = true →
      (t.rly n).pin = lvl ∧ (t.rly n).req = some (lvl, .driven (s.nextAngle x.new (s.rd (F.LIO_RLYCFG_ANGLE n)))) ∧
        bitOf (t.rd F.LIO_RLYSTAT_LATE) n = true) ∧
    (∀ lvl i, (s.rly n).req = some (lvl, .driven i) → passed i = true →
      (t.rly n).req = none ∧ (t.rly n).pin = (s.rly n).pin ∧ 81 ∈ t.fired ∧ bitOf (t.rd F.LIO_RLYSTAT_LATE) n = true))

/-- A zero-crossing candidate (R50 to R52, R59 to R62): ignored where ZC_IN is not sampled or the level does not hold; rejected
with FREQERR where the period is off, or in GRID outside the window; else accepted, with event 33 and ZCOK after eight in a
row, in SEEK with the cycle test, in GRID ending HOLD and steering.

No crossing, a missed crossing, and XK32 without a tick: ZCOK clears; in GRID TB_ZCMISS counts, and MISS misses in a row
enter HOLD with event 36; XKFAIL sets and VALID clears with event 39. That the steering is rounded toward zero, that the eighth crossing
in a row already counts as one accepted with ZCOK, and from when the candidates outside the window are counted, is
notes/assumptions/82.md; how the time between crossings and the slew within a cycle are taken is notes/assumptions/20.md. -/
def Obligations.ZeroCrossings : Prop :=
  (
  ∀ (edge : BitVec 48) (held : BitVec 16) (ns : BitVec 32) (s : State),
    let u := settle s
    let frac := ofInt ((edge.toNat : Int) - signed (u.rd F.TB_ZCDLY_DLY) 16) 16
    let e := wrapFrac ((frac : Int) - u.rd F.TB_OFS_OFS)
    u.aonUp = true →
    Completes (.zcCandidate edge held ns) s fun t => AgreesOn u t ∧
      if !u.zcSampled || held.toNat < u.rd F.TB_ZCFG_GLITCH then Frame [] [] [] u t
      else if !u.tb.fresh && !u.periodOk ns.toNat then
        t.rd F.TB_STAT_ZCOK = 0 ∧ Counts F.TB_ZCSPUR u t ∧ t.rd F.TB_FLAGS_FREQERR = 1 ∧ t.tb.run = 0 ∧
          Frame [F.TB_STAT_ZCOK, F.TB_ZCSPUR, F.TB_FLAGS_FREQERR] [.tb] [39] u t
      else if u.rd F.TB_STAT_STATE = tbGrid ∧ u.rd F.TB_ZCFG_WIN * 0x40 < e.natAbs then
        t.rd F.TB_STAT_ZCOK = 0 ∧ Counts F.TB_ZCSPUR u t ∧ t.tb.run = 0 ∧
          (if u.on F.TB_STAT_HOLD && 8 ≤ u.tb.outWin + 1 then
            t.rd F.TB_STAT_STATE = tbSeek ∧ t.rd F.TB_STAT_HOLD = 0 ∧ t.rd F.TB_INC_INC = u.tbNominal ∧
              Frame [F.TB_STAT_ZCOK, F.TB_ZCSPUR, F.TB_INC_INC, F.TB_STAT_STATE, F.TB_STAT_HOLD, F.TB_STAT_AMBIG] [.tb] [34] u t
          else t.tb.outWin = u.tb.outWin + 1 ∧ Frame [F.TB_STAT_ZCOK, F.TB_ZCSPUR] [.tb] [] u t)
      else
        Fires 33 u t ∧
          (u.rd F.TB_STAT_STATE ≠ tbSeek ∨ u.on (cmtPend 0x504) = false →
            t.tb.run = u.tb.run + 1 ∧ (8 ≤ u.tb.run + 1 → t.on F.TB_STAT_ZCOK = true)) ∧
          (u.rd F.TB_STAT_STATE = tbSeek →
            if u.tb.ambigWait || !(8 ≤ u.tb.run + 1 || u.on F.TB_STAT_ZCOK) || !u.tbOfsOk then Frame [F.TB_STAT_ZCOK] [.tb] [33] u t
            else if u.isConcentrator || (u.tbUnc < 0x4000 && (wrapFrac ((u.rd F.TB_OFS_OFS : Int) - frac)).natAbs ≤ 0x8000 - u.tbUnc) then
              let nt := ofInt ((u.now : Int) + wrapFrac ((u.rd F.TB_OFS_OFS : Int) - frac)) 48
              t.now = nt ∧ t.rd F.TB_STAT_AMBIG = 0 ∧ Fires 35 u t ∧
                if later48 nt u.now = true ∧ nt / 2 ^ 16 ≠ u.now / 2 ^ 16 then
                  t.rd F.TB_STAT_STATE = (u.wr F.TB_STAT_STATE tbGrid).tbAfter (nt / 2 ^ 16)
                else t.rd F.TB_STAT_STATE = tbGrid ∧ t.rd F.TB_STAT_HOLD = 0
            else
              t.rd F.TB_STAT_STATE = tbSeek ∧ t.rd F.TB_STAT_AMBIG = 1 ∧ Counts F.TB_AMBIG u t ∧ t.tb.ambigWait = true ∧
                Frame [F.TB_STAT_ZCOK, F.TB_STAT_STATE, F.TB_STAT_HOLD, F.TB_STAT_AMBIG, F.TB_AMBIG] [.tb]
                  (if u.on F.TB_STAT_HOLD || !u.on F.TB_STAT_AMBIG then [33, 34, 39] else [33, 39]) u t) ∧
          (u.rd F.TB_STAT_STATE = tbGrid →
            t.rd F.TB_STAT_STATE = tbGrid ∧ t.on F.TB_STAT_HOLD = false ∧ t.rd F.TB_SYNCAGE_AGE = 0 ∧ t.tb.misses = 0 ∧
            t.rd F.TB_INC_INC =
              ofInt ((u.rd F.TB_INC_INC : Int) - Int.tdiv (e * u.rd F.TB_INC_INC) (2 ^ (16 + u.rd F.TB_LOOP_KI))) 32 ∧
            t.tb.slew = Int.tdiv (-e * 2 ^ 24) (2 ^ u.rd F.TB_LOOP_KP) ∧
            Within [] [F.TB_STAT_ZCOK, F.TB_STAT_STATE, F.TB_STAT_HOLD, F.TB_STAT_AMBIG, F.TB_SYNCAGE_AGE, F.TB_INC_INC] [] [.tb]
              [33, 34] u t) ∧
          (u.rd F.TB_STAT_STATE ≠ tbSeek → u.rd F.TB_STAT_STATE ≠ tbGrid → Frame [F.TB_STAT_ZCOK] [.tb] [33] u t) ∧
          Within [0x504, 0x500] [F.WHISK_CMTBLK_BLK] [] [.tb] [1, 32, 33, 34, 35, 36, 37, 38, 39] u t) ∧
  (
  ∀ (s : State),
    let u := settle s
    u.aonUp = true →
    Completes .zcAbsent s (fun t => t.rd F.TB_STAT_ZCOK = 0 ∧ t.tb = { u.tb with run := 0 } ∧ Frame [F.TB_STAT_ZCOK] [.tb] [] u t) ∧
    Completes .zcMiss s (fun t => AgreesOn u t ∧
      if u.zcSampled && u.rd F.TB_STAT_STATE == tbGrid then
        Counts F.TB_ZCMISS u t ∧ t.tb.misses = u.tb.misses + 1 ∧ t.rd F.TB_STAT_STATE = tbGrid ∧
          (if !u.on F.TB_STAT_HOLD && u.rd F.TB_ZCFG_MISS ≤ u.tb.misses + 1 then
            t.on F.TB_STAT_HOLD = true ∧ t.rd F.TB_INC_INC = u.rd F.TB_INC_INC ∧
              Frame [F.TB_ZCMISS, F.TB_STAT_STATE, F.TB_STAT_HOLD, F.TB_STAT_AMBIG] [.tb] [34, 36] u t
          else Frame [F.TB_ZCMISS] [.tb] [] u t)
      else Frame [] [] [] u t) ∧
    Completes .xkFail s (fun t =>
      if u.inRest then Frame [] [] [] u t
      else t.rd F.TB_FLAGS_XKFAIL = 1 ∧ t.rd F.TB_STAT_VALID = 0 ∧ Frame [F.TB_FLAGS_XKFAIL, F.TB_STAT_VALID] [] [39] u t))

/-- An enabled comparator whose instant lies ahead in the current cycle fires as network time reaches it, or at the first tick at which
time reaches or passes it (R47): its event, and it is
disabled, or with a period repeats at an instant later than network time (R65).

How network time comes to the instant is notes/assumptions/29.md. -/
def Obligations.TbCmpFire : Prop :=
  ∀ (i : Fin 2) (s : State),
    let u := settle s
    u.aonUp = true → u.tbRetired = false → u.on (cmpEn i) = true → u.cmpVal i / 2 ^ 16 = u.now / 2 ^ 16 →
    u.now < u.cmpVal i → u.cmpVal i < 2 ^ 48 → u.tb.slew.natAbs < 2 ^ 38 →
    Completes (.tbCmpFire i) s fun t =>
      Arrives u (u.cmpVal i) t ∧ Fires (37 + i) u t ∧
      (if u.rd (F.TB_CMPPER_PER i) = 0 then t.on (cmpEn i) = false
      else t.on (cmpEn i) = true ∧ t.rd (F.TB_CMP_FRAC i) = u.rd (F.TB_CMP_FRAC i) ∧
        t.rd (F.TB_CMP_MCN i) = (u.rd (F.TB_CMP_MCN i) + u.rd (F.TB_CMPPER_PER i)) % 2 ^ 32) ∧
      (t.now / 2 ^ 16 = u.now / 2 ^ 16 →
        Within [] [F.TB_NOW_MCN, F.TB_NOW_FRAC, F.TB_CMPCTL_EN0, F.TB_CMPCTL_EN1, F.TB_CMP_MCN 0, F.TB_CMP_MCN 1] [] [.tb] [37, 38] u t) ∧
      Within [0x504, 0x500] [F.WHISK_CMTBLK_BLK] [] [.tb] [1, 32, 34, 36, 37, 38] u t

/-! ### The Sweune's words (R69 to R121) -/

/-- Issue (R72 to R78): a burner that cannot issue does nothing; a word past CLIM, gated by the security maps, or not to be fetched
raises its exception, SECURITY with the word in EINFO; a word that issues is counted, takes the yield mark away and moves its level's
round robin. Of the other burners the one that it passes over loses its mark, and no other: the first before it in the search of R73 that can
issue and has a mark. The first word after a Rest exit fires source 10, and before it source 175 where Rest ended a C3 operation (R121, R365).

The order of the limit, the maps and the fetch is notes/assumptions/15.md; that a mark is lost at a command's issue is
notes/assumptions/76.md, and with which word sources 10 and 175 fire notes/assumptions/59.md. -/
def Obligations.WordIssue : Prop :=
  ∀ (word : Instr) (s : State),
    let u := settle s
    ∀ b : Fin 16, issuer word = some b → u.coreUp = true →
      let v := u.fetched b
      let a := u.wordAddr b
      let prio := fun c => u.rd (F.BRN_CFG_PRIO c)
      let turn := fun c => (c + 16 - u.rr.getD (prio c) 0 % 16) % 16
      let before := fun c d : Nat => decide (prio c < prio d) || (prio c == prio d && decide (turn c < turn d))
      let marked := fun c => u.issues c && (u.bx c).yield && before c b
      let passed := fun c => marked c && (List.range 16).all fun d => !marked d || d == c || before c d
      (u.issues b = false → Completes word s (Frame [] [] [] u)) ∧
      (u.issues b = true →
        (u.rd (F.BRN_CLIM_LAST b) < u.pc b → Completes word s (ExcTaken b 6 0 0 0 v)) ∧
        (u.pc b ≤ u.rd (F.BRN_CLIM_LAST b) → (u.closedTo b a || u.closedTo b (a + 2)) = true →
          Completes word s (ExcTaken b 5 0 a (wordOf word) v)) ∧
        (u.pc b ≤ u.rd (F.BRN_CLIM_LAST b) → (u.closedTo b a || u.closedTo b (a + 2)) = false →
          (u.execAt a && u.execAt (a + 2)) = false → Completes word s (ExcTaken b 6 0 a 0 v)) ∧
        v.rd (F.BRN_ISSUE b) = (u.rd (F.BRN_ISSUE b) + 1) % 2 ^ 32 ∧ (v.bx b).yield = false ∧
        v.rr.getD (u.rd (F.BRN_CFG_PRIO b)) 0 = (b + 1) % 16 ∧
        (∀ c, c < 16 → c ≠ b.val → v.bx c = { u.bx c with yield := (u.bx c).yield && !passed c }) ∧
        (u.pwr.first = true → Fires 10 u v ∧ v.pwr.first = false ∧ v.c3.ended = false ∧ (u.c3.ended = true → Fires 175 u v)) ∧
        (u.pwr.first = false → 0x400000 ≤ a → Frame [F.BRN_ISSUE b, F.BIST_HOLD] [.rr, .brn] [] u v))

/-- CLAUSE (R99 to R101): both halves read the registers and flags as they stood before the word; two halves that write one
register, or flags both, raise CLAUSE and write nothing. -/
def Obligations.ClauseWord : Prop :=
  ∀ (b : Fin 16) (f : ClauseF) (s : State),
    let u := settle s
    let v := u.fetched b
    let r1 := halfVal b f.h1 v
    let r2 := halfVal b f.h2 v
    let f1 := halfFlags b f.h1 v
    let f2 := halfFlags b f.h2 v
    u.ready b = true →
    Completes (.clause b f) s fun t =>
      if (r1.isSome && r2.isSome && f.h1.d == f.h2.d) || (f1.isSome && f2.isSome) then ExcTaken b 2 0 0 (clauseWord f) v t
      else
        (∀ x, r1 = some x → t.breg b f.h1.d.toNat = x) ∧ (∀ x, r2 = some x → t.breg b f.h2.d.toNat = x) ∧
        (∀ x, f1 = some x → t.flags b = x) ∧ (∀ x, f2 = some x → t.flags b = x) ∧
        WordEnds b ((if r1.isSome then [F.BRN_B b f.h1.d.toNat] else []) ++ (if r2.isSome then [F.BRN_B b f.h2.d.toNat] else []) ++
          (if f1.isSome || f2.isSome then [F.BRN_FLAGS_TVCNZ b] else [])) [] [] (v.pc b + 1)
          { v.bx b with yield := (v.bx b).yield || f.hint == 1 } v t

/-- The byte additions and subtractions, of a register and of an immediate (R102, R104, R105): the result and all four flags,
Z chained where the carry comes in from a register operation. -/
def Obligations.ByteAddSub : Prop :=
  ∀ (b : Fin 16) (f : Alu2) (g : AluI) (s : State),
    let u := settle s
    let v := u.fetched b
    let fl := v.flags b
    let c := if fl.c then 1 else 0
    let d := f.d.toNat
    let x := v.breg b d
    let y := v.breg b f.s.toNat
    let e := g.d.toNat
    let z := v.breg b e
    let i := g.imm.toNat
    let chain := fun n : Flags => { n with z := fl.z && n.z }
    u.ready b = true →
    Completes (.adc b f) s (IfLegal b (alu2Word 0 f) (f.rsv == 0) v
      (ByteRes b d ((x + y + c) % 256) (chain (sumFlags 8 x y c fl)) v)) ∧
    Completes (.sbc b f) s (IfLegal b (alu2Word 1 f) (f.rsv == 0) v
      (ByteRes b d (diff 8 x y c) (chain (diffFlags 8 x y c fl)) v)) ∧
    Completes (.cmpc b f) s (IfLegal b (alu2Word 2 f) (f.rsv == 0) v (FlagRes b (chain (diffFlags 8 x y c fl)) v)) ∧
    Completes (.neg b f) s (IfLegal b (alu2Word 4 f) (f.rsv == 0 && f.s == 0) v
      (ByteRes b d (diff 8 0 x 0) (diffFlags 8 0 x 0 fl) v)) ∧
    Completes (.inc b f) s (IfLegal b (alu2Word 5 f) (f.rsv == 0 && f.s == 0) v
      (ByteRes b d ((x + 1) % 256) { sumFlags 8 x 1 0 fl with c := fl.c } v)) ∧
    Completes (.dec b f) s (IfLegal b (alu2Word 6 f) (f.rsv == 0 && f.s == 0) v
      (ByteRes b d (diff 8 x 1 0) { diffFlags 8 x 1 0 fl with c := fl.c } v)) ∧
    Completes (.addi b g) s (IfLegal b (aluIWord 1 g) (g.rsv == 0) v (ByteRes b e ((z + i) % 256) (sumFlags 8 z i 0 fl) v)) ∧
    Completes (.subi b g) s (IfLegal b (aluIWord 2 g) (g.rsv == 0) v (ByteRes b e (diff 8 z i 0) (diffFlags 8 z i 0 fl) v)) ∧
    Completes (.cmpi b g) s (IfLegal b (aluIWord 6 g) (g.rsv == 0) v (FlagRes b (diffFlags 8 z i 0 fl) v)) ∧
    Completes (.adci b g) s (IfLegal b (aluIWord 7 g) (g.rsv == 0) v
      (ByteRes b e ((z + i + c) % 256) (sumFlags 8 z i c fl) v))

/-- The byte logic, moves, shifts and bit operations (R102, R104, R105). -/
def Obligations.ByteLogicShift : Prop :=
  ∀ (b : Fin 16) (f : Alu2) (g : AluI) (s : State),
    let u := settle s
    let v := u.fetched b
    let fl := v.flags b
    let c := if fl.c then 1 else 0
    let d := f.d.toNat
    let x := v.breg b d
    let e := g.d.toNat
    let z := v.breg b e
    let i := g.imm.toNat
    let one := f.rsv == 0 && f.s == 0
    let bit := f.rsv == 0 && decide (f.s.toNat < 8)
    let shifted := fun r out => ByteRes b d r { znFlags 8 r fl with c := out } v
    u.ready b = true →
    Completes (.not b f) s (IfLegal b (alu2Word 3 f) one v (ByteRes b d (255 - x) (znFlags 8 (255 - x) fl) v)) ∧
    Completes (.tst b f) s (IfLegal b (alu2Word 21 f) one v (FlagRes b (znFlags 8 x fl) v)) ∧
    Completes (.movi b g) s (IfLegal b (aluIWord 0 g) (g.rsv == 0) v (RegRes b e i v)) ∧
    Completes (.andi b g) s (IfLegal b (aluIWord 3 g) (g.rsv == 0) v (ByteRes b e (z &&& i) (znFlags 8 (z &&& i) fl) v)) ∧
    Completes (.ori b g) s (IfLegal b (aluIWord 4 g) (g.rsv == 0) v (ByteRes b e (z ||| i) (znFlags 8 (z ||| i) fl) v)) ∧
    Completes (.xori b g) s (IfLegal b (aluIWord 5 g) (g.rsv == 0) v (ByteRes b e (z ^^^ i) (znFlags 8 (z ^^^ i) fl) v)) ∧
    Completes (.shl b f) s (IfLegal b (alu2Word 7 f) one v (shifted (2 * x % 256) (decide (128 ≤ x)))) ∧
    Completes (.shr b f) s (IfLegal b (alu2Word 8 f) one v (shifted (x / 2) (x % 2 == 1))) ∧
    Completes (.asr b f) s (IfLegal b (alu2Word 9 f) one v (shifted (x / 2 + x / 128 * 128) (x % 2 == 1))) ∧
    Completes (.rol b f) s (IfLegal b (alu2Word 10 f) one v (shifted (2 * x % 256 + c) (decide (128 ≤ x)))) ∧
    Completes (.ror b f) s (IfLegal b (alu2Word 11 f) one v (shifted (c * 128 + x / 2) (x % 2 == 1))) ∧
    Completes (.swapn b f) s (IfLegal b (alu2Word 12 f) one v
      (ByteRes b d (x % 16 * 16 + x / 16) (znFlags 8 (x % 16 * 16 + x / 16) fl) v)) ∧
    Completes (.btst b f) s (IfLegal b (alu2Word 13 f) bit v (FlagRes b { fl with t := x / 2 ^ f.s.toNat % 2 == 1 } v)) ∧
    Completes (.bset b f) s (IfLegal b (alu2Word 14 f) bit v
      (RegRes b d (x + (1 - x / 2 ^ f.s.toNat % 2) * 2 ^ f.s.toNat) v)) ∧
    Completes (.bclr b f) s (IfLegal b (alu2Word 15 f) bit v
      (RegRes b d (x - x / 2 ^ f.s.toNat % 2 * 2 ^ f.s.toNat) v))

/-- The pointer words (R102, R105, R106): multiplication into a pointer, moves, sums, differences and comparisons modulo 2^16,
with the 12-bit immediate sign-extended. -/
def Obligations.PointerWords : Prop :=
  ∀ (b : Fin 16) (f : Alu2) (g : AddpF) (l : LdpF) (s : State),
    let u := settle s
    let v := u.fetched b
    let fl := v.flags b
    let d := f.d.toNat
    let x := v.preg b d
    let y := v.preg b f.s.toNat
    let m := v.breg b (2 * d) * v.breg b f.s.toNat
    let p := g.p.toNat
    let z := v.preg b p
    let i := ofInt g.imm.toInt 16
    let pp := f.rsv == 0 && decide (d < 8) && decide (f.s.toNat < 8)
    u.ready b = true →
    Completes (.mulu b f) s (IfLegal b (alu2Word 16 f) (f.rsv == 0 && decide (d < 8)) v (PtrRes b d m (znFlags 16 m fl) v)) ∧
    Completes (.movp b f) s (IfLegal b (alu2Word 17 f) pp v (PtrRes b d y fl v)) ∧
    Completes (.addp b f) s (IfLegal b (alu2Word 18 f) pp v (PtrRes b d ((x + y) % 2 ^ 16) (sumFlags 16 x y 0 fl) v)) ∧
    Completes (.subp b f) s (IfLegal b (alu2Word 19 f) pp v (PtrRes b d (diff 16 x y 0) (diffFlags 16 x y 0 fl) v)) ∧
    Completes (.cmpp b f) s (IfLegal b (alu2Word 20 f) pp v (FlagRes b (diffFlags 16 x y 0 fl) v)) ∧
    Completes (.ldp b l) s (PtrRes b l.p.toNat l.imm.toNat fl v) ∧
    Completes (.addpi b g) s (IfLegal b (addpWord 0 g) (g.rsv == 0) v (PtrRes b p ((z + i) % 2 ^ 16) fl v)) ∧
    Completes (.addpif b g) s (IfLegal b (addpWord 1 g) (g.rsv == 0) v
      (PtrRes b p ((z + i) % 2 ^ 16) (sumFlags 16 z i 0 fl) v)) ∧
    Completes (.cmppi b g) s (IfLegal b (addpWord 2 g) (g.rsv == 0) v (FlagRes b (diffFlags 16 z i 0 fl) v))

/-- Control transfers (R96, R109, R110): a branch goes where its condition holds, and a call leaves PC + 1 in P6, reading its
pointer before. -/
def Obligations.TransferWords : Prop :=
  ∀ (b : Fin 16) (f : BrF) (g : JmpF) (o : BitVec 12) (s : State),
    let u := settle s
    let v := u.fetched b
    let fl := v.flags b
    let lower := fl.n != fl.v
    let holds := [fl.z, !fl.z, fl.c, !fl.c, fl.n, !fl.n, fl.v, !fl.v, !(fl.c || fl.z), fl.c || fl.z, !lower, lower, !(fl.z || lower),
      fl.z || lower, fl.t, !fl.t].getD f.cond.toNat false
    let goes := fun pc => WordEnds b [] [] [] pc (v.bx b) v
    let calls := fun pc t => t.preg b 6 = (v.pc b + 1) % 2 ^ 16 ∧
      WordEnds b [F.BRN_B b 12, F.BRN_B b 13] [] [] pc (v.bx b) v t
    u.ready b = true →
    Completes (.br b f) s (goes (if holds then v.pc b + 1 + ofInt f.off.toInt 16 else v.pc b + 1)) ∧
    Completes (.jmp b g) s (IfLegal b (jmpWord 10 g) (g.rsv == 0) v (goes g.tgt.toNat)) ∧
    Completes (.call b g) s (IfLegal b (jmpWord 11 g) (g.rsv == 0) v (calls g.tgt.toNat)) ∧
    Completes (.jr b o) s (IfLegal b (sysWord 9 o.toNat) (o.toNat < 8) v (goes (v.preg b o.toNat))) ∧
    Completes (.callr b o) s (IfLegal b (sysWord 10 o.toNat) (o.toNat < 8) v (calls (v.preg b o.toNat)))

/-- The system words (R88, R109, R111): NOP, YIELD, SIG with the burner's event, BRK's exception with its code in EINFO, the
exception return, and the words that read and write the flags and the fixed values. -/
def Obligations.SystemWords : Prop :=
  ∀ (b : Fin 16) (o : BitVec 12) (s : State),
    let u := settle s
    let v := u.fetched b
    let fl := v.flags b
    let x := v.bx b
    let d := o.toNat / 16
    let lower := fl.n != fl.v
    let holds := [fl.z, !fl.z, fl.c, !fl.c, fl.n, !fl.n, fl.v, !fl.v, !(fl.c || fl.z), fl.c || fl.z, !lower, lower, !(fl.z || lower),
      fl.z || lower, fl.t, !fl.t].getD o.toNat false
    u.ready b = true →
    Completes (.nop b o) s (IfLegal b (sysWord 0 o.toNat) (o == 0) v (WordEnds b [] [] [] (v.pc b + 1) x v)) ∧
    Completes (.yield b o) s (IfLegal b (sysWord 1 o.toNat) (o == 0) v
      (WordEnds b [] [] [] (v.pc b + 1) { x with yield := true } v)) ∧
    Completes (.sig b o) s (IfLegal b (sysWord 6 o.toNat) (o == 0) v fun t =>
      t.rd (F.BRN_STAT_SIGF b) = 1 ∧ WordEnds b [F.BRN_STAT_SIGF b] [] [16 + b] (v.pc b + 1) x v t) ∧
    Completes (.brk b o) s (fun t => AgreesOn u t ∧ ExcTaken b 7 0 0 (sysWord 7 o.toNat) v t) ∧
    Completes (.eret b o) s (IfLegal b (sysWord 8 o.toNat) (o == 0 && v.on (F.BRN_STAT_EXC b)) v fun t =>
      AgreesOn u t ∧ t.rd (F.BRN_FLAGS_TVCNZ b) = v.rd (F.BRN_EFLAGS_TVCNZ b) ∧ t.rd (F.BRN_STAT_EXC b) = 0 ∧
        WordEnds b [F.BRN_FLAGS_TVCNZ b, F.BRN_STAT_EXC b] [] [] (v.rd (F.BRN_EPC_EPC b)) x v t) ∧
    Completes (.rds b o) s (IfLegal b (sysWord 11 o.toNat) (decide (d < 16) && decide (o.toNat % 16 < 4)) v
      (RegRes b d ([0x10, v.cpresent, b.val, v.rd (F.BRN_CFG_WORLD b)].getD (o.toNat % 16) 0) v)) ∧
    Completes (.movf b o) s (IfLegal b (sysWord 12 o.toNat) (decide (d < 16) && o.toNat % 16 == 0) v
      (RegRes b d (v.rd (F.BRN_FLAGS_TVCNZ b)) v)) ∧
    Completes (.setf b o) s (IfLegal b (sysWord 13 o.toNat) (o.toNat < 16) v fun t =>
      t.rd (F.BRN_FLAGS_TVCNZ b) = v.breg b o.toNat % 32 ∧
        WordEnds b [F.BRN_FLAGS_TVCNZ b] [] [] (v.pc b + 1) x v t) ∧
    Completes (.sett b o) s (IfLegal b (sysWord 14 o.toNat) (o.toNat < 16) v (FlagRes b { fl with t := holds } v))

/-- Waiting and waking (R79, R80): a WAIT or SLEEP whose bit is set clears it and goes on, the any forms clear none; else the burner
waits at the word. A wake goes on after that word and clears the bit awaited, but a burner whose parking is requested parks at the word
(R81). That PC stays at the word while the burner waits is notes/assumptions/11.md. -/
def Obligations.WaitWords : Prop :=
  ∀ (b : Fin 16) (o : BitVec 12) (s : State),
    let u := settle s
    let v := u.fetched b
    let pend := F.BRN_WPEND_PEND b
    let taken := fun (c : Nat) (w t : State) => ∀ k, k < 64 → bitOf (t.rd pend) k = (bitOf (w.rd pend) k && k != c)
    let one := fun st t =>
      if bitOf (v.rd pend) o.toNat then
        (v.on (F.BRN_STAT_PARKREQ b) = false → taken o.toNat v t) ∧ WordEnds b [pend] [] [] (v.pc b + 1) (v.bx b) v t
      else
        (v.on (F.BRN_STAT_PARKREQ b) = false → t.bstate b = st) ∧
          WordEnds b [F.BRN_STAT_STATE b] [] [] (v.pc b) { v.bx b with await := o.toNat } v t
    let any := fun st t =>
      if v.rd pend ≠ 0 then WordEnds b [] [] [] (v.pc b + 1) (v.bx b) v t
      else
        (v.on (F.BRN_STAT_PARKREQ b) = false → t.bstate b = st) ∧
          WordEnds b [F.BRN_STAT_STATE b] [] [] (v.pc b) { v.bx b with await := 64 } v t
    let a := (u.bx b).await
    (u.ready b = true →
      Completes (.wait b o) s (IfLegal b (sysWord 2 o.toNat) (o.toNat < 64) v (one stWait)) ∧
      Completes (.waita b o) s (IfLegal b (sysWord 3 o.toNat) (o == 0) v (any stWait)) ∧
      Completes (.sleep b o) s (IfLegal b (sysWord 4 o.toNat) (o.toNat < 64) v (one stSleep)) ∧
      Completes (.sleepa b o) s (IfLegal b (sysWord 5 o.toNat) (o == 0) v (any stSleep))) ∧
    (u.coreUp = true →
      Completes (.wake b) s fun t => AgreesOn u t ∧
        if (u.bstate b = stWait ∨ u.bstate b = stSleep) ∧ u.on (F.BRN_STAT_PARKREQ b) then
          t.bstate b = stParked ∧ t.pc b = u.pc b ∧ (∀ k, k < 64 → bitOf (u.rd pend) k = true → bitOf (t.rd pend) k = true) ∧
            Frame [F.BRN_STAT_STATE b, F.BRN_STAT_PARKREQ b, F.BRN_STAT_PARKF b] [.brn] [16 + b] u t
        else if (u.bstate b = stWait ∨ u.bstate b = stSleep) ∧ (if a < 64 then bitOf (u.rd pend) a = true else u.rd pend ≠ 0) then
          t.bstate b = stRun ∧ t.pc b = (u.pc b + 1) % 2 ^ 16 ∧ taken a u t ∧ t.bx b = { u.bx b with await := 64 } ∧
            (∀ c, c ≠ b.val → t.bx c = u.bx c) ∧ Frame [F.BRN_STAT_STATE b, F.BRN_PC_PC b, pend] [.brn] [] u t
        else Frame [] [] [] u t)

/-- Loads and stores (R76, R98, R107): the window, then the access; each mode's address and pointer update. A byte of SRAM, of the context RAM
or of the frame buffer that the burner reaches is read or written whole; a byte of a register that shows its fields alone is read as they are,
and one whose write only reaches its fields is written by their access codes (R14, R25). A store into flash or any other place that takes
none, a load from one that gives none, and an undefined offset are BUS, where the security maps do not make them SECURITY first (R26;
notes/assumptions/14.md). -/
def Obligations.LoadStore : Prop :=
  ∀ (b : Fin 16) (f : MemF) (s : State),
    let u := settle s
    let v := u.fetched b
    let p := f.p.toNat
    let d := f.r.toNat
    let moved := (v.preg b p + ofInt f.imm.toInt 16) % 2 ^ 16
    let a := if f.mode = 1 then v.preg b p else moved
    let ph := windowAddr b a v
    let ptr := if f.mode = 0 then [] else [F.BRN_B b (2 * p), F.BRN_B b (2 * p + 1)]
    let r := busRead b ph 1 v
    let x := v.breg b d
    let w := busWrite b ph 1 x v
    let ld := memWord 6 f
    let st := memWord 7 f
    let barred := if v.closedTo b ph then 5 else 4
    let reg := fun (okReg : Nat → Bool) => (regAt ph).filter fun q =>
      decide (0x500000 ≤ ph) && decide (ph < 0x514000) && decide (ph % 0x1000 < 0x800) && !q.1.ll && okReg q.2 && !v.closedTo b ph
    let hole := decide (0x500000 ≤ ph) && decide (ph < 0x514000) && undefinedAt ph 1 && !(decide (0x503700 ≤ ph) && decide (ph < 0x503740))
    u.ready b = true →
    Completes (.ldb b f) s (IfLegal b ld (f.mode != 3 && !(f.mode != 0 && d / 2 == p)) v fun t =>
      if v.on (F.BRN_W_EN b (a / 2 ^ 14)) then
        (∀ m, r.1 = .ok m → t.breg b d = m % 256 ∧ (f.mode ≠ 0 → t.preg b p = moved) ∧
          WordEnds b (F.BRN_B b d :: ptr) [] [] (r.2.pc b + 1) (r.2.bx b) r.2 t) ∧
        (r.1 = .security → ExcTaken b 5 0 ph ld r.2 t) ∧ (r.1 = .bus ∨ r.1 = .unc → ExcTaken b 4 0 ph ld r.2 t) ∧
        (v.ramOk b ph = true → t.breg b d = (v.byte ph).toNat ∧ (f.mode ≠ 0 → t.preg b p = moved) ∧
          WordEnds b (F.BRN_B b d :: ptr) [.busData] [] (v.pc b + 1) (v.bx b) v t) ∧
        (∀ q, reg shownReg = some q → ShowsByte q.1 q.2 (ph - q.2) (t.breg b d) v ∧ (f.mode ≠ 0 → t.preg b p = moved) ∧
          WordEnds b (F.BRN_B b d :: ptr) [.busData] [] (v.pc b + 1) (v.bx b) v t) ∧
        (v.noLoad ph = true ∨ hole = true → ExcTaken b barred 0 ph ld v t)
      else ExcTaken b 4 0 ph ld v t) ∧
    Completes (.stb b f) s (IfLegal b st (f.mode != 3) v fun t =>
      if v.on (F.BRN_W_EN b (a / 2 ^ 14)) && v.on (F.BRN_W_WE b (a / 2 ^ 14)) then
        (∀ m, w.1 = .ok m →
          if w.2.boot.held then Frame [] [] [] w.2 t
          else (f.mode ≠ 0 → t.preg b p = moved) ∧ WordEnds b ptr [] [] (w.2.pc b + 1) (w.2.bx b) w.2 t) ∧
        (w.1 = .security → ExcTaken b 5 0 ph st w.2 t) ∧ (w.1 = .bus ∨ w.1 = .unc → ExcTaken b 4 0 ph st w.2 t) ∧
        (v.ramOk b ph = true → t.byte ph = BitVec.ofNat 8 x ∧ (∀ c, c ≠ ph → t.byte c = v.byte c) ∧
          (f.mode ≠ 0 → t.preg b p = moved) ∧
          WordEnds b ptr [] [] (v.pc b + 1) (v.bx b) (v.setByte ph (BitVec.ofNat 8 x)) t) ∧
        (∀ q, reg plainReg = some q →
          let o := 8 * (ph - q.2)
          (∀ y ∈ q.1.fields, FldTakes q.2 (x * 2 ^ o) (255 * 2 ^ o) y v t) ∧ (f.mode ≠ 0 → t.preg b p = moved) ∧
            WordEnds b (q.1.taking q.2 ++ ptr) [] [] (v.pc b + 1) (v.bx b) v t) ∧
        (v.noStore ph = true ∨ hole = true → ExcTaken b barred 0 ph st v t)
      else ExcTaken b 4 0 ph st v t)

/-- The ATOM words (R108): one read and one write of a byte as a single access, permitted where both a load and a store are; fields
that a function does not use are 0. That the check of a store is made with the byte the word would write, also where a CAS writes none, is
notes/assumptions/70.md. -/
def Obligations.AtomWords : Prop :=
  ∀ (b : Fin 16) (f : AtomF) (s : State),
    let u := settle s
    let v := u.fetched b
    let fl := v.flags b
    let p := f.p.toNat
    let d := f.d.toNat
    let x := v.breg b d
    let y := v.breg b f.s.toNat
    let k := f.bit.toNat
    let dr := F.BRN_B b d
    let fr := F.BRN_FLAGS_TVCNZ b
    u.ready b = true →
    Completes (.xchg b f) s (IfLegal b (atomWord 0 f) (f.rsv == 0 && f.s == 0 && f.bit == 0) v
      (AtomRes b p (atomWord 0 f) (fun _ => some x) (fun _ => x) [dr] (fun m t => t.breg b d = m % 256) v)) ∧
    Completes (.cas b f) s (IfLegal b (atomWord 1 f) (f.rsv == 0 && f.bit == 0) v
      (AtomRes b p (atomWord 1 f) (fun m => if m = x then some y else none) (fun _ => y) [dr, fr]
        (fun m t => t.flags b = { fl with t := m == x } ∧ t.breg b d = if m = x then x else m % 256) v)) ∧
    Completes (.ldadd b f) s (IfLegal b (atomWord 2 f) (f.rsv == 0 && f.s == 0 && f.bit == 0) v
      (AtomRes b p (atomWord 2 f) (fun m => some ((m + x) % 256)) (fun m => (m + x) % 256) [dr, fr]
        (fun m t => t.breg b d = m % 256 ∧ t.flags b = sumFlags 8 m x 0 fl) v)) ∧
    Completes (.tset b f) s (IfLegal b (atomWord 3 f) (f.rsv == 0 && f.d == 0 && f.s == 0) v
      (AtomRes b p (atomWord 3 f) (fun m => some (m ||| 2 ^ k)) (fun m => m ||| 2 ^ k) [fr]
        (fun m t => t.flags b = { fl with t := bitOf m k }) v)) ∧
    Completes (.tclr b f) s (IfLegal b (atomWord 4 f) (f.rsv == 0 && f.d == 0 && f.s == 0) v
      (AtomRes b p (atomWord 4 f) (fun m => some (m - m / 2 ^ k % 2 * 2 ^ k)) (fun m => m - m / 2 ^ k % 2 * 2 ^ k) [fr]
        (fun m t => t.flags b = { fl with t := bitOf m k }) v))

/-- CRD and CWR (R112, R113, R117, R118, R120): the byte at a coprocessor register is read, or written and reads back; an undefined
register is illegal, a read-only or busy one takes no write. C3 is busy too while the update block holds it (R454).

CSYNC (R116): with nothing of the burner's outstanding it sets T from the outcome of its latest operation; else the burner is
held at the word. The 300 µs for which an adverb keeps its partition busy are ten ticks of XK32 (notes/assumptions/59.md). -/
def Obligations.CoprocessorAccess : Prop :=
  (
  ∀ (b : Fin 16) (f : CrF) (s : State),
    let u := settle s
    let v := u.fetched b
    let cp := f.cp.toNat
    let cr := f.cr.toNat
    let y := v.breg b f.r.toNat
    let x := v.bx b
    let legal := (v.cpByte b cp cr).isSome
    let c3Busy := v.c3.busy || v.upd.lock.isSome
    u.ready b = true →
    Completes (.crd b f) s (IfPresent b cp (crWord 1 f) legal v fun t =>
      (∀ n, v.cpByte b cp cr = some n → t.breg b f.r.toNat = n % 256) ∧ AdverbHeld cp v t ∧
        WordEnds b [F.BRN_B b f.r.toNat] [.bist] [] (v.pc b + 1) x v t) ∧
    Completes (.cwr b f) s (IfPresent b cp (crWord 2 f) legal v fun t =>
      (cp = 0 → t.cpByte b 0 cr = some (if cr = 9 then y % 4 else y) ∧ ∀ k, k < 10 → k ≠ cr → t.cpByte b 0 k = v.cpByte b 0 k) ∧
      (cp = 1 → cr ≠ 5 →
        t.cpByte b 1 cr = some (if cr = 4 then y % 8 else if cr < 4 then y % 2 ^ (crcWidth x.c1cfg - 8 * cr) else y) ∧
        ∀ k, 4 ≤ k → k < 24 → k ≠ cr → t.cpByte b 1 k = v.cpByte b 1 k) ∧
      (cp = 2 → t.c2Set b = c2Write (v.c2Set b) cr y ∧ ∀ c, c ≠ b.val → t.c2Set c = v.c2Set c) ∧
      (cp = 3 →
        (c3Busy = true ∨ cr = 0x200 → t.c3 = v.c3) ∧
        (c3Busy = false → cr < 0x200 → t.cpByte b 3 cr = some y ∧ ∀ k, k < 0x202 → k ≠ cr → t.cpByte b 3 k = v.cpByte b 3 k) ∧
        (c3Busy = false → cr = 0x201 → t.c3 = { v.c3 with mod := y % 4 })) ∧
      AdverbHeld cp v t ∧
      WordEnds b [] (if cp = 2 then [.ciph] else if cp = 3 then [.c3, .bist] else [.bist]) [] (v.pc b + 1)
        (if cp = 0 then c0Write x cr y else if cp = 1 then c1Write x cr y else x) v t)) ∧
  (
  ∀ (b : Fin 16) (f : CsyncF) (s : State),
    let u := settle s
    let v := u.fetched b
    let cp := f.cp.toNat
    let x := v.bx b
    let running := (cp == 3 && v.c3.busy && v.c3.issuer == b.val) || (cp == 2 && v.ciph.op.any fun o => o.burner == b.val)
    let bad := (cp == 3 && x.c3bad) || (cp == 2 && x.c2bad)
    u.ready b = true →
    Completes (.csync b f) s (IfPresent b cp (adverbWord 3 cp f.rsv.toNat) (f.rsv == 0) v fun t =>
      AdverbHeld cp v t ∧
      if running then WordEnds b [] [.bist] [] (v.pc b) { x with csync := some cp } v t
      else t.flags b = { v.flags b with t := !bad } ∧
        WordEnds b [F.BRN_FLAGS_TVCNZ b] [.bist] [] (v.pc b + 1) x v t))

/-- The C0 functions (R117): products, sums and shifts of the 40-bit accumulator, which wraps with OVF, and the clamp with SAT;
unused operand bits and shifts from 40 to 63 are illegal.

The C1 functions (R118): the CRC bit by bit in the order that REF gives, its start and its final inversion; bit fields, the
reversal and the count of bits. The 300 µs for which an adverb keeps its partition busy are ten ticks of XK32 (notes/assumptions/59.md). -/
def Obligations.CoprocessorArithmetic : Prop :=
  (
  ∀ (b : Fin 16) (o : BitVec 10) (s : State),
    let u := settle s
    let v := u.fetched b
    let x := v.bx b
    let a := signed x.c0a 40
    let p := signed x.c0x 16 * signed x.c0y 16
    let q : Int := x.c0x * x.c0y
    let acc := fun (r : Int) (fits : Bool) =>
      CtxRes b 0 { x with c0a := (r % 2 ^ 40).toNat, c0stat := x.c0stat ||| (if fits then 0 else 1) } v
    let sgnd := fun r : Int => acc r (decide (-2 ^ 39 ≤ r ∧ r < 2 ^ 39))
    let unsg := fun r : Int => acc r (decide (0 ≤ r ∧ r < 2 ^ 40))
    let word := fun fn => IfPresent b 0 (cxWord 0 fn o.toNat) (o == 0) v
    let clamped := max (-0x8000) (min 0x7FFF a)
    u.ready b = true →
    Completes (.c0Clr b o) s (word 0 (CtxRes b 0 { x with c0a := 0 } v)) ∧
    Completes (.c0Mul b o) s (word 1 (sgnd p)) ∧
    Completes (.c0Mac b o) s (word 2 (sgnd (a + p))) ∧
    Completes (.c0Msu b o) s (word 3 (sgnd (a - p))) ∧
    Completes (.c0Mulu b o) s (word 4 (unsg q)) ∧
    Completes (.c0Macu b o) s (word 5 (unsg (x.c0a + q))) ∧
    Completes (.c0Shra b o) s (IfPresent b 0 (cxWord 0 6 o.toNat) (o.toNat < 40) v
      (CtxRes b 0 { x with c0a := ((a / 2 ^ o.toNat) % 2 ^ 40).toNat } v)) ∧
    (x.c0a < 2 ^ 40 → Completes (.c0Sata b o) s (word 7
      (CtxRes b 0 { x with c0a := (clamped % 2 ^ 40).toNat, c0stat := x.c0stat ||| (if clamped = a then 0 else 2) } v)))) ∧
  (
  ∀ (b : Fin 16) (r : BitVec 4) (o : BitVec 10) (s : State),
    let u := settle s
    let v := u.fetched b
    let x := v.bx b
    let w := [8, 16, 32, 32].getD (x.c1cfg % 4) 0
    let poly := [0x2F, 0x1021, 0x04C11DB7, 0x04C11DB7].getD (x.c1cfg % 4) 0
    let ref := x.c1cfg / 4 % 2 == 1
    let y := v.breg b r.toNat
    let order := if ref then [0, 1, 2, 3, 4, 5, 6, 7] else [7, 6, 5, 4, 3, 2, 1, 0]
    let fed := order.foldl (fun s k => crcBit w poly ref s (y / 2 ^ k % 2)) (x.c1s % 2 ^ w)
    let p := o.toNat / 32
    let n := o.toNat % 32 + 1
    let word := fun fn legal => IfPresent b 1 (cxWord 1 fn o.toNat) legal v
    u.ready b = true →
    Completes (.c1Feed b r) s (IfPresent b 1 (crWord 2 ⟨1, r, 5⟩) true v (CtxRes b 1 { x with c1s := fed } v)) ∧
    Completes (.c1Crcinit b o) s (word 0 (o == 0) (CtxRes b 1 { x with c1s := 2 ^ w - 1 } v)) ∧
    Completes (.c1Crcfin b o) s (word 1 (o == 0) (CtxRes b 1 { x with c1s := 2 ^ w - 1 - x.c1s % 2 ^ w } v)) ∧
    Completes (.c1Bfx b o) s (word 2 true (CtxRes b 1 { x with c1res := x.c1src / 2 ^ p % 2 ^ n } v)) ∧
    Completes (.c1Bfi b o) s (word 3 true fun t => (t.bx b).c1res < 2 ^ 32 ∧
      (∀ k, k < 32 → bitOf (t.bx b).c1res k = if p ≤ k ∧ k < p + n then bitOf x.c1src (k - p) else bitOf x.c1res k) ∧
      CtxRes b 1 { x with c1res := (t.bx b).c1res } v t) ∧
    Completes (.c1Brev b o) s (word 4 (o == 0) fun t => (t.bx b).c1res < 2 ^ 32 ∧
      (∀ k, k < 32 → bitOf (t.bx b).c1res k = bitOf x.c1src (31 - k)) ∧ CtxRes b 1 { x with c1res := (t.bx b).c1res } v t) ∧
    Completes (.c1Popc b o) s (word 5 (o == 0)
      (CtxRes b 1 { x with c1res := ((List.range 32).map fun k => x.c1src / 2 ^ k % 2).sum } v)))

/-- A CX to C3 (R97, R115, R120): accepted with T = 1 and BUSY, or refused with T = 0 and no other effect while C3 is busy, with a burner's
operation or the update block's (R454); odd places of points and unused operands are illegal. The 300 µs for which an adverb keeps its
partition busy are ten ticks of XK32 (notes/assumptions/59.md).

The end of a C3 operation (R116, R120, R498): the result modulo the modulus that MOD selects, or ERR and no result; BUSY clears,
event 175 fires, and an issuer held by CSYNC goes on with T telling the outcome. -/
def Obligations.BigNumbers : Prop :=
  (
  ∀ (b : Fin 16) (f : C3F) (s : State),
    let u := settle s
    let v := u.fetched b
    let fl := v.flags b
    let c3Busy := v.c3.busy || v.upd.lock.isSome
    let op := fun (fn : Nat) legal => IfPresent b 3 (c3Word fn f) legal v fun t =>
      AgreesOn u t ∧ t.flags b = { fl with t := !c3Busy } ∧
      t.c3 = (if c3Busy then v.c3 else
        { v.c3 with busy := true, err := false, abort := false, issuer := b, op := some ⟨fn, f.d.toNat, f.a.toNat, f.b.toNat⟩ }) ∧
      AdverbHeld 3 v t ∧ WordEnds b [F.BRN_FLAGS_TVCNZ b] [.c3, .bist] [] (v.pc b + 1) (v.bx b) v t
    let even := fun r : BitVec 4 => r.toNat % 2 == 0
    u.ready b = true →
    Completes (.c3Madd b f) s (op 0 true) ∧ Completes (.c3Msub b f) s (op 1 true) ∧ Completes (.c3Mmul b f) s (op 2 true) ∧
    Completes (.c3Minv b f) s (op 3 (f.b == 0)) ∧ Completes (.c3Pmul b f) s (op 4 (even f.d && even f.b)) ∧
    Completes (.c3Pmul2 b f) s (op 5 (even f.d && even f.b && even f.a)) ∧ Completes (.c3Mred b f) s (op 6 (f.b == 0))) ∧
  (
  ∀ (s : State),
    let u := settle s
    let c := u.c3
    u.coreUp = true → (c.busy = true → ∃ o, c.op = some o) →
    (∀ o, c.op = some o → c.busy = true →
      let a := c.vv o.a
      let x := c.vv o.b
      let m := [P256.p, P256.n, c.vv 15, 1].getD (c.mod % 4) 1
      let noMod := decide (c.mod % 4 = 3) || (decide (c.mod % 4 = 2) && (decide (m % 2 = 0) || decide (m < 3)))
      let point := (x, c.vv (o.b + 1))
      let q := if o.fn = 4 then P256.mul a point else P256.add (P256.mul a (P256.gx, P256.gy)) (P256.mul (c.vv (o.a + 1)) point)
      let i := c.issuer
      let held := (u.bx i).csync == some 3
      Completes .c3Done s fun t =>
        AgreesOn u t ∧ t.c3.busy = false ∧ t.c3.op = none ∧ Fires 175 u t ∧ (t.bx i).c3bad = t.c3.err ∧
        t.c3.err = (if o.fn = 4 ∨ o.fn = 5 then !P256.onCurve x point.2 || q.isNone
          else noMod || (o.fn == 3 && Nat.gcd a m != 1)) ∧
        (∀ k, k < 16 → k ≠ o.d → (o.fn = 4 ∨ o.fn = 5 → k ≠ o.d + 1) → t.c3.vv k = c.vv k) ∧
        (t.c3.err = true → t.c3.v = c.v) ∧
        (t.c3.err = false → o.d < 16 →
          (o.fn = 0 → t.c3.vv o.d = (a + x) % m) ∧
          (o.fn = 1 → t.c3.vv o.d < m ∧ (t.c3.vv o.d + x) % m = a % m) ∧
          (o.fn = 2 → t.c3.vv o.d = a * x % m) ∧
          (o.fn = 3 → t.c3.vv o.d < m ∧ t.c3.vv o.d * a % m = 1) ∧
          (o.fn = 4 ∨ o.fn = 5 → q = some (t.c3.vv o.d, t.c3.vv (o.d + 1))) ∧
          (o.fn = 6 → t.c3.vv o.d = a % m)) ∧
        (held = true → u.on (F.BRN_STAT_PARKREQ i) = false →
          t.pc i = (u.pc i + 1) % 2 ^ 16 ∧ t.flags i = { u.flags i with t := !t.c3.err } ∧ (t.bx i).csync = none) ∧
        Within [] (if held then [F.BRN_PC_PC i, F.BRN_FLAGS_TVCNZ i, F.BRN_STAT_STATE i, F.BRN_STAT_PARKREQ i, F.BRN_STAT_PARKF i]
          else []) [] [.brn, .c3] (if held then [16 + i, 175] else [175]) u t) ∧
    (c.busy = false → u.upd.lock = none → Completes .c3Done s (Frame [] [] [] u)))

/-- Burner control (R71, R81, R82, R91, R93): START of an OFF burner, RESUME of a PARKED or FAULTED one, STOP, and PARK, which waits
for the word boundary; a refused request sets WERR. While an adverb of the burner is in flight, STOP and PARK wait for its end (R81, R114;
notes/assumptions/59.md). Each leaves a burner's state in agreement with its flags; that PARK of any other burner does nothing is
notes/assumptions/99.md. -/
def Obligations.BurnerControl : Prop :=
  ∀ (acc : Fin 18) (b : Fin 16) (s : State),
    let u := settle s
    let st := F.BRN_STAT_STATE b
    let exc := F.BRN_STAT_EXC b
    let preq := F.BRN_STAT_PARKREQ b
    let refused := fun t : State => t.rd F.BRN_ERR_WERR = 1 ∧ t.rd F.BRN_ERR_ACCESSOR = acc ∧
      Frame [F.BRN_ERR_WERR, F.BRN_ERR_ACCESSOR] [] [] u t
    let boot := b = 0 ∧ u.boot.handedOver = false
    let busy := u.bstate b = stRun ∨ u.bstate b = stWait ∨ u.bstate b = stSleep
    u.coreUp = true →
    Completes (.brnStart acc b) s (fun t =>
      AgreesOn u t ∧ if u.bstate b = stOff then t.bstate b = stRun ∧ t.rd exc = 0 ∧ Frame [st, exc] [] [] u t else refused t) ∧
    Completes (.brnResume acc b) s (fun t => AgreesOn u t ∧
      if u.bstate b = stParked then t.bstate b = stRun ∧ Frame [st] [] [] u t
      else if u.bstate b = stFaulted then t.bstate b = stRun ∧ t.rd exc = 0 ∧ Frame [st, exc] [] [] u t
      else refused t) ∧
    Completes (.brnStop acc b) s (fun t => AgreesOn u t ∧
      if boot then refused t
      else if u.inAdverb b then
        t.bx b = { u.bx b with stopping := true } ∧ (∀ c, c ≠ b.val → t.bx c = u.bx c) ∧ Frame [] [.brn] [] u t
      else t.bstate b = stOff ∧ t.rd preq = 0 ∧ t.bx b = { u.bx b with csync := none, stopping := false, await := 64 } ∧
        (∀ c, c ≠ b.val → t.bx c = u.bx c) ∧ Frame [st, preq] [.brn] [] u t) ∧
    Completes (.brnPark acc b) s (fun t => AgreesOn u t ∧
      if boot then refused t
      else if busy then t.rd preq = 1 ∧ Frame [preq] [] [] u t else Frame [] [] [] u t) ∧
    Completes (.parked b) s (fun t => AgreesOn u t ∧
      if u.on preq = true ∧ u.inAdverb b = false ∧ busy then
        t.bstate b = stParked ∧ t.rd preq = 0 ∧ t.rd (F.BRN_STAT_PARKF b) = 1 ∧
          t.bx b = { u.bx b with csync := none, stopping := false, await := 64 } ∧ (∀ c, c ≠ b.val → t.bx c = u.bx c) ∧
          Frame [st, preq, F.BRN_STAT_PARKF b] [.brn] [16 + b] u t
      else Frame [] [] [] u t)

/-- BRN_GSTART and BRN_GPARK act on every burner named, each as START, RESUME or PARK of it does; one in another state sets WERR
for itself alone (R83, R93). -/
def Obligations.BurnerGroups : Prop :=
  ∀ (acc : Fin 18) (set : BitVec 16) (s : State),
    let u := settle s
    let named := fun b => bitOf set.toNat b
    let all := List.range 16
    let starts := fun b => u.bstate b = stOff ∨ u.bstate b = stParked ∨ u.bstate b = stFaulted
    let boot := fun b => b = 0 ∧ u.boot.handedOver = false
    let err := fun (bad : Bool) (t : State) => t.rd F.BRN_ERR_WERR = (if bad then 1 else u.rd F.BRN_ERR_WERR) ∧
      t.rd F.BRN_ERR_ACCESSOR = (if bad then acc.val else u.rd F.BRN_ERR_ACCESSOR)
    u.coreUp = true →
    Completes (.brnGstart acc set) s (fun t =>
      (∀ b, b < 16 → t.bstate b = (if named b = true ∧ starts b then stRun else u.bstate b)) ∧
      (∀ b, b < 16 → t.rd (F.BRN_STAT_EXC b) =
        (if named b = true ∧ (u.bstate b = stOff ∨ u.bstate b = stFaulted) then 0 else u.rd (F.BRN_STAT_EXC b))) ∧
      err (all.any fun b => named b && decide (¬ starts b)) t ∧
      Frame (F.BRN_ERR_WERR :: F.BRN_ERR_ACCESSOR :: (all.map F.BRN_STAT_STATE ++ all.map F.BRN_STAT_EXC)) [] [] u t) ∧
    Completes (.brnGpark acc set) s (fun t =>
      (∀ b, b < 16 → t.rd (F.BRN_STAT_PARKREQ b) =
        (if named b = true ∧ ¬ boot b ∧ (u.bstate b = stRun ∨ u.bstate b = stWait ∨ u.bstate b = stSleep) then 1
          else u.rd (F.BRN_STAT_PARKREQ b))) ∧
      err (all.any fun b => named b && decide (boot b)) t ∧
      Frame (F.BRN_ERR_WERR :: F.BRN_ERR_ACCESSOR :: all.map F.BRN_STAT_PARKREQ) [] [] u t)

/-! ### The Whisk (R122 to R137) -/

/-- WHISK_FIRE and CLRALL (R124 to R126, R129, R131, R135, R136): each channel written that the accessor may write fires, however it is
enabled, the others are denied; firings of a group under self-test are held with what they reach; CLRALL returns the Whisk to its reset values, but
for the stopped groups. That CLRALL leaves those is notes/assumptions/19.md; that a group counts as busy for ten ticks of XK32 after a firing
notes/assumptions/59.md; what a held firing records notes/assumptions/86.md. -/
def Obligations.WhiskCommands : Prop :=
  ∀ (acc : Fin 18) (set : BitVec 64) (s : State),
    let u := settle s
    let mine := fun c => u.accSecure acc || (decide (acc.val < 17) && !u.on (F.WHISK_CFG_SEC c) && u.rd (F.WHISK_CFG_OWNER c) == acc.val)
    let drives := (List.range 64).filter fun c => bitOf set.toNat c && mine c
    let denied := (List.range 64).any fun c => bitOf set.toNat c && !mine c
    let deny := fun t : State => t.rd F.WHISK_ERR_DENY = 1 ∧ t.rd F.WHISK_ERR_ACCESSOR = acc
    u.coreUp = true →
    Completes (.whiskFire acc set) s (fun t =>
      ChannelsFired 0 (drives.filter u.canFire) (drives.filter u.holdsFire) u t ∧
      (if denied then deny t
        else t.rd F.WHISK_ERR_DENY = u.rd F.WHISK_ERR_DENY ∧ t.rd F.WHISK_ERR_ACCESSOR = u.rd F.WHISK_ERR_ACCESSOR) ∧
      FireFrame u t) ∧
    Completes (.whiskClrall acc) s (fun t =>
      if u.accSecure acc then
        ResetIn 0x502000 0x502426 t ∧ SameIn 0x502426 0x502428 u t ∧ ResetIn 0x502428 0x502800 t ∧
          Within [0x502] [] [] [] [] u t ∧ SameIn 0x502800 0x503000 u t
      else deny t ∧ Frame [F.WHISK_ERR_DENY, F.WHISK_ERR_ACCESSOR] [] [] u t)

/-- A source that produces an event fires every enabled channel that selects it, an open one only where the source is not secure: else its
flag and overrun stay, and SECMASK sets and counts once for the event (R122, R124, R125, R131). So of a burner's own source by SIG, which
is secure as the burner's world; of sources 3 and 39 as their blocks; of source 1 as the block that commits; and of source 175 as the
burner whose operation ends.

What a driven task input does (R124, R134): of a block with nothing left to do, what the command of that row does; a bit set or cleared; for
the clock, one more request in the order driven. That it is done before the next command, in the order in which tasks are driven, is
notes/assumptions/8.md; what a held firing reaches is notes/assumptions/86.md. -/
def Obligations.EventFiresChannels : Prop :=
  (
  ∀ (b : Fin 16) (s : State),
    let u := settle s
    let v := u.fetched b
    (u.ready b = true → v.on (F.BRN_STAT_PARKREQ b) = false → Completes (.sig b 0) s (SourceFires (16 + b) (v.on (F.BRN_CFG_WORLD b)) v)) ∧
    (u.coreUp = true →
      (u.on F.SYS_CLK_PLLEN = true → u.on F.SYS_CLK_XORDY = true → u.on F.SYS_CLK_PLLLOCK = false →
        Completes .pllLock s (SourceFires 3 (bitOf (u.rd F.BRN_SECBLK_BLK) 0) u)) ∧
      Completes .xkFail s (SourceFires 39 (bitOf (u.rd F.BRN_SECBLK_BLK) 4) u) ∧
      (u.on F.FWD_CTL_EN = false → Completes (.commitArm .fwd) s (SourceFires 1 (bitOf (u.rd F.BRN_SECBLK_BLK) 13) u)) ∧
      (u.c3.busy = true → u.on (F.BRN_STAT_PARKREQ u.c3.issuer) = false →
        Completes .c3Done s (SourceFires 175 (u.on (F.BRN_CFG_WORLD u.c3.issuer)) u)))) ∧
  (
  ∀ s : State,
    let u := settle s
    let driven := fun l => settle { s with taskq := l }
    s.Inv → s.quiet = true → s.coreUp = true →
    (∀ n : Fin 8, TaskDoes (24 + 3 * n) (.tmrStart n) s ∧ TaskDoes (25 + 3 * n) (.timerCapture n (.task true)) s ∧
      TaskDoes (26 + 3 * n) (.timerCapture n (.task false)) s ∧ TaskDoes (72 + 2 * n) (.laneSrchon n) s ∧
      TaskDoes (73 + 2 * n) (.laneSrchoff n) s) ∧
    TaskDoes 50 (.rlyRequest 1 1) s ∧ TaskDoes 51 (.rlyRequest 1 0) s ∧ TaskDoes 52 (.rlyRequest 2 2) s ∧ TaskDoes 53 (.rlyRequest 2 0) s ∧
    TaskDoes 64 .feRxreq s ∧ TaskDoes 65 .feRxrel s ∧ TaskDoes 66 .feCal s ∧ TaskDoes 67 .feAborttx s ∧
    TaskDoes 88 (.cpEnable 0) s ∧ TaskDoes 90 (.cpRetrain 0) s ∧ TaskDoes 92 (.cpEnable 1) s ∧ TaskDoes 94 (.cpRetrain 1) s ∧
    TaskDoes 100 .beaconSkipTask s ∧ TaskDoes 112 (.larderAlarm 6) s ∧ TaskDoes 120 .hpMasterGo s ∧
    (∀ acc : Fin 18, s.accSecure acc = true → TaskDoes 124 (.updFlush acc) s) ∧
    (∀ k ∈ taskBits, (driven [k.1]).rd k.2.1 = k.2.2 ∧ Frame [k.2.1] [] [] u (driven [k.1])) ∧
    (∀ l : List (Fin 3), let t := driven (l.map fun k => 16 + k.val)
      t.rtc = { u.rtc with pend := u.rtc.pend ++ l.map fun k => .task (16 + k.val) } ∧ Frame [] [.rtc] [] u t))

/-! ### The modem (R140 to R172) -/

/-- A preamble (R154 to R156, R162, R167): a live lane with the order enabled gives it a free slot, which enters SYNC; a lane held for
a commit, an order in progress and a full demodulator count it instead; of two that compete for the last place the one with the higher SNR, then on the lower lane, then
of the lower order takes it. SRCH is set and cleared.

The frame and network marks (R143, R156, R161 to R163): SYNC to MARK, where a slot alone on the chip pulls the LO by the nearest
whole steps and every other lane's NCO moves the other way; MARK to HDR with DET and the time of the mark's end where the network matches, else, and where no mark comes, the slot is freed and counted.

How near a multiple a shift of the network mark counts, and which detections compete, is notes/assumptions/87.md; that the time stamp is the network
time less the operand notes/assumptions/17.md; what becomes of a pull that a slot holds where its mark is of another network, and of MOD_PULL.LANE,
notes/assumptions/100.md. -/
def Obligations.ModemSlots : Prop :=
  (
  ∀ (n : Fin 8) (k : BitVec 4) (snr : BitVec 16) (s : State),
    let u := settle s
    let order := k.toNat
    let searches := u.bistPart = some n.val
    let ready := u.on F.MOD_CTL_EN && u.on (F.LANE_CFG_EN n) && u.on (F.LANE_CTL_SRCH n) && !bitOf (u.rd F.MOD_RET_RET) n &&
      u.rd F.FE_STAT_STATE == 3 && u.bistPart != some n.val && decide (5 ≤ order) && decide (order ≤ 12) &&
      bitOf (u.rd (F.LANE_CFG_ORD n)) (order - 5)
    let a := u.slot n 0
    let b := u.slot n 1
    let busy := (u.mod.slots.filter fun x => x.st != .idle).length
    let j := if a.st = .idle then 0 else 1
    u.coreUp = true →
    Completes (.preambleDetect [n] [k] [snr]) s (fun t =>
      if ready = false then Frame [] [] [] u t
      else if u.laneHeld n then Counts F.MOD_CMTHOLD u t ∧ Frame [F.MOD_CMTHOLD] [] [] u t
      else if (a.st ≠ .idle ∧ a.k = order) ∨ (b.st ≠ .idle ∧ b.k = order) then
        Counts (F.LANE_SAMEORD n) u t ∧ Frame [F.LANE_SAMEORD n] [] [] u t
      else if (a.st ≠ .idle ∧ b.st ≠ .idle) ∨ u.rd F.MOD_CFG_MAXDEM ≤ busy then
        Counts F.DEMOD_FULL u t ∧ Frame [F.DEMOD_FULL] [] [] u t
      else
        SlotIs n j { st := .sync, k := order, snr := snr.toNat } u t ∧ WinSees [2 * n + j] false u t ∧
        t.mod.pullSlot = u.mod.pullSlot ∧ t.mod.rxq = u.mod.rxq ∧
        if u.on F.MOD_PULL_ACTIVE then Counts F.LO_PULL_HELD u t ∧ Frame [F.LO_PULL_HELD] [.mod, .mac] [] u t
        else Frame [] [.mod, .mac] [] u t) ∧
    Completes (.laneSrchon n) s (fun t => t.on (F.LANE_CTL_SRCH n) = true ∧ (searches → Counts F.BIST_HOLD u t) ∧
      Frame (F.LANE_CTL_SRCH n :: if searches then [F.BIST_HOLD] else []) [] [] u t) ∧
    Completes (.laneSrchoff n) s (fun t => t.on (F.LANE_CTL_SRCH n) = false ∧ (searches → Counts F.BIST_HOLD u t) ∧
      Frame (F.LANE_CTL_SRCH n :: if searches then [F.BIST_HOLD] else []) [] [] u t)) ∧
  (
  ∀ (m n : Fin 8) (j k : BitVec 4) (x y : BitVec 16) (s : State),
    let u := settle s
    let finds := fun (n : Fin 8) (k : BitVec 4) => u.on F.MOD_CTL_EN && u.on (F.LANE_CFG_EN n) && u.on (F.LANE_CTL_SRCH n) &&
      !bitOf (u.rd F.MOD_RET_RET) n && u.rd F.FE_STAT_STATE == 3 && u.bistPart != some n.val && !u.laneHeld n &&
      decide (5 ≤ k.toNat) && decide (k.toNat ≤ 12) && bitOf (u.rd (F.LANE_CFG_ORD n)) (k.toNat - 5) &&
      (u.slot n 0).st == .idle && (u.slot n 1).st == .idle
    let first := y.toInt < x.toInt ∨ (y = x ∧ (m < n ∨ (m = n ∧ j < k)))
    let wins := fun t : State => SlotIs m 0 { st := .sync, k := j.toNat, snr := x.toNat } u t ∧ Counts F.DEMOD_FULL u t
    u.coreUp = true → finds m j = true → finds n k = true → first →
      (u.mod.slots.filter fun x => x.st != .idle).length + 1 = u.rd F.MOD_CFG_MAXDEM →
      Completes (.preambleDetect [m, n] [j, k] [x, y]) s wins ∧ Completes (.preambleDetect [n, m] [k, j] [y, x]) s wins) ∧
  (
  ∀ (n : Fin 8) (j : Fin 2) (fofs : BitVec 24) (m1 m2 : BitVec 12) (rssi : BitVec 16) (ago : BitVec 7) (s : State),
    let u := settle s
    let x := u.slot n j
    let alone := (u.mod.slots.filter fun x => x.st != .idle).length == 1
    let nid := markBits x.k m1.toNat * 32 + markBits x.k m2.toNat
    u.coreUp = true →
    Completes (.frameMark n j fofs) s (fun t =>
      if x.st = .sync then
        SlotIs n j { x with st := .mark, fofs := fofs.toNat } u t ∧ WinSees [] false u t ∧ t.mod.rxq = u.mod.rxq ∧
        if u.on F.MOD_CTL_LOPULL && alone && !u.on F.MOD_PULL_ACTIVE then
          let d := signed (t.rd F.MOD_PULL_STEPS) 24
          t.mod.pullSlot = some (2 * n.val + j.val) ∧ t.rd F.MOD_PULL_ACTIVE = 1 ∧
          (∀ i, i < 8 → t.laneNco i = (50 * signed (u.rd (F.LANE_OFS_OFS i)) 16) * 2 ^ 24 - if i = n.val then 0 else d * 32000000) ∧ t.rd F.MOD_PULL_LANE = n ∧
          2 * (d * 32000000 - fofs.toInt * 2 ^ 24).natAbs ≤ 32000000 ∧ LoAt d u t ∧ Frame pullFlds [.mod, .mac] [] u t
        else t.mod.pullSlot = u.mod.pullSlot ∧ Frame [] [.mod, .mac] [] u t
      else Frame [] [] [] u t) ∧
    Completes (.nomarkTimeout n j) s (fun t =>
      if x.st = .sync then Counts (F.LANE_NOMARK n) u t ∧ t.mod.rxq = u.mod.rxq ∧ SlotFreed n j [F.LANE_NOMARK n] [] u t
      else Frame [] [] [] u t) ∧
    Completes (.networkMark n j m1 m2 rssi ago) s (fun t =>
      if x.st ≠ .mark then Frame [] [] [] u t
      else if u.on (F.LANE_CFG_NIDANY n) || nid == u.rd F.MOD_NID_NID then
        SlotIs n j { x with st := .hdr, nid := nid, rssi := rssi.toNat, ts := (u.now + 2 ^ 48 - ago.toNat) % 2 ^ 48 } u t ∧ WinSees [] true u t ∧
        t.mod.pullSlot = u.mod.pullSlot ∧ t.mod.rxq = u.mod.rxq ∧ Frame [] [.mod, .mac] [96 + 3 * n] u t
      else Counts (F.LANE_NIDMISS n) u t ∧ t.mod.rxq = u.mod.rxq ∧ SlotFreed n j [F.LANE_NIDMISS n] [] u t))

/-- A reception (R143, R145 to R150, R156 to R159): the shifts that a header or a payload is sent as are decoded as it, and others as
anything (the model's choice, notes/assumptions/87.md); a good and valid header enters PAY with its event, a bad or invalid one ends the reception;
the payload's end is TAGGED, GOOD or CRCBAD by its check, and delivers the frame unless it is bad; PAY and LOST.

What ends receptions from outside (R156, R172): an abort of the lane (ABORTSW), a parity error (INTERR), retirement by software or
after an error in each of four windows in a row; each reception ends with END, each slot of the lane is free.

What LANE_RES shows of a reception that ends before its header is decoded is notes/assumptions/100.md. -/
def Obligations.ModemReceptions : Prop :=
  (
  ∀ (k : Nat), 5 ≤ k → k ≤ 12 →
    (∀ h, h < 2 ^ 24 → headerOf k (headerSyms k h) = some h) ∧
    (∀ (rate : Nat) (l : List Byte), rate < 3 → (payloadSyms k rate l).length = payloadCount k rate l.length ∧
      payloadOf k rate l.length (payloadSyms k rate l) = some l)) ∧
  (
  ∀ (n : Fin 8) (j : Fin 2) (shifts : List (BitVec 12)) (s : State),
    let u := settle s
    let x := u.slot n j
    let got := headerOf x.k (shifts.map (·.toNat))
    let h := got.getD (Config.free u.freeSeq % 2 ^ 24)
    let v := if got.isSome then u else { u with freeSeq := u.freeSeq + 1 }
    let y := { x with hdr := h }
    let len := h / 2 ^ 16
    let invalid := h / 2 ^ 14 % 4 == 3 || h / 2 ^ 10 % 4 != 0 || h / 2 ^ 8 % 4 != 0 ||
      decide (len < ([4, 4, 8, 16] : List Nat).getD (h / 2 ^ 12 % 4) 0 + 1)
    let rate := x.hdr / 2 ^ 14 % 4
    let plen := x.hdr / 2 ^ 16 % 256
    let read := payloadOf x.k rate plen (shifts.map (·.toNat))
    let payload := read.getD ((List.range plen).map fun i => BitVec.ofNat 8 (Config.free (u.freeSeq + i)))
    let w := if read.isSome then u else { u with freeSeq := u.freeSeq + plen }
    let chk := x.hdr / 2 ^ 12 % 4
    let crcOk := crc32 (payload.take (payload.length - 4)) = leNat (payload.drop (payload.length - 4))
    let status := if chk ≠ 0 then 1 else if crcOk then 0 else 2
    let frame : RxFrame := ⟨n, j, x.k, u.rd (F.LANE_CFG_BW n), x.hdr / 2 ^ 14 % 4, chk, x.nid, x.rssi, x.snr, x.fofs, x.ts, payload⟩
    let moves := fun st t => SlotIs n j { x with st := st } u t ∧ WinSees [] false u t ∧ t.mod.pullSlot = u.mod.pullSlot ∧
      t.mod.rxq = u.mod.rxq ∧ Frame [] [.mod, .mac] [] u t
    u.coreUp = true →
    Completes (.headerDecode n j shifts) s (fun t =>
      if x.st ≠ .hdr then Frame [] [] [] u t
      else if hcrc (h / 256) ≠ h % 256 then RecEnds n j 3 y v t ∧ t.mod.rxq = u.mod.rxq
      else if invalid then RecEnds n j 4 y v t ∧ t.mod.rxq = u.mod.rxq
      else SlotIs n j { y with st := .pay } u t ∧ WinSees [] false u t ∧ t.mod.pullSlot = u.mod.pullSlot ∧
        t.mod.rxq = u.mod.rxq ∧ Frame [] [.mod, .mac] [97 + 3 * n] v t) ∧
    Completes (.payloadEnd n j shifts) s (fun t =>
      if x.st = .pay ∧ shifts.length = payloadCount x.k rate plen then
        RecEnds n j status x w t ∧ t.mod.rxq = u.mod.rxq ++ (if status = 2 then [] else [frame])
      else Frame [] [] [] u t) ∧
    Completes (.lostEntry n j) s (fun t => if x.st = .pay then moves .lost t else Frame [] [] [] u t) ∧
    Completes (.lostRecover n j) s (fun t => if x.st = .lost then moves .pay t else Frame [] [] [] u t) ∧
    Completes (.lostExpire n j) s (fun t =>
      if x.st = .lost then RecEnds n j 5 x u t ∧ t.mod.rxq = u.mod.rxq else Frame [] [] [] u t)) ∧
  (
  ∀ (n : Fin 8) (j : Fin 2) (lanes : BitVec 8) (s : State),
    let u := settle s
    let live := fun (x : Slot) => x.st == .hdr || x.st == .pay || x.st == .lost
    let ends := fun (ls : List Nat) (status : Nat) (t : State) =>
      (∀ i, i < 8 → i ∈ ls → (t.slot i 0).st = .idle ∧ (t.slot i 1).st = .idle ∧
        (live (u.slot i 1) = true → LaneRecord i 1 status (u.slot i 1) t) ∧
        (live (u.slot i 1) = false → live (u.slot i 0) = true → LaneRecord i 0 status (u.slot i 0) t) ∧
        ((live (u.slot i 0) || live (u.slot i 1)) = true → Fires (98 + 3 * i) u t)) ∧
      (∀ i, i < 8 → i ∉ ls → t.slot i 0 = u.slot i 0 ∧ t.slot i 1 = u.slot i 1 ∧ ¬ Fires (98 + 3 * i) u t) ∧
      t.mod.rxq = u.mod.rxq ∧ WinSees [] false u t
    let retired := (List.range 8).filter fun i => bitOf u.mod.errNow i && decide (3 ≤ u.mod.errRuns.getD i 0)
    let within := fun (ls : List Nat) => Within [0x509] [F.WHISK_CMTBLK_BLK, F.FE_LOACT_LO] [] [.mod, .mac] (1 :: ls.map (98 + 3 * ·)) u
    u.coreUp = true →
    Completes (.laneAbort n) s (fun t => ends [n.val] 8 t ∧ t.rd F.MOD_RET_RET = u.rd F.MOD_RET_RET ∧ within [n.val] t) ∧
    Completes (.laneParityError n j) s (fun t =>
      let x := u.slot n j
      Counts (F.LANE_INTERR n) u t ∧ bitOf t.mod.errNow n = (bitOf u.mod.errNow n || u.on F.MOD_CTL_EN) ∧
      (live x = true → LaneRecord n j 9 x t ∧ Fires (98 + 3 * n) u t) ∧ (x.st ≠ .idle → t.slot n j = {}) ∧
      (∀ i, i < 8 → ∀ k, k < 2 → i ≠ n.val ∨ k ≠ j.val → t.slot i k = u.slot i k) ∧ t.mod.rxq = u.mod.rxq ∧ within [n.val] t) ∧
    Completes (.laneRetire lanes) s (fun t =>
      ends ((List.range 8).filter (bitOf lanes.toNat)) 8 t ∧
      (∀ i, i < 8 → bitOf (t.rd F.MOD_RET_RET) i = (bitOf (u.rd F.MOD_RET_RET) i || bitOf lanes.toNat i)) ∧ within (List.range 8) t) ∧
    Completes .interrWindow s (fun t =>
      if u.on F.MOD_CTL_EN then
        ends retired 9 t ∧ t.mod.errNow = 0 ∧
        (∀ i, i < 8 → t.mod.errRuns.getD i 0 = if bitOf u.mod.errNow i then u.mod.errRuns.getD i 0 + 1 else 0) ∧
        (∀ i, i < 8 → bitOf (t.rd F.MOD_RET_RET) i = (bitOf (u.rd F.MOD_RET_RET) i || retired.contains i)) ∧ within (List.range 8) t
      else Frame [] [] [] u t))

/-! ### The radio front end (R174 to R200) -/

/-- The front end's states (R175, R177, R178, R181, R185 to R188, R200): the T/R switch is in transmit in RAMPUP, TX and RAMPDN; each trigger moves STATE as the table of R186 gives, event 88 tells every
change, receptions end when RX is left, and a request in a state that has no use for it changes nothing or sets CMDERR, or waits for the end of a self-test slice.

That a beacon's time is latched at its mark's end, also where modemTxEnd comes before it, is notes/assumptions/26.md; that LANE_PWR is open in RX
and as RX is left notes/assumptions/61.md; what becomes of a reservation that never ramped up, and of a lock lost while transmitting with RXREQ = 1,
notes/assumptions/100.md. -/
def Obligations.RadioStates : Prop :=
  ∀ (dacI dacQ : BitVec 8) (s : State),
    let u := settle s
    let st := u.fe_st
    let rx := u.on F.FE_STAT_RXREQ
    let busyTx := u.fe.tx.isSome
    let stby := fun wants => if !wants then feStby else if u.bistPart = some 13 then feStby else feSynth
    let freed := fun t : State => ∀ n, n < 8 → ∀ j, j < 2 → (t.slot n j).busy = false
    let within := fun (t : State) => Within [0x508, 0x509] [F.WHISK_CMTBLK_BLK, F.BIST_HOLD] [] [.fe, .mod, .mac, .freeSeq]
      ([1, 88, 89, 90, 92] ++ (List.range 8).map (98 + 3 * ·)) u t
    let goes := fun (st' : Nat) (t : State) => t.fe_st = st' ∧ (st' ≠ st → Fires 88 u t) ∧
      (st = feRx → st' ≠ feRx → freed t ∧ t.on F.FE_STAT_DCOK = false) ∧ (st' = feStby → st ≠ feStby → t.on F.FE_STAT_LOCK = false) ∧
      (st' = feSynth → st ≠ feSynth → t.fe.retry = false) ∧ within t
    let stays := fun t => Frame [] [] [] u t
    let marked := fun (faulty : Bool) (t : State) =>
      t.fe.tx = u.fe.tx.map fun r => { r with aborted := true, faulty := r.faulty || faulty }
    (u.trSwitch = .transmit ↔ st = feRampup ∨ st = feTx ∨ st = feRampdn) ∧
    (u.coreUp = true → u.fe.report = none →
    Completes .feStbyReady s (fun t =>
      if st = feOff ∧ u.on F.FE_CTL_EN ∧ u.on F.SYS_CLK_XORDY ∧ u.on F.FE_STAT_RET = false then goes (stby (rx || busyTx)) t else stays t) ∧
    Completes .feRxreq s (fun t => t.on F.FE_STAT_RXREQ = true ∧ goes (if st = feStby then stby true else st) t) ∧
    Completes .feRxrel s (fun t => t.on F.FE_STAT_RXREQ = false ∧
      goes (if st = feRx ∨ (st = feSynth ∧ busyTx = false) ∨ (st = feRampdn ∧ u.fe.dcAfterTx = true) then feStby else st) t) ∧
    Completes .feRetune s (fun t =>
      if st = feRx then t.on F.FE_STAT_LOCK = false ∧ t.on F.FE_STAT_DCOK = false ∧ goes feSynth t
      else t.rd F.FE_STAT_CMDERR = 1 ∧ Frame [F.FE_STAT_CMDERR] [] [] u t) ∧
    Completes .feCal s (fun t =>
      if st ≠ feStby then t.rd F.FE_STAT_CMDERR = 1 ∧ Frame [F.FE_STAT_CMDERR] [] [] u t
      else if u.bistPart = some 13 then
        t.fe = { u.fe with held := u.fe.held ++ [.cal] } ∧ Counts F.BIST_HOLD u t ∧ Frame [F.BIST_HOLD] [.fe] [] u t
      else goes feCalSt t) ∧
    Completes .calEnd s (fun t => if st = feCalSt then Fires 92 u t ∧ goes (stby (rx || busyTx)) t else stays t) ∧
    Completes .feAborttx s (fun t => if st = feRampup ∨ st = feTx then marked false t ∧ goes feRampdn t else stays t) ∧
    Completes .modemTxEnd s (fun t =>
      if st = feTx then
        goes feRampdn t ∧ ((u.fe.tx.bind fun r => r.mark) = none → t.fe.tx = u.fe.tx) ∧
        ∀ r m b, u.fe.tx = some r → r.mark = some m → r.req.bcn = some b →
          let nt := (u.now + m * u.rd F.TB_INC_INC / 2 ^ 40) % 2 ^ 48
          t.fe.tx = some { r with req := { r.req with payload := u.beaconBytes b nt, bcn := none }, mark := none }
      else stays t) ∧
    Completes .synthLock s (fun t =>
      if st = feSynth ∧ u.on F.FE_STAT_LOCK = false then
        t.rd F.FE_STAT_LOCK = 1 ∧ Fires 89 u t ∧ t.fe.dcRun = (u.fe.dcRun || !busyTx) ∧ goes (if busyTx then feRampup else feSynth) t
      else stays t) ∧
    Completes .synthLockTimeout s (fun t =>
      if st ≠ feSynth ∨ u.on F.FE_STAT_LOCK = true then stays t
      else if u.fe.retry then
        t.rd F.FE_STAT_LOCKFAIL = 1 ∧ Counts F.FE_UNLOCKS u t ∧ Fires 90 u t ∧ t.fe.tx = none ∧ (busyTx = false →
          t.on F.FE_STAT_RXREQ = false ∧ t.fe.retry = false ∧ goes feStby t)
      else t.fe = { u.fe with retry := true } ∧ Frame [] [.fe] [] u t) ∧
    Completes (.dcCalEnd dacI dacQ) s (fun t =>
      if (st = feSynth ∧ u.fe.dcRun = true) ∨ (st = feRampdn ∧ u.fe.dcAfterTx = true) then
        t.fe.dcRun = false ∧ t.fe.dcAfterTx = false ∧
        if rx then t.rd F.FE_STAT_DCOK = 1 ∧ t.rd F.FE_DC_DACI = dacI.toNat ∧ t.rd F.FE_DC_DACQ = dacQ.toNat ∧ goes feRx t
        else goes feStby t
      else stays t) ∧
    Completes .lockLoss s (fun t =>
      if u.on F.FE_STAT_LOCK = true ∧ (st = feRx ∨ st = feRampup ∨ st = feTx) then
        t.on F.FE_STAT_LOCK = false ∧ Counts F.FE_UNLOCKS u t ∧ Fires 90 u t ∧
        (st ≠ feRx → marked true t) ∧ goes (if st = feRx then feSynth else feRampdn) t
      else stays t))

/-- Admission of a transmission (R182, R189 to R193): the checks of R190 in order and the first that fails refuses; an accepted one
reserves its charge in every sub-band it belongs to, none of which then exceeds its limit, and starts. During a slice of the front end's
partition the request waits undecided (R42, R200).

With MOD_CTL.EN = 0 the modem refuses it (R165), outside HOLD before the front end decides (notes/assumptions/13.md). That a front end with an
accepted transmission that still waits counts as not ready is notes/assumptions/100.md, and which transmissions lie within a retired channel
notes/assumptions/12.md. -/
def Obligations.RadioAdmission : Prop :=
  ∀ (s : State),
    let u := settle s
    u.coreUp = true → u.fe.report = none →
    (u.fe.req = none → Completes .txAdmit s (Frame [] [] [] u)) ∧
    ∀ r, u.fe.req = some r →
      let cap := min r.idx (u.rd F.FE_TXCFG_MAXIDX)
      let idx := if u.on F.PWR_STAT_ONBAT then min cap (u.rd F.FE_TXCFG_BATMAX) else cap
      let c := airUs r.k r.bw r.rate r.npre r.payload.length + 4 * (u.rd F.FE_TXCFG_RAMP + 1)
      let mid := u.centre r.ofs
      let half := hzScaled (bwHz r.bw) / 2
      let sbs := (List.range 8).filter fun i => u.on (F.FE_SBLO_EN i) &&
        decide (hzScaled (1000 * u.rd (F.FE_SBLO_KHZ i)) ≤ mid - half) && decide (mid + half ≤ hzScaled (1000 * u.rd (F.FE_SBHI_KHZ i)))
      let retired := (List.range 16).any fun k =>
        let m := hzScaled (50 * u.rd (F.FE_CHF_FREQ k))
        let h := hzScaled (bwHz (u.rd (F.FE_CHF_BW k))) / 2
        bitOf (u.rd F.FE_CHRET_RET) k && decide (m - h ≤ mid - half) && decide (mid + half ≤ m + h)
      let long := sbs.filter fun i => u.rd (F.FE_SBLIM_MAXTX i) != 0 && decide (u.rd (F.FE_SBLIM_MAXTX i) * 100000 < c)
      let full := sbs.filter fun i => decide (u.rd (F.FE_SBLIM_LIMIT i) * 1000 < u.sbUsed i + c)
      let st := u.fe_st
      let held := u.on F.PWR_STAT_HOLD
      let fails := [held, !(st == feStby || st == feSynth || st == feRx) || u.on F.FE_STAT_RET || u.fe.tx.isSome, u.on F.FE_STAT_TXINH,
        !u.on (F.FE_PWRTAB_VALID idx), retired, sbs.isEmpty, !long.isEmpty, !full.isEmpty]
      let reason := fails.findIdx id + 1
      let refusedSbs := if reason = 7 then long else if reason = 8 then full else []
      let exh := (List.range 8).filter fun i => reason == 8 && full.contains i
      Completes .txAdmit s fun t =>
        if u.bistPart = some 13 then
          if FeWait.tx ∈ u.fe.held then Frame [] [] [] u t
          else t.fe = { u.fe with held := u.fe.held ++ [.tx] } ∧ Counts F.BIST_HOLD u t ∧ Frame [F.BIST_HOLD] [.fe] [] u t
        else
        t.fe.req = none ∧ t.fe.report = none ∧
        Within [0x508, 0x509, 0x50C, 0x50D] [F.WHISK_CMTBLK_BLK, F.BIST_HOLD, F.HOLD_BLOCKED] [(0x480000, 0x488000)]
          [.fe, .mod, .mac, .fwd, .freeSeq] radioEvents u t ∧
        if u.on F.MOD_CTL_EN = false ∧ held = false then
          (∀ i, i < 8 → t.sbUsed i = u.sbUsed i) ∧ t.fe.tx = u.fe.tx ∧ t.rd F.FE_TXREFCNT = u.rd F.FE_TXREFCNT
        else if fails.any id then
          (∀ i, i < 8 → t.sbUsed i = u.sbUsed i) ∧ t.fe.tx = u.fe.tx ∧
          t.rd F.FE_TXREF_REFUSED = 1 ∧ t.rd F.FE_TXREF_REASON = reason ∧ Counts F.FE_TXREFCNT u t ∧
          (reason = 1 → Counts F.HOLD_BLOCKED u t) ∧
          (∀ i, i < 8 → t.rd (F.FE_SBREF i) =
            if refusedSbs.contains i then min (u.rd (F.FE_SBREF i) + 1) 65535 else u.rd (F.FE_SBREF i)) ∧
          (∀ i, i < 8 → bitOf (t.rd F.FE_SBEXH_EXH) i = (bitOf (u.rd F.FE_SBEXH_EXH) i || exh.contains i)) ∧
          (∀ i, i < 8 → exh.contains i = true → t.fe.exhWait.getD i 0 = c ∧ (bitOf (u.rd F.FE_SBEXH_EXH) i = false → Fires 94 u t))
        else
          t.fe_st = (if st = feRx ∨ (st = feSynth ∧ u.on F.FE_STAT_LOCK = true) then feRampup
            else if st = feStby then feSynth else st) ∧
          t.fe.tx = some { req := r, charge := c, sbs := sbs.map fun i => (i, 0) } ∧
          (∀ i, i ∈ sbs → t.sbUsed i = u.sbUsed i + c ∧ t.sbUsed i ≤ u.rd (F.FE_SBLIM_LIMIT i) * 1000) ∧
          (∀ i, i < 8 → i ∉ sbs → t.sbUsed i = u.sbUsed i) ∧
          t.rd F.FE_TXSTAT_SB = sbs.headD 0 ∧ t.rd F.FE_TXSTAT_IDX = idx ∧ t.on F.FE_TXSTAT_CLAMP = decide (idx < r.idx) ∧
          (idx < r.idx → Counts F.FE_PWRCLAMP u t) ∧
          (∀ n, n < 8 → ∀ j, j < 2 → (t.slot n j).busy = false) ∧
          t.rd F.MOD_TXP_K = r.k % 16 ∧ t.rd F.MOD_TXP_LEN = r.payload.length % 256 ∧ t.rd F.MOD_TXP_OFS = r.ofs % 2 ^ 16 ∧
          t.rd F.MOD_TXP_NID = r.nid % 2 ^ 10 ∧ t.rd F.MOD_TXP_NPRE = r.npre % 2 ^ F.MOD_TXP_NPRE.w ∧
          t.rd F.MOD_TXP_BW = r.bw % 4 ∧ t.rd F.MOD_TXP_RATE = r.rate % 4 ∧ t.rd F.MOD_TXP_CHK = r.chk % 4

/-- A transmission on the air (R184, R186, R191, R195): the up-ramp's end with its first measurement; a measurement below THR trips,
and with ACT ramps down; the down-ramp's end settles the charge with the actual time in every sub-band and reports the end.

The instant of a beacon's mark, which the up-ramp's end sets, is notes/assumptions/26.md; that clearing TXINH leaves the run of tripped
transmissions notes/assumptions/100.md. -/
def Obligations.RadioTransmission : Prop :=
  ∀ (rl : BitVec 8) (air : BitVec 32) (s : State),
    let u := settle s
    let st := u.fe_st
    let trips := decide (rl.toNat < 4 * max (u.rd F.FE_REFLCFG_THR) 2)
    let acts := trips && u.on F.FE_REFLCFG_ACT
    let within := fun t => Within [0x508] [F.WHISK_CMTBLK_BLK] [] [.fe] [1, 88, 93] u t
    let began := fun r : TxRun =>
      if st = feRampup ∧ r.req.bcn.isSome = true then
        { r with mark := some ((r.req.npre + 4) * 2 ^ r.req.k * 2 ^ 31 / bwHz r.req.bw) }
      else r
    let measured := fun t : State =>
      t.rd F.FE_REFLMEAS_RL = rl.toNat ∧ t.fe_st = (if acts then feRampdn else feTx) ∧
      (trips = true → Counts F.FE_REFLTRIP u t ∧ Fires 93 u t) ∧
      (trips = false → t.rd F.FE_REFLTRIP = u.rd F.FE_REFLTRIP ∧ ¬ Fires 93 u t) ∧
      (st ≠ t.fe_st → Fires 88 u t) ∧
      t.fe.tx = u.fe.tx.map (fun r => { began r with tripped := r.tripped || trips, aborted := r.aborted || acts, faulty := r.faulty || acts }) ∧
      within t
    u.coreUp = true → u.fe.report = none →
    Completes (.rampupEnd rl) s (fun t => if st = feRampup then measured t else Frame [] [] [] u t) ∧
    Completes (.reflMeasure rl) s (fun t => if st = feTx then measured t else Frame [] [] [] u t) ∧
    (st ≠ feRampdn ∨ u.fe.dcAfterTx = true → Completes (.rampdnEnd air) s (Frame [] [] [] u)) ∧
    ∀ r, u.fe.tx = some r → st = feRampdn → u.fe.dcAfterTx = false →
      Completes (.rampdnEnd air) s fun t =>
        Fires 91 u t ∧ t.fe.tx = none ∧ t.fe.report = none ∧
        t.rd F.FE_TXSTAT_AIR = air.toNat ∧ t.on F.FE_TXSTAT_ABORTED = r.aborted ∧
        (u.on (cmtPend 0x508) = false → t.fe.buckets =
          (r.sbs.filter (·.2 ≤ 32)).foldl (fun l e => modAt [] l e.1 fun b => modAt 0 b e.2 fun x => x - r.charge + air.toNat) u.fe.buckets) ∧
        t.fe.trips = (if r.tripped then u.fe.trips + 1 else 0) ∧
        t.on F.FE_STAT_TXINH = (u.on F.FE_STAT_TXINH ||
          (u.rd F.FE_REFLCFG_REFLMAX != 0 && decide (u.rd F.FE_REFLCFG_REFLMAX ≤ t.fe.trips))) ∧
        (r.faulty = true → ChanCounts 0 r.req.ofs u t) ∧
        (r.req.kind ≠ .data →
          if u.on F.FE_STAT_RXREQ then t.fe_st = feRampdn ∧ t.fe.dcAfterTx = true else t.fe_st = feStby) ∧
        Within [0x508, 0x509, 0x50C, 0x50D] [F.WHISK_CMTBLK_BLK, F.BIST_HOLD] [(0x480000, 0x488000)]
          [.fe, .mod, .mac, .fwd, .freeSeq] radioEvents u t

/-- The AGC, the airtime buckets and the channel windows (R180, R192, R193, R196): one entry in the direction that the peak asks for;
a bucket falls out of a sub-band's window and its exhaustion ends when the refused charge fits; a channel with 12 bad windows
of 16 is retired, and reinstated by software.

From which entry the AGC starts again after IDX = 1Fh is notes/assumptions/100.md. -/
def Obligations.RadioPeriods : Prop :=
  ∀ (peak : BitVec 8) (i : Fin 8) (set : BitVec 16) (s : State),
    let u := settle s
    let want := min (if u.on F.FE_AGC_FIX then u.rd F.FE_AGC_IDX else u.rd F.FE_AGCSTAT_IDX) 23
    let down := fun g => (List.range 24).drop g
    let up := fun g => (List.range g).reverse
    let p := peak.toInt
    let tgt : Int := u.rd F.FE_AGC_TGT
    let hyst : Int := u.rd F.FE_AGC_HYST
    let idle := (List.range u.mod.slots.length).all fun k => !(u.mod.slots.getD k {}).busy
    (u.coreUp = true → u.fe.report = none → Completes (.agcPeriod peak) s fun t =>
      if u.fe_st ≠ feRx then Frame [] [] [] u t
      else
        (firstGain u (down want ++ up want) = none → t.rd F.FE_AGCSTAT_IDX = 0x1F ∧ t.rd F.FE_AGCSTAT_GAIN = 0 ∧
          t.rd F.FE_AGCSTEP = min (u.rd F.FE_AGCSTEP + if u.rd F.FE_AGCSTAT_IDX = 0x1F then 0 else 1) 65535) ∧
        (∀ g, firstGain u (down want ++ up want) = some g →
          let moves := if u.on F.FE_AGC_FIX then none
            else if hyst - tgt < p then firstGain u (down (g + 1))
            else if p < -tgt - hyst ∧ idle = true then firstGain u (up g) else none
          t.rd F.FE_AGCSTAT_IDX = moves.getD g ∧ t.rd F.FE_AGCSTAT_GAIN = u.rd (F.FE_GAINTAB_GAIN (moves.getD g)) ∧
          t.rd F.FE_AGCSTEP =
            min (u.rd F.FE_AGCSTEP + (if u.rd F.FE_AGCSTAT_IDX = g then 0 else 1) + if moves.isSome then 1 else 0) 65535) ∧
        Frame [F.FE_AGCSTAT_IDX, F.FE_AGCSTAT_GAIN, F.FE_AGCSTEP] [] [] u t) ∧
    (u.aonUp = true → Completes (.bucketBoundary i) s fun t =>
      let left := 0 :: (u.bucketsOf i).take 32
      let fits := decide (left.sum + u.fe.exhWait.getD i 0 ≤ u.rd (F.FE_SBLIM_LIMIT i) * 1000)
      t.bucketsOf i = left ∧ (∀ k, k < 8 → k ≠ i.val → t.bucketsOf k = u.bucketsOf k) ∧
      t.fe.tx = u.fe.tx.map (fun r => { r with sbs := r.sbs.map fun e => if e.1 = i.val then (e.1, e.2 + 1) else e }) ∧
      { t.fe with buckets := [], tx := none } = { u.fe with buckets := [], tx := none } ∧
      (∀ k, k < 8 → bitOf (t.rd F.FE_SBEXH_EXH) k = (bitOf (u.rd F.FE_SBEXH_EXH) k && !(k == i.val && fits))) ∧
      Frame [F.FE_SBEXH_EXH] [.fe] [] u t) ∧
    (u.aonUp = true → Completes .chanWindow s fun t =>
      let hist := fun k => (2 * u.rd (F.FE_CHST_HIST k) + if u.rd F.FE_CHCFG_THR < u.rd (F.FE_CHST_CUR k) then 1 else 0) % 2 ^ 16
      let shut := fun k => u.rd F.FE_CHCFG_WIN != 0 && u.on (F.FE_CHF_EN k)
      let bad := fun k => shut k && decide (12 ≤ ((List.range 16).filter fun j => bitOf (hist k) j).length)
      let fresh := (List.range 16).filter fun k => bad k && !bitOf (u.rd F.FE_CHRET_RET) k
      (∀ k, k < 16 → t.rd (F.FE_CHST_HIST k) = if shut k then hist k else u.rd (F.FE_CHST_HIST k)) ∧
      (∀ k, k < 16 → t.rd (F.FE_CHST_CUR k) = if shut k then 0 else u.rd (F.FE_CHST_CUR k)) ∧
      (∀ k, k < 16 → bitOf (t.rd F.FE_CHRET_RET) k = (bitOf (u.rd F.FE_CHRET_RET) k || bad k)) ∧
      Frame (F.FE_CHRET_RET :: ((List.range 16).map F.FE_CHST_HIST ++ (List.range 16).map F.FE_CHST_CUR)) []
        (if u.inRest then [] else fresh.map fun _ => 95) u t) ∧
    (u.coreUp = true → Completes (.chretReinstate set) s fun t =>
      (∀ k, k < 16 → bitOf (t.rd F.FE_CHRET_RET) k = (bitOf (u.rd F.FE_CHRET_RET) k && !bitOf set.toNat k)) ∧
      (∀ k, k < 16 → t.rd (F.FE_CHST_HIST k) = if bitOf set.toNat k then 0 else u.rd (F.FE_CHST_HIST k)) ∧
      (∀ k, k < 16 → t.rd (F.FE_CHST_CUR k) = if bitOf set.toNat k then 0 else u.rd (F.FE_CHST_CUR k)) ∧
      Frame (F.FE_CHRET_RET :: ((List.range 16).map F.FE_CHST_HIST ++ (List.range 16).map F.FE_CHST_CUR)) [] [] u t)

/-! ### The column ports (R205 to R223) -/

/-- A port before the link is up (R205, R212 to R216, R218, R219, R226): enabling, the start of a training, the INFO blocks that come and
those it sends, the ends of the stages with the choice of the rate, the timeouts and the silences. On the line each payload bit is the
bit itself with the bits sent 18 and 23 before it, and the other end's register undoes that.

What the spec leaves open is open here: a follower's fallback where no rate qualifies (the model's, notes/assumptions/88.md).

That a follower computes with its own MARGIN is notes/assumptions/88.md too; what a silence leads to notes/assumptions/21.md; that a fallback is
forgotten at a failure and at a link that went down, when the far end's COUNT ends a stage, at which ends RATEMIS and TIMEOUT strike, and that a
write of EN waits for a slice notes/assumptions/98.md. -/
def Obligations.ColumnTraining : Prop :=
  (
  ∀ (b : Machine.Block) (r : Nat), b.hdr < 4 → b.word < 2 ^ 64 → r < 2 ^ 23 →
    let l := (b.toLine r).1
    let sent := fun (k : Nat) => if k < 23 then bitOf r (22 - k) else bitOf l.bits.toNat (k - 23)
    fromLine l r = (b, (b.toLine r).2) ∧ l.hdr.toNat = b.hdr ∧
    (∀ i, i < 64 → bitOf l.bits.toNat i = ((bitOf b.word i != sent (i + 5)) != sent i))) ∧
  (
  ∀ (p : Fin 2) (blk : LineBlock) (snr : BitVec 8) (lock : Bool) (us : BitVec 32) (s : State),
    let u := settle s
    let x := u.cpx p
    let st := u.cpSt p
    let stage := u.rd (F.CP_STAT_STAGE p)
    let hold := u.on F.PWR_STAT_HOLD
    let leader := u.on (F.CP_CFG_ROLE p)
    let base := if leader then cpQuiet else cpListen
    let baud := if x.fellBack then 1 else u.rd (F.CP_CFG_BAUD p)
    let trainsNow := st == cpTrain && x.silence == .no
    let stays := fun (ks : List Fld) (t : State) => PortIs p x u t ∧ Frame ks [.cp] [] u t
    let fails := fun (code : Nat) (t : State) => PortFails p code u t ∧ PortFrame p u t
    u.coreUp = true →
    Completes (.cpEnable p) s (fun t =>
      if u.bistPart = some (8 + p.val) then
        Counts F.BIST_HOLD u t ∧ PortIs p { x with enHeld := some true } u t ∧ Frame [F.BIST_HOLD] [.cp] [] u t
      else
        t.on (F.CP_CTL_EN p) = true ∧
        if st = cpOff ∧ u.on F.SYS_CLK_XORDY = true ∧ u.on (F.CP_STAT_RET p) = false then
          t.rd (F.CP_STAT_BAUD p) = (if leader then u else t).rd (F.CP_CFG_BAUD p) ∧ PortAt p base 0 u t ∧ PortFrame p u t ∧
            PortIs p { x with silence := .no, waitMs := 2, fellBack := false, rxSync := false } u t
        else stays [F.CP_CTL_EN p] t) ∧
    Completes (.trainStart p) s (fun t =>
      if st = cpQuiet then
        if hold then Counts F.HOLD_BLOCKED u t ∧ stays [F.HOLD_BLOCKED] t
        else
          let w := WarmFits p baud u
          TrainStarts p x (if w then 3 else 1) w baud none u t
      else stays [] t) ∧
    Completes (.infoBlockRx p blk) s (BlockHeard p blk u) ∧
    Completes (.trainStageEnd p snr lock us) s (fun t =>
      let counts := 1 ≤ stage ∧ stage < 5 ∧ leader = (stage != 2)
      let stageOver := stage = 5 ∨ leader = (stage != 2) ∨ ∃ f, x.far = some f ∧ f / 2 ^ 8 % 8 = stage
      let sent := fun t : State => unline x.txScr (sentBlocks p u t)
      let z := if counts then { x with left := 0 } else x
      let goes := fun (next : Nat) (z : CpState) => PortAt p cpTrain next u t ∧ PortFrame p u t ∧
        PortNear p (z.entering leader (u.rd (F.CP_STAT_BAUD p)) next) u t
      if trainsNow = false ∨ ¬ stageOver then stays [] t
      else
        (counts → (sent t).length = x.left ∧ (t.cpx p).linePam = 1 ∧
          ∀ i, i < x.left → InfoSent p stage (x.left - 1 - i) x.chosen x.rson u ((sent t).getD i ⟨0, 0⟩)) ∧
        if stage = 1 ∨ stage = 2 then goes (stage + 1) z
        else if stage = 3 then t.rd (F.CP_SNR_OWN p) = snr.toNat ∧ goes 4 z
        else if stage = 4 then
          (x.far = none → fails 1 t) ∧
          ∀ f, x.far = some f →
            let c := u.rateChoice p f
            let falls := fun t : State => t.cpSt p = cpTrain ∧ t.rd (F.CP_TRFAILS p) = u.rd (F.CP_TRFAILS p) ∧ PortFrame p u t ∧
              PortNear p { z with silence := (if leader then .coldS1 else .base), waitMs := 0, far := none, warm := false, rxSync := false,
                                  fellBack := true, left := (t.cpx p).left } u t
            if c.1 = 0 then
              if u.rd (F.CP_STAT_BAUD p) ≠ 0 then fails 3 t
              else if leader then (if u.on (F.CP_CFG_FALLBACK p) then falls t else fails 3 t)
              else falls t ∨ fails 3 t
            else if f / 2 ^ 42 % 4 ≠ c.1 ∨ bitOf f 45 ≠ c.2 then fails 4 t
            else t.rd (F.CP_STAT_PAM p) = c.1 ∧ t.on (F.CP_STAT_RSON p) = c.2 ∧ goes 5 { z with chosen := c.1, rson := c.2 }
        else if stage = 5 then
          let need := (if x.chosen = 1 then 14 else if x.chosen = 2 then 21 else 27) - (if x.rson then 2 else 0)
          t.rd (F.CP_SNR_OWN p) = snr.toNat ∧ (t.cpx p).linePam = x.chosen ∧
          if lock = true ∧ 4 * need ≤ snr.toNat then
            t.rd (F.CP_TRTIME_US p) = us.toNat ∧ PortAt p cpData 0 u t ∧ PortFrame p u t ∧
              PortNear p { x with left := 0, upAt := u.rtcTicks, fellBack := false, errs := 0, errFired := false, young := true,
                                  txWord := (t.cpx p).txWord, rxWord := [] } u t ∧
              (x.rson = false → (t.cpx p).txWord = [] ∧ ∃ n, (hold = true → n = 0) ∧ sent t = List.replicate (x.left + n) ⟨2, 0x1E⟩)
          else fails 5 t ∧ (x.rson = false → sent t = List.replicate x.left ⟨2, 0x1E⟩ ++ List.replicate 64 ⟨2, 0xE1⟩)
        else True) ∧
    Completes (.trainTimeout p) s (fun t =>
      if trainsNow = true ∧ ((3 ≤ stage ∧ x.far ≠ none) ∨ (leader = true ∧ stage = 2 ∧ x.far = none ∧ x.rxSync = false)) then fails 1 t
      else stays [] t) ∧
    Completes (.warmTimeout p) s (fun t =>
      if trainsNow = true ∧ (leader && x.warm && x.far.isNone) = true then
        PortNear p { x with silence := .coldS1, waitMs := 0, far := none, warm := false, rxSync := false, left := (t.cpx p).left } u t ∧
          Frame [] [.cp, .freeSeq] [] u t ∧
          (stage = 3 → x.left ≠ 0 → let sent := unline x.txScr (sentBlocks p u t)
            (t.cpx p).left + sent.length = x.left ∧ ∀ i, i < sent.length → InfoSent p 3 (x.left - 1 - i) x.chosen x.rson u (sent.getD i ⟨0, 0⟩))
      else stays [] t) ∧
    Completes (.silenceEnd p) s (fun t =>
      let z := { x with silence := .no }
      let home := fun t : State => PortAt p base 0 u t ∧ PortIs p { z with waitMs := max x.waitMs 2 } u t ∧ PortFrame p u t ∧
        (leader = false → t.rd (F.CP_STAT_BAUD p) = if x.fellBack then 1 else t.rd (F.CP_CFG_BAUD p)) ∧
        (st = cpData → u.on (F.CP_SNAP_EN p) = true → SnapAt p u t)
      if st ≠ cpTrain ∧ st ≠ cpData then PortIs p z u t ∧ Frame [] [.cp] [] u t
      else if x.silence = .base then home t
      else if x.silence = .coldS1 then
        if hold then Counts F.HOLD_BLOCKED u t ∧ home t else TrainStarts p z 1 false baud none u t
      else stays [] t) ∧
    Completes (.blockLock p) s (fun t =>
      if trainsNow = true ∨ (st = cpData ∧ x.silence = .no) ∨ st = cpListen then t.rd (F.CP_STAT_BLK p) = 1 ∧ stays [F.CP_STAT_BLK p] t
      else stays [] t) ∧
    Completes (.farEndEnergy p) s (fun t =>
      PortIs p (if st = cpQuiet then { x with waitMs := max x.waitMs 2 } else x) u t ∧ Frame [] [.cp] [] u t) ∧
    Completes (.listenAlternateBaud p) s (fun t =>
      if st = cpListen ∧ u.on (F.CP_CFG_FALLBACK p) = true then
        t.rd (F.CP_STAT_BAUD p) = 1 - u.rd (F.CP_STAT_BAUD p) ∧ Frame [F.CP_STAT_BAUD p] [] [] u t
      else Frame [] [] [] u t))

/-- A link that is up, its frames and its commands (R208 to R211, R215, R217 to R221, R223): losses, the blocks of frames with their
counters, codewords, a whole frame from another port, the frames it sends, the error count, reinstatement, snapshots and reflection
profiles.

What a silence leads to is notes/assumptions/21.md; a cut-through whose data runs out notes/assumptions/71.md; what an uncorrectable codeword costs
and how parity blocks are found notes/assumptions/89.md; an ABORT before any other block, what an untold corner of R219 does, and what a port has
sent of a frame that is cut off notes/assumptions/98.md. -/
def Obligations.ColumnLink : Prop :=
  ∀ (p : Fin 2) (blks : List LineBlock) (frame : List Byte) (te : CpTxEnding) (taps : List (BitVec 16)) (s : State),
    let u := settle s
    let x := u.cpx p
    let st := u.cpSt p
    let base := if u.on (F.CP_CFG_ROLE p) then cpQuiet else cpListen
    let vals := taps.map BitVec.toNat
    let stays := fun (ks : List Fld) (t : State) => PortIs p x u t ∧ Frame ks [.cp] [] u t
    let down := fun t : State =>
      if u.cpUp p then LinkDown p u t ∧ (x.rx.isSome = true → Counts (F.CP_RXABORT p) u t) ∧ PortFrame p u t else stays [] t
    let deaf := fun (ks : List Fld) (t : State) => PortIs p (if st = cpListen then { x with rxSync := false } else x) u t ∧ Frame ks [.cp] [] u t
    let mac := frame.take 1532
    let whole := withFcs mac
    let way := (frameBlocks whole).foldl (fun a k => let l := k.toLine a.2; (a.1 ++ [l.1], l.2)) (([], x.rxScr) : List LineBlock × Nat)
    let own := u.fwd.txs.find? fun q => q.port == p.val + 1
    let through := u.fwd.cuts.find? fun c => c.egress == p.val + 1 && !c.lost
    let plain := u.on (F.CP_STAT_RSON p) = false
    let back := u.on (F.CP_STAT_RET p) && !u.on (F.CP_STAT_PRET p)
    let mayRun := u.on (F.CP_CTL_EN p) && u.on F.SYS_CLK_XORDY
    let profile := (List.range 160).map (fun k => F.CP_REFLT_TAP p k) ++
      [F.CP_FAULT_MAG p, F.CP_FAULT_SIGN p, F.CP_FAULT_VALID p, F.CP_FAULT_DIST p]
    u.coreUp = true →
    Completes (.blockLockLoss p) s (fun t => t.on (F.CP_STAT_BLK p) = false ∧ PortLoses p u t ∧ PortFrame p u t ∧
      (st ≠ cpData → st ≠ cpTrain → deaf [F.CP_STAT_BLK p] t)) ∧
    Completes (.cpLos p) s (fun t => PortLoses p u t ∧ PortFrame p u t ∧ (st ≠ cpData → st ≠ cpTrain → deaf [] t)) ∧
    Completes (.cpFrameStart p blks) s (BlocksHeard p blks u) ∧
    Completes (.cpFrameEnd p (.blocks blks)) s (BlocksHeard p blks u) ∧
    Completes (.cpFrameEnd p (.blocks way.1)) s (fun t =>
      u.cpUp p = true → x.rxSync = true → plain → x.rx = none → 6 ≤ frame.length →
        Counts (F.CP_RXOK p) u t ∧ Fires (124 + 8 * p) u t ∧ (t.cpx p).rx = none) ∧
    Completes (.cpFrameEnd p .loss) s (fun t => PortLoses p u t ∧ PortFrame p u t ∧
      (u.cpUp p = true → (t.cpx p).rx = none ∧ (x.rx.isSome = true → Counts (F.CP_RXABORT p) u t))) ∧
    Completes (.cpTxEnd p te) s (fun t =>
      let sends := fun (k : List Machine.Block) => (t.cpx p).linePam = u.rd (F.CP_STAT_PAM p) ∧ (plain → unline x.txScr (sentBlocks p u t) = k)
      let idles := fun n : Nat => List.replicate (n + 1) (⟨2, 0x1E⟩ : Machine.Block)
      PortFrame p u t ∧ (plain → PortNear p x u t) ∧
      if u.on F.PWR_STAT_HOLD then stays [] t else
      match te, own, through with
      | .term idle, some q, _ => Counts (F.CP_TXOK p) u t ∧ Fires (125 + 8 * p) u t ∧ q ∉ t.fwd.txs ∧
          sends (frameBlocks (withFcs q.data) ++ idles idle.toNat)
      | .badSource n idle, _, some c =>
        if c.bad then c ∉ t.fwd.cuts ∧ sends ((frameBlocks (u.cutBytes c)).take n.toNat ++ [⟨2, 0xE1⟩] ++ idles idle.toNat) else stays [] t
      | .underrun n idle, some q, _ => Counts (F.CP_TXUNDER p) u t ∧ q ∉ t.fwd.txs ∧
          sends ((frameBlocks (withFcs q.data)).take n.toNat ++ [⟨2, 0xE1⟩] ++ idles idle.toNat)
      | .underrun _ _, none, some c => if c.bad then stays [] t else Counts (F.CP_TXUNDER p) u t ∧ c ∉ t.fwd.cuts
      | _, _, _ => stays [] t) ∧
    Completes (.cpErrWindow p) s (fun t => PortIs p { x with errs := 0, errFired := false } u t ∧ Frame [] [.cp] [] u t) ∧
    Completes (.cpReinst p) s (fun t =>
      if back then
        t.on (F.CP_STAT_RET p) = false ∧ (t.cpx p).fails = [] ∧ PortFrame p u t ∧
        if mayRun = false then PortAt p cpOff 0 u t
        else if u.bistPart = some (8 + p.val) then (u.whiskTest = none → Counts F.BIST_HOLD u t) ∧ PortAt p cpOff 0 u t
        else
          PortAt p (if t.on (F.CP_CFG_ROLE p) then cpQuiet else cpListen) 0 u t ∧
            t.rd (F.CP_STAT_BAUD p) = t.rd (F.CP_CFG_BAUD p)
      else stays [] t) ∧
    Completes (.cpDown p) s down ∧ Completes (.cpRetrain p) s down ∧
    Completes (.cpRefl p taps) s (fun t =>
      if st = cpData then Captured p (u.rd (F.CP_STAT_BAUD p)) vals u t ∧ PortIs p x u t ∧ Frame profile [.cp, .freeSeq] [] u t
      else if st = cpQuiet ∨ st = cpListen then
        if u.on F.PWR_STAT_HOLD then Counts F.HOLD_BLOCKED u t ∧ stays [F.HOLD_BLOCKED] t
        else PortAt p cpProbe 0 u t ∧ PortIs p x u t ∧ PortFrame p u t
      else t.rd (F.CP_STAT_CMDERR p) = 1 ∧ stays [F.CP_STAT_CMDERR p] t) ∧
    Completes (.cpSnap p) s (fun t =>
      if st ≠ cpData then t.rd (F.CP_STAT_CMDERR p) = 1 ∧ Frame [F.CP_STAT_CMDERR p] [] [] u t
      else if u.on (F.CP_SNAP_EN p) = false then Frame [] [] [] u t
      else
        let a := 0x480000 + u.rd (F.CP_SNAP_OFS p) * 0x200
        SnapAt p u t ∧ Within [] [] [(a, a + 512)] [.freeSeq] [] u t) ∧
    Completes (.probeEnd p taps) s (fun t =>
      if st = cpProbe then
        Captured p (u.rd (F.CP_CFG_BAUD p)) vals u t ∧ PortAt p base 0 u t ∧ PortFrame p u t ∧
          PortNear p { x with txWord := [], waitMs := max x.waitMs 2 } u t ∧ (t.cpx p).linePam = 1 ∧
          unline (2 ^ 23 - 1) (sentBlocks p u t) = List.replicate (if u.rd (F.CP_CFG_BAUD p) = 0 then 3787 else 946) ⟨2, 0x1E⟩
      else stays [] t)

/-! ### The link MAC (R229 to R262) -/

/-- Frames that the radio receives, acks received and acks sent (R236 to R244, R249, R250, R258, R259): the steps of R236 in order,
the replay window, what an acceptance changes, and the ack that falls due; a slice of the MAC or of the engine makes a frame wait, and one of
the cipher engine a secured frame (notes/assumptions/93.md).

The corners of R229 to R264 that the rules leave open are the model's (notes/assumptions/25.md), and a decoded frame is what the operand carries
(notes/assumptions/87.md). -/
def Obligations.MacReception : Prop :=
  ∀ (s : State),
    let u := settle s
    let stays := fun t => Frame [] [] [] u t
    let frees := fun f : MacFrame => max 1 (((f.hdr.length + f.payload.length) + 255) / 256)
    let within := fun t => Within [0x500, 0x504, 0x50C, 0x50D, 0x50E] [F.BIST_HOLD, F.WHISK_CMTBLK_BLK] [(0x480000, 0x4B0000)]
      [.mod, .mac, .fwd, .tb, .freeSeq] (1 :: List.range' 32 8 ++ List.range' 136 39) u t
    u.coreUp = true →
    (u.mod.rxq = [] → Completes .macRxFrame s stays ∧ Completes .macAckRx s stays) ∧
    (∀ x, u.mod.rxq.head? = some x →
      let rest := u.mod.rxq.drop 1
      let popped := fun t : State => t.mod = { u.mod with rxq := rest }
      let counts := fun (c : Fld) (t : State) => Counts c u t ∧ Frame [c] [.mod] [] u t
      (x.isAck = true → Completes .macRxFrame s stays) ∧
      (x.isAck = false → Completes .macRxFrame s fun t => popped t ∧
        if u.bistPart = some 11 ∨ u.bistPart = some 12 ∨ (u.bistPart = some 10 ∧ 0 < leNat (x.macBytes.take 2) / 2 ^ 12 % 4) then
          t.fwd = { u.fwd with waits := u.fwd.waits ++ [.frame 0 x.macBytes (some x)] } ∧ Counts F.BIST_HOLD u t ∧
            Frame [F.BIST_HOLD] [.mod, .fwd] [] u t
        else if u.on F.MAC_CTL_EN = false then Frame [] [.mod] [] u t
        else
          (parseFrame x.macBytes = none → counts F.MAC_FMTERR t) ∧
          ∀ f, parseFrame x.macBytes = some f →
            let uni := (f.dst == .short (u.rd F.MAC_SHORT_ADDR) && f.dst != .short 0xFFFE) || f.dst == .ext (u.rd F.MAC_EXT_EUI)
            let src := u.findCtx f.src
            let key := u.keyCtx f src
            let other := match key with | some c => f.kidx != b2n (u.ctxFlag c 5) | none => false
            let ev := if other then [162] else []
            let owes := fun t : State =>
              let owed := u.on F.MAC_CTL_AUTOACK && f.ar && uni
              t.mac = { u.mac with owed := u.mac.owed ++
                if owed then [{ ofs := u.rd (F.LANE_OFS_OFS x.lane), k := x.k, bw := x.bw, rate := x.rate, fcnt := f.fcnt, ctx := src }]
                else [] } ∧
              t.on F.MAC_STAT_ACKOWED = (u.on F.MAC_STAT_ACKOWED || owed)
            if x.chk ≠ f.slv then counts F.MAC_FMTERR t
            else if f.typ = 1 then Frame [] [.mod] [] u t
            else if f.typ ≠ 2 ∧ uni = false ∧ u.macOther f = false ∧ u.on F.MAC_FILT_PROMISC = false then counts F.MAC_FILTDROP t
            else if f.slv ≠ 0 ∧ src = none then counts F.MAC_NOKEY t
            else
              (other = true → Fires 162 u t) ∧ (other = false → ¬ Fires 162 u t) ∧
              (u.micCheck f src key = .noKey → Counts F.CIPH_KEYERR u t) ∧
              (u.micCheck f src key = .badTag → Counts F.CIPH_TAGFAILS u t ∧ Fires 170 u t) ∧
              match u.micCheck f src key with
              | .ok plain =>
                if f.typ = 2 then
                  let parent := bodyOk plain && (match f.src with
                    | .short a => u.rd F.MAC_TPAR_ADDR == 0xFFFF || (a != 0xFFFE && a == u.rd F.MAC_TPAR_ADDR)
                    | _ => false)
                  let nt := leNat (plain.take 6)
                  let ann := leNat ((plain.drop 6).take 1) % 4
                  let mcn := leNat ((plain.drop 7).take 4)
                  let taken := (ann == 1 || ann == 2) && t.on F.TB_CFG_AUTOANN
                  if bodyOk plain = false then Counts F.MAC_FMTERR u t ∧ Frame [F.MAC_FMTERR] [.mod] ev u t
                  else if parent = false then Frame [] [.mod] ev u t
                  else if u.bistPart = some 14 then
                    t.tb = { u.tb with beacons := u.tb.beacons ++ [⟨nt, x.ts, mcn, ann⟩] } ∧
                      (u.whiskTest = none → Counts F.BIST_HOLD u t) ∧ Frame [F.BIST_HOLD] [.mod, .tb] ev u t
                  else Fires 141 u t ∧ t.mac = u.mac ∧ t.fwd = u.fwd ∧ t.tb.busyAge = 2 ∧
                    (u.isConcentrator = false → u.rd F.TB_STAT_STATE ≠ tbGrid ∨ u.on F.TB_STAT_HOLD = true →
                      t.now = (nt + u.now + 2 ^ 48 - x.ts) % 2 ^ 48 ∧ t.rd F.TB_SYNCAGE_AGE = 0) ∧
                    (taken = false → ¬ Fires 143 u t) ∧
                    (taken = true → Fires 143 u t ∧ t.rd F.TB_SWCTL_MODE = ann ∧ t.rd F.TB_SWMCN_MCN = mcn) ∧ within t
                else
                  let started := match key with | some c => u.ctxFlag c 1 | none => false
                  let hw := match key with | some c => u.ctxLe c 20 4 | none => 0
                  let bm := match key with | some c => u.ctxLe c 24 8 | none => 0
                  let known := started && decide (f.fcnt ≤ hw)
                  if known = true ∧ f.fcnt + 63 < hw then Counts F.MAC_REPLAY u t ∧ Fires 148 u t ∧ t.mac = u.mac ∧ t.fwd = u.fwd ∧ within t
                  else if known = true ∧ bitOf bm (hw - f.fcnt) = true then
                    Counts F.MAC_DUP u t ∧ Fires 147 u t ∧ owes t ∧ t.fwd = u.fwd ∧ within t
                  else if u.on F.FWD_CTL_EN = false ∨ u.freeCells.length < frees { f with payload := plain } ∨ u.freeNums = [] then
                    Counts (F.FB_DROP 0) u t ∧ Fires 154 u t ∧ t.mac = u.mac ∧ within t ∧
                      ∀ c, key = some c → t.ctxLe c 20 4 = hw ∧ t.ctxLe c 24 8 = bm ∧ t.ctxFlag c 1 = started
                  else Counts F.MAC_RXOK u t ∧ Fires 136 u t ∧ owes t ∧ within t ∧
                    (∀ c, key = some c → t.ctxFlag c 1 = true ∧ t.ctxLe c 20 4 = (if known then hw else f.fcnt) ∧
                      t.ctxLe c 24 8 = if known then bm ||| 2 ^ (hw - f.fcnt)
                        else if !started || decide (64 ≤ f.fcnt - hw) then 1 else bm * 2 ^ (f.fcnt - hw) % 2 ^ 64 ||| 1) ∧
                    (∀ c, src = some c → t.ctxLe c 52 2 = min (u.ctxLe c 52 2 + 1) 65535 ∧ t.ctxLe c 60 4 = u.rd F.TB_NOW_MCN)
              | _ => Counts F.MAC_SECFAIL u t ∧ Fires 149 u t ∧ t.mac = u.mac ∧ t.fwd = u.fwd ∧ within t) ∧
      Completes .macAckRx s (fun t =>
        if x.isAck = false then stays t
        else
          let n := leNat ((x.macBytes.drop 2).take 4)
          let pend := bitOf (leNat (x.macBytes.take 2)) 4
          (u.mac.tx = none → popped t ∧ Frame [] [.mod] [] u t) ∧
          ∀ y, u.mac.tx = some y →
            if y.phase = .await ∧ y.lane = some x.lane ∧ y.fcnt = n ∧ (∀ l, y.late = some l → 2 * x.lane + x.slot ∈ l) then
              t.mod.rxq = rest ∧ Fires 139 u t ∧ Fires 137 u t ∧ AttemptOver u t ∧ t.rd F.MAC_TXSTAT_RESULT = 1 ∧
              t.rd F.MAC_TXSTAT_ATTEMPTS = y.attempts % 2 ^ F.MAC_TXSTAT_ATTEMPTS.w ∧ t.on F.MAC_TXSTAT_PEND = pend ∧
              t.mac.pwin = (u.mac.pwin || (pend && u.rd F.MAC_ACKCFG_PWIN != 0)) ∧
              (∀ c, c < 512 → y.q.ctx = some c → t.ctxLe c 54 2 = min (u.ctxLe c 54 2 + 1) 65535) ∧ MacFrameOf u t
            else popped t ∧ Frame [] [.mod] [] u t)) ∧
    Completes .ackTxStart s (fun t =>
      match u.mac.owed with
      | [] => stays t
      | a :: l =>
        t.mac.owed = l ∧ t.on F.MAC_STAT_ACKOWED = !l.isEmpty ∧ MacFrameOf u t ∧
        if u.fe.req.isSome ∨ u.fe.tx.isSome then Counts F.ACK_LOST u t ∧ t.fe.req = u.fe.req ∧ t.mac.ackTx = u.mac.ackTx
        else
          let pend := match a.ctx with | some c => (u.fwd.queue ++ u.fwd.held).any fun e => e.ctx == some c | none => false
          t.mac.ackTx = true ∧ t.rd F.ACK_LOST = u.rd F.ACK_LOST ∧
          t.fe.req = some {
            kind := .ack, k := a.k, bw := a.bw, rate := a.rate, chk := 0, npre := 8, nid := u.rd F.MOD_NID_NID,
            ofs := a.ofs, idx := u.rd F.MAC_ACKCFG_PWR,
            payload := withCrc (leBytes 2 (1 + if pend then 16 else 0) ++ leBytes 4 a.fcnt)
            })

/-- The attempts of a radio frame (R245, R247 to R251, R255): the assessment, the request to the front end, the ack wait and what came in
within it, the backoff and the aligned start toward a scheduled peer, what the radio yields to, and how a frame ends.

RESULT 6 of an aborted attempt, the backoffs of several frames, how a deferred attempt is offered again and the instant of an aligned start are
the model's (notes/assumptions/26.md, notes/assumptions/29.md). -/
def Obligations.MacAttempts : Prop :=
  ∀ (pwr : BitVec 16) (left : Bool) (num : BitVec 8) (s : State),
    let u := settle s
    let stays := fun t => Frame [] [] [] u t
    let failed := fun (x : MacTx) (result : Nat) (t : State) => Fires 138 u t ∧ Counts F.MAC_TXFAILS u t ∧ AttemptOver u t ∧
      t.rd F.MAC_TXSTAT_RESULT = result ∧ t.rd F.MAC_TXSTAT_ATTEMPTS = x.attempts % 2 ^ F.MAC_TXSTAT_ATTEMPTS.w ∧ t.mac.waits = u.mac.waits ∧
      (∀ c, c < 512 → x.q.ctx = some c → t.ctxLe c 56 2 = min (u.ctxLe c 56 2 + 1) 65535) ∧ MacFrameOf u t
    let nextSlot := fun c : Nat =>
      let e := u.peerSched c
      let from_ := u.now + u.tbUnc
      (from_ + instantFrom (from_ % 2 ^ 48) e.per e.cyc e.frac) % 2 ^ 48
    let backs := fun (x : MacTx) (t : State) =>
      let y := t.mac.waits.getLastD x
      let be := min (u.rd F.MAC_RETRY_BEMIN + x.fails) (u.rd F.MAC_RETRY_BEMAX)
      AttemptOver u t ∧ t.mac.waits = u.mac.waits ++ [y] ∧ y.backoff < 2 ^ be ∧
        { y with backoff := x.backoff } = { x with
          fails := x.fails + 1, phase := .backoff, late := none, due := false, slot := if x.sched then x.q.ctx.map nextSlot else none } ∧
        t.rd F.MAC_TXFAILS = u.rd F.MAC_TXFAILS ∧ MacFrameOf u t
    let asks := fun (x : MacTx) (nid : Nat) => ({
      kind := .data, k := x.k, bw := x.bw, rate := x.rate, chk := x.slv, npre := x.npre, nid := nid, ofs := x.ofs, idx := x.idx,
      payload := if x.slv = 0 then x.frame ++ leBytes 4 (crc32 x.frame) else x.frame
      } : TxReq)
    u.coreUp = true →
    (u.mac.tx = none → Completes (.macCca pwr left) s stays ∧ Completes .macTxAttempt s stays ∧ Completes .macAckTimeout s stays) ∧
    (∀ x, u.mac.tx = some x →
      let lane := (List.range 8).find? fun n => u.laneLive n && u.rd (F.LANE_OFS_OFS n) == x.ofs && u.rd (F.LANE_CFG_BW n) == x.bw &&
        bitOf (u.rd (F.LANE_CFG_ORD n)) (x.k - 5)
      let mode := u.rd F.MAC_CCA_MODE
      let busy := lane.isSome && ((bitOf mode 0 && decide (signed (u.rd F.MAC_CCATHR_THR) 16 < pwr.toInt)) || (bitOf mode 1 && left))
      let coming := match x.lane with
        | some n => ([0, 1].filter fun j => (u.slot n j).st == .hdr || (u.slot n j).st == .pay || (u.slot n j).st == .lost).map (2 * n + ·)
        | none => []
      Completes (.macCca pwr left) s (fun t =>
        if x.phase ≠ .assess then stays t
        else if busy then Counts F.MAC_CCABUSYS u t ∧ Fires 150 u t ∧ ChanCounts 3 x.ofs u t ∧
          let y := { x with busies := x.busies + 1 }
          if u.rd F.MAC_RETRY_CCAMAX < y.busies then failed y 4 t else backs y t
        else t.mac = { u.mac with tx := some { x with phase := .clear, lane := lane } } ∧ Frame [] [.mac] [] u t) ∧
      Completes .macTxAttempt s (fun t =>
        let r := asks x (u.rd F.MOD_NID_NID)
        if x.phase ≠ .clear ∨ u.fe.req.isSome then stays t
        else if x.ar = true ∧ x.lane = none then
          AttemptOver u t ∧ t.rd F.MAC_TXSTAT_RESULT = 7 ∧ Counts F.FWD_TXREFDROP u t ∧ t.rd F.MAC_TXFAILS = u.rd F.MAC_TXFAILS ∧ MacFrameOf u t
        else match u.yieldsTo (u.radioUs r x.ar - u.ccaUs r) with
        | some k => AttemptOver u t ∧ t.mac.waits = u.mac.waits ++ [{ x with due := true, phase := .backoff }] ∧
            Counts (F.TX_DEFER (k - 1)) u t ∧ Fires 151 u t ∧ MacFrameOf u t
        | none => t.mac = { u.mac with tx := some { x with phase := .sending } } ∧ t.fe = { u.fe with req := some r } ∧
            Frame [] [.mac, .fe] [] u t) ∧
      Completes .macAckTimeout s (fun t =>
        if x.phase ≠ .await ∨ x.late ≠ none then stays t
        else if coming ≠ [] then t.mac = { u.mac with tx := some { x with late := some coming } } ∧ Frame [] [.mac] [] u t
        else Counts F.MAC_NOACK u t ∧
          if x.ar = true ∧ x.attempts < u.rd F.MAC_RETRY_MAX + 1 then backs x t else failed x 3 t)) ∧
    Completes (.macBackoffEnd num) s (fun t =>
      match u.mac.waits.find? fun x => x.q.num == num.toNat with
      | none => stays t
      | some x => ∃ (v : State) (z : MacTx),
        let defers := fun k : Nat => Counts (F.TX_DEFER (k - 1)) v t ∧ Frame [F.TX_DEFER (k - 1)] [.mac] [151] v t ∧
          t.mac = { v.mac with waits := u.mac.waits.map fun w => if w = x then { z with due := true } else w }
        (x.slot = none ∨ x.q.ctx = none → v = u ∧ z = x) ∧
        (∀ inst c, x.slot = some inst → x.q.ctx = some c → z = { x with npre := v.preamble x.prof true } ∧
          let wait := u.usFracs (x.backoff * 2 * symUs x.k x.bw)
          let start := inst + wait - u.tbUnc
          if x.due then v = u
          else MacTimed u v ∧ v.mac.core = u.mac.core ∧
            (u.tbFine = true → wait < 2 ^ 32 → u.now ≤ start → start / 2 ^ 16 = u.now / 2 ^ 16 → v.now = start)) ∧
        match u.mac.tx with
        | some y => defers (if y.sched then 4 else 5)
        | none =>
          if x.sched = false ∧ v.slotWaits = true then defers 4
          else match v.yieldsTo (v.radioUs (asks z 0) x.ar) with
          | some k => defers k
          | none => t.rd F.MAC_STAT_TXACT = 1 ∧
            t.mac = { v.mac with waits := u.mac.waits.filter (· ≠ x), tx := some { z with phase := .assess, due := false } } ∧
            Frame [F.MAC_STAT_TXACT] [.mac] [] v t) ∧
    Completes .pendHoldEnd s (fun t => t.mac.core = { u.mac with pwin := false }.core ∧ RxFollows u t ∧
      (MacKeeps t = true ∨ u.mac.rxOwn = false → t.mac = { u.mac with pwin := false } ∧ Frame [] [.mac] [] u t) ∧ MacFrameOf u t)

/-- The schedules of sleepy reception and of beacons (R252 to R258, R285): the instants of the entries, lead instants, windows with their
guards and what closes them, the slots of scheduled peers, whose frames defer an attempt in progress (R251), and the beacons of a
concentrator, whose time is latched later; a slice of the cipher engine makes a secured one wait (notes/assumptions/93.md).

How time comes to an instant is notes/assumptions/29.md, what a step that passes several instants does notes/assumptions/91.md, and when a beacon's
time is latched notes/assumptions/26.md. -/
def Obligations.MacSchedules : Prop :=
  ∀ (i : Fin 32) (c : Fin 512) (s : State),
    let u := settle s
    let stays := fun t => Frame [] [] [] u t
    let m := u.mac
    let on := u.on F.MAC_CTL_EN && u.on (F.MAC_WAKE_EN i)
    let winHeld := m.holders.any fun k => (u.mod.slots.getD k {}).st != .idle
    let asked := fun t : State => t.on F.FE_STAT_RXREQ = true
    (u.aonUp = true →
      Completes (.wakeLead i) s (fun t =>
        let inst := u.now + u.instIn i (u.leadAfter 0) (u.wakeSched i)
        if on = false then stays t
        else (u.wakeSched i).At inst ∧ ActComes u.leadAfter inst u t ∧ Fires 144 u t ∧ asked t ∧ MacTimed u t ∧
          t.mac.core = { m with leads := m.leads.filter (· ≠ i.val) ++ [i.val] }.core) ∧
      Completes (.windowOpen i) s (fun t =>
        let inst := u.now + u.instIn (32 + i) (u.guardAfter 0) (u.wakeSched i)
        let leads := m.leads.filter (· ≠ i.val)
        if on = false then stays t
        else (u.wakeSched i).At inst ∧ ActComes u.guardAfter inst u t ∧ MacTimed u t ∧
          if u.inRest then Counts F.MAC_WINSKIP u t ∧ t.mac.core = { m with leads := leads }.core ∧ RxFollows u t
          else t.rd F.MAC_STAT_WIN = 1 ∧ t.on F.MAC_STAT_GUARDSAT = (t.tbUnc == 65535) ∧ asked t ∧
            t.mac.core = { m with
              leads := leads
              wins := (m.wins.filter fun w : Nat × Nat => w.1 ≠ i.val) ++
                [(i.val, (inst + 16 * u.rd (F.MAC_WAKE_LEN i) + (u.rd F.MAC_GUARD_G0 + t.tbUnc)) % 2 ^ 48)]
              holders := if m.wins.isEmpty then [] else m.holders, det := if m.wins.isEmpty then false else m.det
              }.core) ∧
      Completes .beaconSlot s (fun t =>
        let inst := u.now + u.instIn 64 0 u.beaconSched
        let idle := u.inRest || m.ackTx || !m.owed.isEmpty || u.fe.req.isSome
        let prof := u.rd F.MAC_BCN_PROF
        if u.on F.MAC_CTL_EN = false ∨ u.isConcentrator = false ∨ u.on F.MAC_BCN_EN = false then stays t
        else u.beaconSched.At inst ∧ (u.tbFine = true → t.now = inst % 2 ^ 48) ∧ MacTimed u t ∧
          if m.skip = true ∨ idle = true then
            Counts F.BCN_SKIP u t ∧ t.mac.core = { m with skip := false }.core ∧ t.fe = u.fe
          else
            let rest := leBytes 1 (t.rd F.TB_SWCTL_MODE % 4 % 3 + if t.rd F.TB_STAT_STATE = tbGrid then 4 else 0) ++
              leBytes 4 (t.rd F.TB_SWMCN_MCN) ++ leBytes 2 (u.rd F.MAC_BCN_PER) ++ leBytes 1 (u.rd F.MAC_BCNSEQ_SEQ + 1)
            let group := u.findCtx (.short 0xFFFF)
            let slv := (group.map u.ctxSlv).getD 0
            t.mac.core = m.core ∧
            if u.bistPart = some 10 ∧ slv ≠ 0 then
              t.fe = u.fe ∧ t.fwd = { u.fwd with waits := u.fwd.waits ++ [.beacon] } ∧ (u.whiskTest = none → Counts F.BIST_HOLD u t)
            else
            (slv = 0 →
              let n := u.rd F.MAC_BCASTCNT_CNT
              let hdr := leBytes 2 0x802 ++ leBytes 4 n ++ leBytes 2 (u.rd F.MAC_SHORT_ADDR)
              let bytes := hdr ++ leBytes 6 0 ++ rest
              t.rd F.MAC_BCASTCNT_CNT = (n + 1) % 2 ^ 32 ∧
              t.fe = { u.fe with req := some {
                kind := .beacon, k := u.rd (F.MAC_PROF_K prof), bw := u.rd (F.MAC_PROF_BW prof), rate := u.rd (F.MAC_PROF_RATE prof), chk := 0,
                npre := u.rd (F.MAC_PROF_NPRE prof), nid := u.rd F.MOD_NID_NID, ofs := u.rd (F.MAC_PROF_OFS prof),
                idx := u.rd (F.MAC_PROF_PWR prof), payload := bytes ++ leBytes 4 (crc32 bytes)
                bcn := some { hdr := hdr, slot := none, slv := 0, fcnt := n, rest := rest }
                } }) ∧
            (∀ g, group = some g → slv ≠ 0 →
              let slot := u.usableSlot g (b2n (u.ctxFlag g 5)) useSend
              if slot = none then Counts F.CIPH_KEYERR u t ∧ t.fe = u.fe
              else if u.ctxLe g 16 4 = 2 ^ 32 - 1 then Counts F.FWD_CTREXH u t ∧ t.fe = u.fe
              else t.ctxLe g 16 4 = u.ctxLe g 16 4 + 1 ∧ (t.fe.req.map fun r => (r.kind, r.chk)) = some (.beacon, slv) ∧
                ((t.fe.req.bind fun r => r.bcn).map fun b => (b.slot, b.slv, b.fcnt, b.rest)) = some (slot, slv, u.ctxLe g 16 4, rest)))) ∧
    (u.coreUp = true →
      Completes (.windowClose i) s (fun t =>
        match m.wins.find? fun w => w.1 == i.val with
        | none => stays t
        | some w =>
          let left := m.wins.filter (· ≠ w)
          EndComes w.2 u t ∧ MacTimed u t ∧
          if winHeld then t.mac = m
          else t.mac.core = { m with wins := left }.core ∧
            (left = [] → t.on F.MAC_STAT_WIN = false ∧ (MacKeeps t = false → t.on F.FE_STAT_RXREQ = false) ∧
              (m.det = false → Counts F.MAC_WINEMPTIES u t ∧ Fires 145 u t) ∧
              (m.det = true → t.rd F.MAC_WINEMPTIES = u.rd F.MAC_WINEMPTIES ∧ ¬ Fires 145 u t)) ∧
            (left ≠ [] ∨ MacKeeps t = true → t.fe = u.fe ∧ t.on F.FE_STAT_RXREQ = u.on F.FE_STAT_RXREQ)) ∧
      Completes (.peerSlot c) s (fun t =>
        let inst := u.now + u.instIn (128 + c) u.tbUnc (u.peerSched c)
        let waiting := (u.fwd.held ++ u.fwd.queue).any (fun e => e.ctx == some c.val) || m.waits.any fun x => x.q.ctx == some c.val
        if (u.ctxValid c && u.ctxFlag c 2) = false then stays t
        else (u.peerSched c).At inst ∧ ActComes u.uncAfter inst u t ∧ MacTimed u t ∧ t.mac.core = m.core ∧
          (Fires 146 u t ↔ waiting = true) ∧
          match u.fwd.held.find? fun e => e.ctx == some c.val with
          | none => t.fwd = u.fwd
          | some e => t.fwd = { u.fwd with
              held := u.fwd.held.filter (· ≠ e), queue := e :: u.fwd.queue
              released := u.fwd.released ++ [(e.num, (inst + 16 * u.ctxLe c 38 2) % 2 ^ 48)]
              } ∧
            ∀ k, k < 5 →
              if m.tx.any (fun y => (if y.sched then 3 else 4) == k) then Counts (F.TX_DEFER k) u t ∧ Fires 151 u t
              else t.rd (F.TX_DEFER k) = u.rd (F.TX_DEFER k)) ∧
      Completes (.slotMiss c) s (fun t =>
        match u.fwd.queue.find? fun e => e.ctx == some c.val && u.fwd.released.any fun d => d.1 == e.num with
        | none => stays t
        | some e =>
          let left := u.fwd.queue.filter (· ≠ e)
          let empty := !(left ++ u.fwd.txs).any fun d => d.port == 0
          (∀ d, u.fwd.released.find? (fun d => d.1 == e.num) = some d → EndComes d.2 u t) ∧
          Counts F.FWD_SLOTMISS u t ∧ MacTimed u t ∧ t.mac = m ∧
          t.fwd = { u.fwd with queue := left, held := e :: u.fwd.held, released := u.fwd.released.filter fun d => d.1 ≠ e.num } ∧
          (Fires 167 u t ↔ empty = true) ∧ t.on (F.FWD_GSTAT_DRAINF 0) = (u.on (F.FWD_GSTAT_DRAINF 0) || empty)) ∧
      Completes .beaconSkipTask s (fun t => t.mac = { m with skip := true } ∧ Frame [] [.mac] [] u t))

/-! ### The forwarding engine (R266 to R293) -/

/-- The instants of the engine (R280 to R286, R288, R290): a refill with its buckets, credits and ages, the gate lists' entries and
cycles, and the choice of the frame that a port starts, on the radio with the attempts that were deferred (R43, R251); a slice of the cipher
engine makes a frame that is to be secured wait (notes/assumptions/93.md).

That a deferred attempt is offered before the queued frames of its rank is notes/assumptions/26.md; how time comes to an instant
notes/assumptions/29.md; LOCAL shaped as any port, and the engine's other corners, notes/assumptions/27.md; what a frame that cuts through pays
notes/assumptions/92.md. -/
def Obligations.ForwardTraffic : Prop :=
  ∀ (p : Fin 5) (s : State),
    let u := settle s
    let stays := fun t => Frame [] [] [] u t
    let g := u.fwd.gates.getD p {}
    let entry := fun (g : GateRun) e => u.tab (1 + p) (64 * g.bank + e)
    let dur := fun (g : GateRun) e => entry g e % 2 ^ 32
    let gap := u.on (F.FWD_GSTAT_GAP p)
    let comes := fun (i : Nat) (t : State) =>
      if u.tbFine then t.now = i % 2 ^ 48 else u.tb.slew.natAbs < 2 ^ 38 → later48 i t.now = false
    let timed := fun t => Within [0x500, 0x504, 0x50D] [F.WHISK_CMTBLK_BLK] [] [.tb, .fwd] [1, 32, 33, 34, 35, 36, 37, 38, 39, 157] u t
    u.coreUp = true →
    Completes .fwdRefill s (fun t =>
      if u.on F.FWD_CTL_EN = false then stays t
      else
        let old := fun (e : QEnt) => u.rd F.FWD_AGE_CYC != 0 && (u.fwd.frames.find? fun f => f.num == e.num).any fun f =>
          let d := (u.now + 2 ^ 48 - f.born) % 2 ^ 48
          decide (u.rd F.FWD_AGE_CYC * 2 ^ 16 < d ∧ d - u.rd F.FWD_AGE_CYC * 2 ^ 16 < 2 ^ 47)
        let waiting := u.fwd.queue ++ u.fwd.held
        Fires 158 u t ∧ t.on (cmtPend 0x50D) = false ∧
        (∀ e, e ∈ waiting → old e = true → e ∉ t.fwd.queue ++ t.fwd.held) ∧
        (∀ e, e ∈ t.fwd.queue ++ t.fwd.held → e ∈ waiting ∧ old e = false) ∧
        t.rd F.FWD_AGEDROP = min (u.rd F.FWD_AGEDROP + (waiting.filter old).length) 65535 ∧
        (u.on (cmtPend 0x50D) = true → Fires 1 u t) ∧
        (u.on (cmtPend 0x50D) = false →
          (∀ c, c < u.nctx → t.ctxLe c 44 2 =
            if u.ctxFlag c 6 then min (u.ctxLe c 44 2 + u.ctxLe c 40 2) (u.ctxLe c 42 2) else u.ctxLe c 44 2) ∧
          ∀ i, i < 40 →
            let m := u.tabAct 6 i
            let k := u.tabAct 7 i
            t.fwd.ctok.getD i 0 = min (u.fwd.ctok.getD i 0 + m / 2 ^ 16 % 2 ^ 16) (m % 2 ^ 16) ∧
            t.fwd.ptok.getD i 0 = min (u.fwd.ptok.getD i 0 + m / 2 ^ 48 % 2 ^ 16) (m / 2 ^ 32 % 2 ^ 16) ∧
            t.fwd.credit.getD i 0 = if bitOf k 61 then
              min (u.fwd.credit.getD i 0 + ((k / 2 ^ 32 % 2 ^ 16 : Nat) : Int)) ((k / 2 ^ 16 % 2 ^ 16 : Nat) : Int)
              else u.fwd.credit.getD i 0) ∧
        Within [0x50D] [F.WHISK_CMTBLK_BLK] [(0x480000, 0x488000)] [.fwd] [1, 154, 158, 167] u t) ∧
    Completes (.gateEntryEnd p) s (fun t =>
      if g.en = false ∨ gap = true then stays t
      else
        let e := u.rd (F.FWD_GSTAT_ENTRY p) + 1
        let new : GateRun := {
          en := u.on (F.FWD_GCTL_EN p), bank := u.rd (F.FWD_GCTL_BANK p), nent := u.rd (F.FWD_GCTL_NENT p),
          base := u.rd (F.FWD_GBASE_MCN p) * 65536 + u.rd (F.FWD_GBASE_FRAC p)
          }
        timed t ∧ (later48 g.endAt u.now = true → comes g.endAt t) ∧ (later48 g.endAt u.now = false → t.now = u.now) ∧
        if e < g.nent then
          t.rd (F.FWD_GSTAT_ENTRY p) = e % 64 ∧ t.fwd.gates.getD p {} = { g with endAt := (g.endAt + dur g e) % 2 ^ 48 } ∧ ¬ Fires 157 u t
        else
          let twice := g.done.any fun d => !later48 g.endAt d
          let done := if twice then g.done else some g.endAt
          (if twice then ¬ Fires 157 u t ∧ t.on (F.FWD_GSTAT_CYCF p) = u.on (F.FWD_GSTAT_CYCF p)
            else Fires 157 u t ∧ t.on (F.FWD_GSTAT_CYCF p) = true) ∧ t.rd (F.FWD_GSTAT_ENTRY p) = 0 ∧
          if { new with endAt := g.endAt, done := g.done } = g then
            t.fwd.gates.getD p {} = { g with endAt := (g.endAt + dur g 0) % 2 ^ 48, done := done } ∧ t.on (F.FWD_GSTAT_GAP p) = false
          else t.fwd.gates.getD p {} = { new with done := done } ∧ t.on (F.FWD_GSTAT_GAP p) = new.en ∧ t.rd (F.FWD_GSTAT_RUNBANK p) = new.bank % 2) ∧
    Completes (.gateFirstCycleStart p) s (fun t =>
      if g.en = false ∨ gap = false then stays t
      else
        let cycle := max 1 ((List.range g.nent).map (dur g)).sum
        let start := if later48 g.base u.now then g.base
          else (g.base + ((u.now + 2 ^ 48 - g.base) % 2 ^ 48 + cycle - 1) / cycle * cycle) % 2 ^ 48
        t.on (F.FWD_GSTAT_GAP p) = false ∧ t.rd (F.FWD_GSTAT_ENTRY p) = 0 ∧
        (later48 start u.now = true → comes start t) ∧ (later48 start u.now = false → t.now = u.now) ∧
        t.fwd.gates.getD p {} = { g with endAt := (start + dur g 0) % 2 ^ 48 } ∧ timed t) ∧
    Completes (.fwdEgressSelect p) s (fun t =>
      let head := fun (ok : QEnt → Bool) q => (u.fwd.queue.find? fun e => e.port == p.val && e.cls == q).filter ok
      let paid := fun q => !bitOf (u.tabAct 7 (8 * p + q)) 61 || decide (0 < u.fwd.credit.getD (8 * p + q) 0)
      let may := fun q => u.gateOpen p q && paid q
      let fits := fun q (e : QEnt) => u.lidFits p q (u.lidPs e)
      let broke := fun (e : QEnt) => p == 0 && u.overAir e
      let picks := fun ok => [7, 6, 5, 4, 3, 2, 1, 0].find? fun q => (head ok q).any fun e => may q && fits q e && !broke e
      let pick := fun ok => (picks ok).bind (head ok)
      let passed := fun ok => [7, 6, 5, 4, 3, 2, 1, 0].filter fun q => (picks ok).all fun r => decide (r < q)
      let lids := fun ok => (passed ok).filter fun q => (head ok q).any fun e => may q && !fits q e && !e.lidHeld
      let poor := fun ok => (passed ok).filter fun q => (head ok q).any fun e => may q && fits q e && broke e && !e.budgetHeld
      let inSlot := fun (e : QEnt) => u.fwd.released.any fun d => d.1 == e.num
      let other := fun (e : QEnt) => !inSlot e
      let yieldQ := fun (e : QEnt) => e.ctx.bind fun c => u.yieldsTo (u.radioUs (u.entReq e c) (u.egressAr c))
      let yieldR := fun (x : MacTx) => u.yieldsTo (u.radioUs (x.req 0) x.ar)
      let due := fun sched => u.mac.waits.find? fun x => x.due && x.sched == sched
      let highR := (due true).filter fun x => (yieldR x).isNone
      let highQ := if highR.isSome then none else (pick inSlot).filter fun e => (yieldQ e).isNone
      let high := highR.isSome || highQ.isSome
      let lowR := if high then none else (due false).filter fun x => (yieldR x).isNone
      let lowQ := if high || (due false).isSome then none else (pick other).filter fun e => (yieldQ e).isNone
      let ranks := if p ≠ 0 then [] else
        ((due true).bind yieldR).toList ++ (if highR.isSome then [] else ((pick inSlot).bind yieldQ).toList) ++
          if high then (if (due false).isSome || (pick other).isSome then [4] else [])
          else if (due false).isSome then ((due false).bind yieldR).toList else ((pick other).bind yieldQ).toList
      let rounds := if p ≠ 0 then [fun _ => true] else (if highR.isSome then [] else [inSlot]) ++ if high || (due false).isSome then [] else [other]
      let again := if p ≠ 0 then none else highR.or lowR
      let chosen := if p = 0 then highQ.or lowQ else if p = 4 then none else pick fun _ => true
      let unmarked := fun (l : List QEnt) => l.map fun e => { e with lidHeld := false, budgetHeld := false }
      let counted := [F.FWD_LIDHOLD, F.GATE_HOLD] ++ (List.range 5).map F.TX_DEFER
      if p ≠ 4 ∧ u.canStart p = false then stays t
      else
        t.rd F.FWD_LIDHOLD = min (u.rd F.FWD_LIDHOLD + (rounds.map fun ok => (lids ok).length).sum) 65535 ∧
        t.rd F.GATE_HOLD = min (u.rd F.GATE_HOLD + (rounds.map fun ok => (poor ok).length).sum) 65535 ∧
        (∀ k, k < 5 → t.rd (F.TX_DEFER k) = min (u.rd (F.TX_DEFER k) + (ranks.filter (· == k + 1)).length) 65535) ∧
        (ranks ≠ [] → Fires 151 u t) ∧
        (chosen = none → again = none → t.fwd.txs = u.fwd.txs ∧ unmarked t.fwd.queue = unmarked u.fwd.queue ∧
          Frame counted [.fwd] (ranks.map fun _ => 151) u t) ∧
        (∀ x, again = some x → t.rd F.MAC_STAT_TXACT = 1 ∧ t.fwd.txs = u.fwd.txs ∧ unmarked t.fwd.queue = unmarked u.fwd.queue ∧
          t.mac = { u.mac with
            waits := u.mac.waits.filter (· ≠ x)
            tx := some { x with npre := (if x.sched then u.preamble x.prof true else x.npre), phase := .assess, due := false }
            } ∧
          Frame (F.MAC_STAT_TXACT :: counted) [.fwd, .mac] (ranks.map fun _ => 151) u t) ∧
        ∀ e, chosen = some e → ∀ c, e.ctx = some c → ∀ f, u.frame e.num = some f →
          let q := e.cls
          let slv := u.ctxSlv c
          let key := u.usableSlot c (b2n (u.ctxFlag c 5)) useSend
          let gone := e ∉ t.fwd.queue
          Within [0x50D] ([F.MAC_STAT_TXACT, F.MAC_TXSTAT_RESULT, F.MAC_TXSTAT_ATTEMPTS, F.CIPH_KEYERR, F.BIST_HOLD] ++ counted)
            [(0x480000, 0x488000)] [.fwd, .mac, .hp] [151, 154, 163, 167] u t ∧
          if u.bistPart = some 10 ∧ e.built = none ∧ slv ≠ 0 then
            t.fwd.waits = u.fwd.waits ++ [.start e] ∧ t.fwd.txs = u.fwd.txs ∧ unmarked t.fwd.queue = unmarked u.fwd.queue ∧ t.mac = u.mac ∧
              (u.whiskTest = none → Counts F.BIST_HOLD u t)
          else
          (c < 512 →
            let fresh := e.built == none
            if fresh = true ∧ u.ctxValid c = false then Counts F.FWD_NOCTX u t ∧ gone
            else if fresh = true ∧ u.ctxLe c 16 4 = 2 ^ 32 - 1 then Counts F.FWD_CTREXH u t ∧ gone ∧ t.ctxLe c 16 4 = u.ctxLe c 16 4
            else if fresh = true ∧ slv ≠ 0 ∧ key = none then Counts F.FWD_TXREFDROP u t ∧ Counts F.CIPH_KEYERR u t ∧ gone
            else
              let hdr := mkHdr (mkFc slv u.ownSrc (u.ctxDst c) (b2n (u.ctxFlag c 5)) f.loc.isSome (decide (1 < u.ctxLe c 58 2))
                (u.egressAr c) f.typ) (u.ctxLe c 16 4) (u.ctxDst c) u.ownSrc f.loc
              let body := (u.frameBytes f).drop f.hlen
              let now : Built := {
                bytes := if slv = 0 then hdr ++ body else u.sealFrame (key.getD 0) slv (u.ctxLe c 16 4) hdr body
                fcnt := u.ctxLe c 16 4, slv := slv, ar := u.egressAr c
                }
              let built := e.built.getD now
              let lane := (u.entReq e c).lane u
              gone ∧ t.ctxLe c 16 4 = (if fresh then u.ctxLe c 16 4 + 1 else u.ctxLe c 16 4) ∧
              (fresh = true → u.ctxLe c 16 4 + 1 = u.rd F.FWD_CTRWARN_LEVEL → Fires 163 u t) ∧
              t.fwd.credit.getD (8 * p + q) 0 =
                (if bitOf (u.tabAct 7 (8 * p + q)) 61 then u.fwd.credit.getD (8 * p + q) 0 - (e.len : Int) else u.fwd.credit.getD (8 * p + q) 0) ∧
              (p = 1 ∨ p = 2 → t.fwd.txs = u.fwd.txs ++ [{ e with data := built.bytes }]) ∧
              (p = 3 → t.hp = { u.hp with rx := u.hp.rx ++ [{ cls := q, data := built.bytes }] } ∧
                t.ctxLe c 54 2 = min (u.ctxLe c 54 2 + 1) 65535) ∧
              (p = 0 →
                if built.ar = true ∧ lane = none then
                  t.rd F.MAC_TXSTAT_RESULT = 7 ∧ t.rd F.MAC_TXSTAT_ATTEMPTS = built.attempts % 2 ^ F.MAC_TXSTAT_ATTEMPTS.w ∧
                    Counts F.FWD_TXREFDROP u t ∧ t.mac = u.mac
                else t.rd F.MAC_STAT_TXACT = 1 ∧ t.fwd.txs = u.fwd.txs ++ [{ e with data := built.bytes }] ∧
                  t.mac.tx.map (fun x => (x.built, x.phase, x.lane, x.late)) = some (built, .assess, lane, none))))

/-- The engine's registers for software (R267, R270, R276, R279, R285, R291 to R293): context commands, table entries, the frames that
LOCAL presents, and allocation, submission and return of a frame.

The engine's corners are notes/assumptions/27.md; a read at an index that a table does not have notes/assumptions/28.md; units of FWD_ALLOC
notes/assumptions/62.md. -/
def Obligations.ForwardAccess : Prop :=
  ∀ (acc : Fin 18) (w : Width) (c n : BitVec 9) (v : BitVec 64) (len : BitVec 11) (sub : BitVec 48) (s : State),
    let u := settle s
    let used := c.toNat < u.nctx
    let a := 0x480000 + 64 * c.toNat
    let errs := fun t : State => t.rd F.FWD_CTXCMD_ERR = 1 ∧ Frame [F.FWD_CTXCMD_ERR, F.FWD_CTXCMD_CTX] [] [] u t
    let written := fun i => if bitOf (u.rd F.FWD_CTXMASK_MASK) (i / 4) && i != 58 && i != 59 then u.rd (F.FWD_CTXBUF_BYTE i)
      else (u.byte (a + i)).toNat
    let num := fun lo k => leNat ((List.range k).map fun i => BitVec.ofNat 8 (written (lo + i)))
    let clash := bitOf (written 10) 0 && (List.range u.nctx).any fun d => d != c.toNat && u.ctxFlag d 0 &&
      ((num 0 8 != 0 && u.ctxLe d 0 8 == num 0 8) || (decide (num 8 2 < 0xFFFE) && u.ctxLe d 8 2 == num 8 2))
    let tbl := u.rd F.FWD_TADDR_TBL
    let ix := u.rd F.FWD_TADDR_INDEX
    let size := if tbl = 0 then 256 else if tbl ≤ 5 then 128 else if tbl ≤ 8 then 40 else 0
    let run := u.fwd.gates.getD (tbl - 1) {}
    let inUse := 1 ≤ tbl ∧ tbl ≤ 5 ∧ ((run.en = true ∧ run.bank = ix / 64) ∨ u.rd (F.FWD_GCTL_BANK (tbl - 1)) = ix / 64)
    let kept := if tbl = 0 then 0xFFF001FFFFFFFFFF else if tbl ≤ 5 then 0xFF000000FFFFFFFF
      else if tbl = 6 then 0xFFFFFFFFFFFFFFFF else 0xE000FFFFFFFFFFFF
    let bytes := widthBytes w
    let may := unitOk acc 0x50D020 bytes && u.accSecure acc && (acc.val != 16 || u.hostAllow 0x50D020 false)
    let waits := fun (x : FwdWait) (t : State) =>
      t.fwd = { u.fwd with waits := u.fwd.waits ++ [x] } ∧ Counts F.BIST_HOLD u t ∧ Frame [F.BIST_HOLD] [.fwd] [] u t
    let owned := fun k => (u.fwd.frames.find? fun f => f.num == k).filter fun f => f.uses == 0 && f.port == 4
    let badSub := fun t : State => t.rd F.FWD_LERR_BADSUB = 1 ∧ Frame [F.FWD_LERR_BADSUB] [] [] u t
    u.coreUp = true →
    Completes (.fwdCtxRead c) s (fun t => t.rd F.FWD_CTXCMD_CTX = c.toNat ∧
      if used then (∀ i, i < 64 → t.rd (F.FWD_CTXBUF_BYTE i) = (u.byte (a + i)).toNat) ∧
        Frame (F.FWD_CTXCMD_CTX :: (List.range 64).map F.FWD_CTXBUF_BYTE) [] [] u t
      else errs t) ∧
    Completes (.fwdCtxWrite c) s (fun t => t.rd F.FWD_CTXCMD_CTX = c.toNat ∧
      if used ∧ clash = false then (∀ i, i < 64 → t.byte (a + i) = BitVec.ofNat 8 (written i)) ∧
        Within [] [F.FWD_CTXCMD_CTX] [(a, a + 64)] [] [] u t
      else errs t) ∧
    Completes (.fwdCtxClear c) s (fun t => t.rd F.FWD_CTXCMD_CTX = c.toNat ∧
      if used then (∀ i, i < 64 → t.byte (a + i) = 0) ∧ Within [] [F.FWD_CTXCMD_CTX] [(a, a + 64)] [] [] u t
      else errs t) ∧
    Completes (.fwdTdataRead acc w) s (fun t =>
      (unitOk acc 0x50D020 bytes = false → Frame [] [] [] u t) ∧
      (may = true →
        let entry := if tbl = 8 then u.qdepth (ix / 8) (ix % 8) % 256 * 2 ^ 56 + ofInt (u.fwd.credit.getD ix 0) 24 * 2 ^ 32 +
            u.fwd.ctok.getD ix 0 % 65536 * 2 ^ 16 + u.fwd.ptok.getD ix 0 % 65536
          else if 6 ≤ tbl ∧ u.on F.FWD_TADDR_ACT = true then u.tabAct tbl ix else u.tab tbl ix
        Frame [] [.latches, .busData, .freeSeq] [] u t ∧
        (ix < size → t.busData = entry % 2 ^ (8 * bytes) ∧
          (bytes < 8 → t.latchOf 0x50D acc = some ⟨0x50D, acc, 0x50D020, entry⟩)))) ∧
    Completes (.fwdTdataWrite v) s (fun t =>
      let refused := fun r => t.rd F.FWD_TERR_TERR = 1 ∧ t.rd F.FWD_TERR_REASON = r ∧ Frame [F.FWD_TERR_TERR, F.FWD_TERR_REASON] [] [] u t
      if size ≤ ix then refused 1
      else if tbl = 8 ∨ u.on F.FWD_TADDR_ACT = true then refused 2
      else if inUse then refused 3
      else t.tab tbl ix = (v.toNat &&& kept) ∧ t.rd F.FWD_TADDR_INDEX = (ix + 1) % 256 ∧
        (∀ k, k < 9 → ∀ i, i < 256 → k ≠ tbl ∨ i ≠ ix → t.tab k i = u.tab k i) ∧ (∀ k, k < 9 → ∀ i, i < 256 → t.tabAct k i = u.tabAct k i) ∧
        { t.fwd with tabs := [] } = { u.fwd with tabs := [] } ∧ Frame [F.FWD_TADDR_INDEX] [.fwd] [] u t) ∧
    Completes .fwdLrxpop s (fun t =>
      let may := fun q => u.gateOpen 4 q && (!bitOf (u.tabAct 7 (32 + q)) 61 || decide (0 < u.fwd.credit.getD (32 + q) 0))
      let head := fun q => (u.fwd.queue.find? fun e => e.port == 4 && e.cls == q).filter fun e => u.lidFits 4 q (u.lidPs e)
      match ([7, 6, 5, 4, 3, 2, 1, 0].filterMap fun q => if may q then head q else none).head? with
      | none => t.rd F.FWD_LERR_BADFR = 1 ∧ Frame [F.FWD_LERR_BADFR] [] [] u t
      | some e =>
        e ∉ t.fwd.queue ∧ t.fwd.queue.filter (fun d => d.num != e.num) = u.fwd.queue.filter (fun d => d.num != e.num) ∧
        (∀ f, u.frame e.num = some f → f.uses ≤ 1 → t.frame e.num = none) ∧
        (∀ f, u.frame e.num = some f → 1 < f.uses → t.frame e.num = some { f with uses := f.uses - 1 }) ∧
        t.fwd.credit.getD (32 + e.cls) 0 =
          (if bitOf (u.tabAct 7 (32 + e.cls)) 61 then u.fwd.credit.getD (32 + e.cls) 0 - (e.len : Int) else u.fwd.credit.getD (32 + e.cls) 0) ∧
        ((t.fwd.queue ++ t.fwd.txs).any (fun d => d.port == 4) = false → Fires 167 u t ∧ t.rd (F.FWD_GSTAT_DRAINF 4) = 1) ∧
        Within [] [F.FWD_GSTAT_DRAINF 4] [(0x480000, 0x488000)] [.fwd] [167] u t) ∧
    Completes (.fwdAlloc len) s (fun t =>
      let k := max 1 ((len.toNat + 255) / 256)
      if u.bistPart = some 11 then waits (.alloc len.toNat) t
      else if len = 0 ∨ 1536 < len.toNat ∨ u.freeCells.length < k ∨ u.freeNums = [] then
        t.rd F.FWD_ALLOCRES_OK = 0 ∧ t.rd F.FWD_ALLOCRES_FAIL = 1 ∧ t.rd F.FWD_ALLOCRES_FRAME = 0 ∧ t.rd F.FWD_ALLOCRES_CELLS = 0 ∧
        Frame [F.FWD_ALLOCRES_OK, F.FWD_ALLOCRES_FAIL, F.FWD_ALLOCRES_FRAME, F.FWD_ALLOCRES_CELLS] [] [] u t
      else
        let f := t.fwd.frames.getLastD { num := 0, cells := [], len := 0 }
        t.fwd = { u.fwd with frames := u.fwd.frames ++ [f] } ∧
        f = { num := f.num, cells := f.cells, len := len.toNat, port := 4, born := u.now } ∧
        f.num ∈ u.freeNums ∧ f.cells.length = k ∧ f.cells.Nodup ∧ (∀ x, x ∈ f.cells → x ∈ u.freeCells) ∧
        t.rd F.FWD_ALLOCRES_OK = 1 ∧ t.rd F.FWD_ALLOCRES_FAIL = 0 ∧ t.rd F.FWD_ALLOCRES_FRAME = f.num ∧
        (∀ i, i < 6 → t.rd F.FWD_ALLOCRES_CELLS / 2 ^ (9 * i) % 512 = f.cells.getD i 0) ∧
        Frame [F.FWD_ALLOCRES_OK, F.FWD_ALLOCRES_FAIL, F.FWD_ALLOCRES_FRAME, F.FWD_ALLOCRES_CELLS] [.fwd, .freeSeq]
          (if u.rd F.FWD_LOWCELL_THR ≤ u.freeCells.length ∧ u.freeCells.length - k < u.rd F.FWD_LOWCELL_THR then [159] else []) u t) ∧
    Completes (.fwdFree (n.truncate 8)) s (fun t =>
      match owned (n.toNat % 256) with
      | none => t.rd F.FWD_LERR_BADSUB = 1 ∧ Frame [F.FWD_LERR_BADSUB] [] [] u t
      | some _ => t.fwd = { u.fwd with frames := u.fwd.frames.filter fun f => f.num != n.toNat % 256 } ∧ Frame [] [.fwd] [] u t) ∧
    Completes (.fwdSubmit sub) s (fun t =>
      let x := sub.toNat
      let size := x / 2 ^ 8 % 2 ^ 11
      let cx := x / 2 ^ 19 % 2 ^ 9
      let mode := bitOf x 28
      let loc := if mode || bitOf x 32 then some (u.rd F.FWD_SUBLOC_CODE, x / 2 ^ 33 % 8) else none
      (u.bistPart = some 11 → waits (.submit x (u.rd F.FWD_SUBLOC_CODE)) t) ∧
      (u.bistPart ≠ some 11 → owned (x % 256) = none → badSub t) ∧
      ∀ f, u.bistPart ≠ some 11 → owned (x % 256) = some f →
        if f.len < size ∨ (mode = false ∧ (u.nctx ≤ cx ∨ u.ctxFlag cx 0 = false)) then badSub t
        else if u.on F.FWD_CTL_EN = false then Counts (F.FB_DROP 4) u t ∧ Fires 154 u t ∧ t.frame f.num = none
        else
          let g := { f with len := size, typ := (if bitOf x 38 then 3 else 0), born := u.now, loc := loc }
          let colour := x / 2 ^ 36 % 4
          Within [0x50D] [] [(0x480000, 0x488000)] [.fwd] [152, 153, 154, 156, 160, 165] u t ∧
          if mode = false then FrameOut g cx (x / 2 ^ 29 % 8) colour u t ∧ (t.fwd.queue.length = u.fwd.queue.length → t.fwd.held = u.fwd.held → t.frame f.num = none)
          else
            (u.route (u.rd F.FWD_SUBLOC_CODE) (x / 2 ^ 33 % 8) = none → Counts F.FWD_NOROUTE u t ∧ Fires 160 u t ∧ t.frame f.num = none) ∧
            ∀ i, u.route (u.rd F.FWD_SUBLOC_CODE) (x / 2 ^ 33 % 8) = some i →
              let r := u.tab 0 i
              let act := r / 2 ^ 58 % 4
              let q := r / 2 ^ 54 % 8
              let entry : QEnt := { num := f.num, port := 4, cls := q, ctx := none, len := size, copy := bitOf r 57 }
              (bitOf r 57 = true ∨ act = 1 → Fires 152 u t ∧ entry ∈ t.fwd.queue) ∧
              (2 ≤ act → Counts F.FWD_ROUTEDROP u t ∧ (bitOf r 57 = false → t.frame f.num = none)) ∧
              (act = 0 → bitOf r 57 = false → FrameOut g (r / 2 ^ 32 % 2 ^ 9) q colour u t))

/-! ### The cipher engine and the Larder (R303 to R318) -/

/-- A CX to C2 (R97, R115, R303, R305 to R309): turned away with T = 0 and no other effect while a command runs; else accepted with T = 1;
it waits where an inline frame holds the engine, and else the first check of R307 that fails ends it at once, with ERR and its code and
nothing else changed.

Which functions check for an empty slot is notes/assumptions/34.md; which frames hold the engine and from when notes/assumptions/93.md. -/
def Obligations.CipherCommands : Prop :=
  ∀ (b : Fin 16) (opd : BitVec 10) (s : State),
    let u := settle s
    let v := u.fetched b
    let x := v.c2Set b
    let o := opd.toNat
    let secure := v.brnSecure b
    let attr := fun k => v.rd (F.LAR_ATTR_ATTR k)
    let void := fun k => !v.on (F.LAR_ATTR_VALID k)
    let grants := fun k use => v.on (F.LAR_ATTR_VALID k) && (attr k % 4 == 1 || attr k % 4 == 2) && (attr k &&& use) == use
    let start := fun fn : Nat =>
      let n := o % 512
      let data := decide (fn ≤ 5)
      let turns := decide (11 ≤ fn)
      let slot := if bitOf (v.ctxLe n 10 1) (3 + (fn - 11)) then some (v.ctxLe n (12 + (fn - 11)) 1 % 128) else none
      let use := if fn = 0 then (if x.dir = 0 then 4 else 8) else if fn = 1 then 0x14 else if fn = 2 then 0x18 else 0x10
      let fails : List (Nat × Bool) := [
        (1, !v.on F.CIPH_CTL_EN || v.on F.CIPH_STAT_RET),
        (2, decide (6 ≤ fn ∧ fn ≤ 8) && v.on F.LAR_STAT_ALARM),
        (3, !secure && ((!turns && bitOf (attr n) 6) || (fn == 6 && decide (x.kek < 128) && bitOf (attr x.kek) 6) ||
          (turns && v.on F.BRN_SECMEM_CTX) || (fn == 7 && bitOf x.attr 6))),
        (4, ((data || fn == 8 || fn == 10) && void n) || (fn == 6 && decide (x.kek < 128) && void x.kek) ||
          ((fn == 11 || fn == 12) && slot.all void)),
        (5, (data && !grants n use) || (fn == 7 && x.attr % 4 == 3) || (fn == 6 && decide (x.kek < 128) && !grants x.kek 0x20)),
        (6, (fn == 6 || fn == 7) && !void n),
        (7, !v.c2Range b x.src (x.inLen fn) || !v.c2Range b x.dst (x.outLen fn)),
        (8, (decide (fn ≤ 6) && decide (32768 < x.len)) ||
          ((fn == 1 || fn == 2) && (decide (1024 < x.alen) || !(x.mlen == 4 || x.mlen == 8 || x.mlen == 16))) ||
          ((fn == 3 || fn == 4) && (x.mlen == 0 || decide (16 < x.mlen))) || (fn == 5 && x.len % 16 != 0) ||
          (fn == 6 && decide (0x80 < x.kek)) || (turns && decide (v.nctx ≤ n))),
        (10, (fn == 7 && !(x.attr % 4 == 1 || x.attr % 4 == 2)) || (fn == 6 && (x.len % 8 != 0 || decide (x.len < 24))) ||
          (fn == 10 && !((x.attr ^^^ attr n) % 4 == 0 && (x.attr &&& 0x3C) &&& attr n == x.attr &&& 0x3C &&
            (attr n &&& 0xC0) &&& x.attr == attr n &&& 0xC0))),
        (11, (fn == 8 || (fn == 9 && v.on (F.LAR_ATTR_PERS n))) && v.on F.PWR_STAT_NVILOW)]
      let code := ((fails.find? (·.2)).map (·.1)).getD 0
      IfPresent b 2 (cxWord 2 fn o) (decide (11 ≤ fn) || decide (o < 128)) v fun t =>
        let taken := v.ciph.op.isNone
        let waits := v.inlineHeld
        let ends := taken && !waits && code != 0
        t.flags b = { v.flags b with t := taken } ∧ AdverbHeld 2 v t ∧
        (taken = false → t.ciph = v.ciph ∧ WordEnds b [F.BRN_FLAGS_TVCNZ b] [] [] (v.pc b + 1) (v.bx b) v t) ∧
        (taken = true →
          t.rd F.CIPH_STAT_BURNER = b ∧ t.on F.CIPH_STAT_BUSY = !ends ∧
          t.ciph.op = (if ends then none else some ⟨b, fn, o, !waits⟩) ∧
          t.c2Set b = { x with busy := !ends, err := ends, abort := false, tagok := false, code := if ends then code else 0 } ∧
          (∀ c, c < 16 → c ≠ b.val → t.c2Set c = v.c2Set c) ∧ t.ciph.keys = v.ciph.keys ∧ t.records = v.records ∧ t.ciph.latch = v.ciph.latch ∧
          WordEnds b ([F.BRN_FLAGS_TVCNZ b, F.CIPH_STAT_BURNER, F.CIPH_STAT_BUSY, F.FL_STAT_LARPEND] ++
              (if waits then [F.CIPH_SW_WAIT] else []) ++ (if ends && fn == 6 then [F.LAR_IMPFAIL] else []) ++
              (if ends && code == 11 then [F.FL_NVI_REFUSED] else []))
            [.ciph] (if ends then (if fn = 6 then [173] else []) ++ (if code = 11 then [183] else []) ++ [168, 169] else []) (v.pc b + 1)
            (if ends then { v.bx b with c2bad := true } else v.bx b) v t ∧
          (waits = true → Counts F.CIPH_SW_WAIT v t) ∧
          (ends = true → fn = 6 → Counts F.LAR_IMPFAIL v t) ∧ (ends = true → code = 11 → Counts F.FL_NVI_REFUSED v t))
    u.ready b = true →
    Completes (.ciphCtr b opd) s (start 0) ∧ Completes (.ciphCcmenc b opd) s (start 1) ∧ Completes (.ciphCcmdec b opd) s (start 2) ∧
    Completes (.ciphCmacgen b opd) s (start 3) ∧ Completes (.ciphCmacver b opd) s (start 4) ∧ Completes (.ciphCbcmac b opd) s (start 5) ∧
    Completes (.ciphImport b opd) s (start 6) ∧ Completes (.ciphGen b opd) s (start 7) ∧ Completes (.ciphPersist b opd) s (start 8) ∧
    Completes (.ciphErase b opd) s (start 9) ∧ Completes (.ciphNarrow b opd) s (start 10) ∧ Completes (.ciphSetk0 b opd) s (start 11) ∧
    Completes (.ciphSetk1 b opd) s (start 12) ∧ Completes (.ciphRetire b opd) s (start 13)

/-- How C2 commands end, and the Larder's alarm (R303, R305 to R308, R312 to R318): not while an inline frame holds the engine or the command
still waits for one; the result of each function, or the code that it ends with; what an alarm destroys; the end of the records' erasure.

When an operation reads its data is notes/assumptions/34.md; what a tombstone holds notes/assumptions/35.md; which events the aborts fire and which
frames an alarm reaches notes/assumptions/36.md and notes/assumptions/93.md; the pulses of the Larder's erases, and the failures of its erases and
programs, notes/assumptions/31.md; what it leaves undone with the ECC partition retired notes/assumptions/101.md. -/
def Obligations.LarderCommands : Prop :=
  ∀ (cause : Fin 7) (s : State),
    let u := settle s
    let valid := fun (t : State) k => t.on (F.LAR_ATTR_VALID k)
    let slotIs := fun (t : State) k (key attr : Nat) => valid t k = true ∧ t.rd (F.LAR_ATTR_ATTR k) = attr % 256 ∧ t.ciph.keys.getD k 0 = key
    let empty := fun (t : State) k => valid t k = false ∧ t.rd (F.LAR_ATTR_ATTR k) = 0 ∧ t.ciph.keys.getD k 0 = 0
    let sameSlots := fun (t : State) (but : Option Nat) => ∀ k, k < 128 → but ≠ some k → valid t k = valid u k ∧
      t.rd (F.LAR_ATTR_ATTR k) = u.rd (F.LAR_ATTR_ATTR k) ∧ t.ciph.keys.getD k 0 = u.ciph.keys.getD k 0
    (u.coreUp = true → u.ciph.op = none → Completes .ciphDone s (Frame [] [] [] u)) ∧
    (u.coreUp = true → ∀ o, u.ciph.op = some o →
      let b := o.burner
      let fn := o.fn
      let x := u.c2Set b
      let k := o.opd % 128
      let c := o.opd % 512
      let writes := fn == 8 || (fn == 9 && u.on (F.LAR_ATTR_PERS k))
      let key := u.slotKey k
      let ins := if fn = 1 ∨ fn = 2 then x.alen + x.len else x.len
      let src := (u.cellBytes x.src ins).map BitVec.toNat
      let ad := src.take x.alen
      let msg := src.drop x.alen
      let plain := ccmCrypt key (x.nonce.take 13) msg
      let tag := if fn = 1 then ccmTag key (x.nonce.take 13) ad msg x.mlen
        else if fn = 3 then (cmac key src).take x.mlen else cbcMac key src
      let good := if fn = 2 then ccmTag key (x.nonce.take 13) ad plain x.mlen == x.tag.take x.mlen
        else (cmac key src).take x.mlen == x.tag.take x.mlen
      let wrapped := keyUnwrap (u.kekKey x.kek) src
      let block := wrapped.bind readBlock
      let code := if (fn = 2 ∨ fn = 4) ∧ good = false then 12
        else if fn = 6 then (if wrapped = none then 9 else if u.brnSecure b = false ∧ bitOf ((wrapped.getD []).headD 0) 6 then 3
          else if block = none then 10 else 0)
        else 0
      let out := fun (t : State) (l : List Nat) => t.bytes x.dst x.len = l.map (BitVec.ofNat 8)
      let csynced := fun (code : Nat) (t : State) => (u.bx b).csync = some 2 → u.on (F.BRN_STAT_PARKREQ b) = false →
        t.pc b = (u.pc b + 1) % 2 ^ 16 ∧ (t.flags b).t = (code == 0) ∧ (t.bx b).csync = none
      let stands := fun (P : List Byte → Prop) (t : State) => (∃ r, t.curRecs.getLast? = some r ∧ P r) ∨ t.recPlace = 256 ∨
        ∃ i, i < 8 ∧ (u.unit (192 + 8 * t.ciph.half + i)).ret = false ∧ (t.unit (192 + 8 * t.ciph.half + i)).ret = true
      let ecc := !u.on F.FL_STAT_RET
      let stored := x.len = 0 ∨ (0x400000 ≤ x.dst ∧ x.dst + x.len ≤ 0x480000)
      let txk := u.ctxFlag c 5
      let old := if bitOf (u.ctxLe c 10 1) (4 - b2n txk) then some (u.ctxLe c (13 - b2n txk) 1 % 128) else none
      b < 16 → fn < 14 → x.par.length = 48 → x.mlen ≤ 16 →
      Completes .ciphDone s fun t =>
        if u.inlineHeld ∨ o.checked = false then Frame [] [] [] u t
        else if (u.on F.FL_STAT_BUSY || u.flRuns) ∧ writes then Frame [] [] [] u t
        else
          t.ciph.op = none ∧ t.on F.CIPH_STAT_BUSY = false ∧ Fires 168 u t ∧ (code ≠ 0 → Fires 169 u t) ∧ (fn = 6 → Fires 173 u t) ∧
          (t.bx b).c2bad = (code != 0) ∧
          { t.c2Set b with par := [] } =
            { x with busy := false, err := code != 0, abort := false, code := code, tagok := x.tagok || ((fn == 2 || fn == 4) && good), par := [] } ∧
          (code = 12 → Counts F.CIPH_TAGFAILS u t ∧ Fires 170 u t) ∧ (fn = 6 → code ≠ 0 → Counts F.LAR_IMPFAIL u t) ∧
          (fn = 1 ∨ fn = 3 ∨ fn = 5 → (t.c2Set b).tag.take tag.length = tag ∧ (t.c2Set b).par.take 32 = x.par.take 32) ∧
          (fn ≠ 1 → fn ≠ 3 → fn ≠ 5 → (t.c2Set b).par = x.par) ∧
          (fn = 0 → stored → out t (aesCtr key x.nonce src)) ∧ (fn = 1 → stored → out t (ccmCrypt key (x.nonce.take 13) msg)) ∧
          (fn = 2 → stored → out t (if good then plain else List.replicate x.len 0)) ∧
          (fn ≤ 5 ∨ 8 ≤ fn ∧ fn ≤ 8 ∨ fn = 11 ∨ fn = 12 ∨ code ≠ 0 → sameSlots t none) ∧
          (fn = 6 → code = 0 → ∀ a, block = some a → slotIs t k a.2 a.1 ∧ sameSlots t (some k)) ∧
          (fn = 7 → valid t k = true ∧ t.rd (F.LAR_ATTR_ATTR k) = x.attr % 256 ∧
            t.ciph.keys.getD k 0 < 2 ^ (if x.attr % 4 = 1 then 128 else 256) ∧ sameSlots t (some k)) ∧
          (fn = 8 → t.on (F.LAR_ATTR_PERS k) = (ecc || u.on (F.LAR_ATTR_PERS k)) ∧
            if ecc then stands (fun r => recOk r = true ∧ leNat (r.take 1) = k ∧ leNat ((r.drop 1).take 1) = u.slotAttr k % 256) t
            else t.records = u.records ∧ t.ciph.latch = u.ciph.latch) ∧
          (fn = 9 → empty t k ∧ t.on (F.LAR_ATTR_PERS k) = (!ecc && u.on (F.LAR_ATTR_PERS k)) ∧ sameSlots t (some k) ∧
            if ecc && u.on (F.LAR_ATTR_PERS k) then stands (fun r => recTomb r = true ∧ leNat (r.take 1) = k) t
            else t.records = u.records) ∧
          (fn = 10 → t.rd (F.LAR_ATTR_ATTR k) = x.attr % 256 ∧ valid t k = valid u k ∧ t.ciph.keys = u.ciph.keys ∧
            ∀ j, j < 128 → j ≠ k → t.rd (F.LAR_ATTR_ATTR j) = u.rd (F.LAR_ATTR_ATTR j)) ∧
          (fn = 11 ∨ fn = 12 → t.ctxFlag c 5 = (fn == 12) ∧ (txk ≠ (fn == 12) → Fires 174 u t) ∧ (txk = (fn == 12) → ¬ Fires 174 u t) ∧
            if bitOf o.opd 9 then t.ctxLe c 16 4 = 0 ∧ t.ctxLe c 20 4 = 0 ∧ t.ctxLe c 24 8 = 0 ∧ t.ctxFlag c 1 = false
            else t.ctxLe c 16 4 = u.ctxLe c 16 4 ∧ t.ctxLe c 20 4 = u.ctxLe c 20 4 ∧ t.ctxLe c 24 8 = u.ctxLe c 24 8) ∧
          (fn = 13 → t.ctxFlag c (4 - b2n txk) = false ∧ t.ctxFlag c 5 = txk ∧
            ∀ j, old = some j → if bitOf o.opd 9 then empty t j ∧ sameSlots t (some j) else sameSlots t none) ∧
          csynced code t ∧
          (u.whiskTest = none → t.rd F.BIST_HOLD = min (u.rd F.BIST_HOLD + (if u.segTouched x.src (if fn ≤ 6 then ins else 0) then 1 else 0) +
            if u.segTouched x.dst (if fn ≤ 2 then x.len else 0) then 1 else 0) 65535) ∧
          Within [0x50E, 0x50F] [F.BIST_HOLD, F.BRN_PC_PC b, F.BRN_FLAGS_TVCNZ b, F.BRN_STAT_STATE b, F.BRN_STAT_PARKREQ b, F.BRN_STAT_PARKF b]
            [(x.dst, x.dst + if fn ≤ 2 then x.len else 0), (ctxAddr c 0, ctxAddr c (if 11 ≤ fn then 64 else 0)),
              (0x540000, 0x540000 + if writes then 0x1000 else 0)]
            [.brn, .ciph, .fl, .freeSeq] ((16 + b) :: 177 :: 181 :: 182 :: List.range' 168 7) u t) ∧
    (u.aonUp = true →
      Completes (.larderAlarm cause) s (fun t =>
        if bitOf (u.rd F.LAR_ALMEN_EN) cause then AlarmRaised cause u t ∧ t.records = u.records else Frame [] [] [] u t) ∧
      Completes .larErased s (fun t =>
        if u.on F.LAR_STAT_ERASING = true ∧ u.on F.PWR_STAT_NVILOW = false ∧ u.flRuns = false ∧ u.on F.FL_STAT_RET = false then
          t.rd F.LAR_STAT_ERASING = 0 ∧ (∀ k, k < 128 → t.rd (F.LAR_ATTR_PERS k) = 0) ∧ t.ciph.keys = u.ciph.keys ∧
            (∀ h, h < 2 → ∀ i, i < 256 → (t.unit (192 + 8 * h + i / 32)).ret = false →
              (if h = 0 then t.ciph.recA else t.ciph.recB).getD i erasedRec = erasedRec) ∧
            Fires 172 u t ∧ Within [0x50E, 0x50F] [] [(0x540000, 0x541000)] [.ciph, .fl, .freeSeq] [172, 177, 181, 182] u t
        else Frame [] [] [] u t))

/-! ### Flash (R322 to R340) -/

/-- The flash controller (R324 to R329, R331 to R333, R336 to R340): the checks of a command in their order, of which the first that fails
refuses it, and the wait of one that comes during a slice; what an accepted one starts or answers; the states of an erase with its journal
words, and its suspension while a read waits; retirement. The order of the conditions, the journal's corners and the open waits of a read
are the model's (notes/assumptions/30.md, notes/assumptions/79.md, notes/assumptions/84.md). -/
def Obligations.FlashController : Prop :=
  ∀ (acc : Fin 18) (ok : Bool) (s : State),
    let u := settle s
    let a := u.rd F.FL_ADDR_ADDR
    let src := u.rd F.FL_SRC_ADDR
    let n := if a < 0x400000 then a / 0x10000 else 64 + (a - 0x540000) / 0x800
    let x := u.unit n
    let st := u.rd F.FL_STAT_STATE
    let nvi := u.on F.PWR_STAT_NVILOW
    let pages := (List.range 128).filter fun i => !u.pageErased (a / 0x10000 * 0x10000 + 512 * i)
    let next := (pages.getLast?.map (· + 1)).getD 0
    let page := decide (a < 0x400000) && a % 512 == 0
    let block := decide (a < 0x400000) && a % 0x10000 == 0
    let sector := decide (0x540000 ≤ a) && decide (a < 0x580000) && a % 0x800 == 0
    let word := decide (0x540000 ≤ a) && decide (a < 0x580000) && a % 8 == 0
    let region := fun size => (List.range 8).any fun k =>
      let lo := u.rd (F.FL_XO_BASE k) * 0x1000
      u.on (F.FL_XO_EN k) && u.on (F.FL_XO_WP k) && u.rd (F.FL_XO_SIZE k) != 0 && decide (lo < a + size) &&
        decide (a < lo + u.rd (F.FL_XO_SIZE k) * 0x1000)
    let ram := fun b => decide (0x400000 ≤ b) && decide (b < 0x480000) && !bitOf (u.rd F.BIST_MEMRET_BANK) ((b - 0x400000) / 0x8000)
    let fine := n - 64
    let prot := fun op => if a < 0x400000 then bitOf (u.rd F.FL_WPMAIN_WP) n || region (if op = 1 then 512 else 0x10000)
      else decide (fine ≤ 1) || (decide (4 ≤ fine) && decide (fine ≤ 7) && u.fuse.callock) ||
        (if fine < 64 then bitOf (u.rd F.FL_WPFINE0_WP) fine else bitOf (u.rd F.FL_WPFINE1_WP) (fine - 64))
    let code := fun op : Nat =>
      let target := [page, block, word, sector, page, block, block || sector].getD (op - 1) false
      let writes := decide (op ≤ 4)
      let changes := writes || op == 7
      let fails : List (Nat × Bool) := [
        (1, u.on F.FL_STAT_BUSY || u.on F.FL_STAT_LARPEND || u.on F.UPD_STAT_INSTALLING || u.upd.clearing || u.flRuns),
        (2, !target || (op == 1 && !(ram src && ram (src + 511)))),
        (3, u.closedTo acc a || (op == 1 && (u.closedTo acc src || u.closedTo acc (src + 511)))),
        (4, changes && prot op), (5, writes && x.ret), (6, (op == 1 || op == 3) && x.half),
        (7, op == 1 && a % 0x10000 / 512 != next), (8, op == 3 && u.leAt a 8 != 2 ^ 64 - 1), (9, changes && nvi),
        (10, (writes || op == 7) && u.on F.FL_STAT_RET)]
      ((fails.find? (·.2)).map (·.1)).getD 0
    let ends := fun (c : Nat) (t : State) => t.fl.op = none ∧ t.rd F.FL_STAT_STATE = 0 ∧ t.rd F.FL_STAT_BUSY = 0 ∧ t.rd F.FL_RESULT_CODE = c % 16 ∧
      Fires 176 u t
    let endFlds := [F.FL_STAT_STATE, F.FL_STAT_BUSY, F.FL_RESULT_CODE]
    let command := fun (op : Nat) (done : State → Prop) (t : State) =>
      if u.bistPart = some 15 then
        t.fl = { u.fl with cmds := u.fl.cmds ++ [⟨some acc, op, a, src, u.rd (F.FL_META_META 0), u.rd (F.FL_META_META 1), u.rd F.FL_WDATA_DATA⟩] } ∧
          Counts F.BIST_HOLD u t ∧ Frame [F.BIST_HOLD] [.fl] [] u t
      else if code op ≠ 0 then
        let ctr := if code op = 9 then F.FL_NVI_REFUSED else F.FL_REFUSED
        t.rd F.FL_RESULT_CODE = code op ∧ Counts ctr u t ∧
          Frame [F.FL_RESULT_CODE, ctr] [] (if code op = 9 then [183, 176] else [176]) u t
      else done t
    let tested := fun st' : Nat => st' == 5 && page && u.segTouched src 512
    let begins := fun (op : FlOp) (st' : Nat) (stamp : FlStamp) (t : State) =>
      t.fl = { u.fl with op := some op, stamp := stamp, pulses := 0, works := u.fl.works + 1 } ∧ t.rd F.FL_STAT_STATE = st' ∧ t.rd F.FL_STAT_BUSY = 1 ∧
        Frame ([F.FL_STAT_STATE, F.FL_STAT_BUSY] ++ if tested st' then [F.BIST_HOLD] else []) [.fl] [] u t ∧ (tested st' = true → Counts F.BIST_HOLD u t)
    let journal := if u.fl.jcur.isNone ∨ 256 - u.fl.jused < 4 then 1 else 2
    let appends := fun (w : Nat) (t : State) =>
      (∀ j, u.fl.jcur = some j → j ≤ 1 → u.fl.jused < 256 → t.jWord j u.fl.jused = w ∧ t.fl.jused = u.fl.jused + 1) ∧ t.fl.jcur = u.fl.jcur
    let unitIs := fun (k : Nat) (y : FlUnit) (t : State) => t.unit k = y ∧ (∀ i, i < 208 → i ≠ k → t.unit i = u.unit i) ∧
      (k < 64 → bitOf (t.rd F.FL_RETMAIN_UNIT) k = y.ret ∧ bitOf (t.rd F.FL_HALFMAIN_UNIT) k = y.half)
    let shown := [F.FL_RETMAIN_UNIT, F.FL_HALFMAIN_UNIT]
    let stays := fun t => Frame [] [] [] u t
    let jr := match u.fl.jcur with | some j => [(0x540000 + j * 0x800 + 8 * u.fl.jused, 0x540000 + j * 0x800 + 8 * u.fl.jused + 8)] | none => []
    let retires := fun (k cause c : Nat) (t : State) =>
      let full := decide (u.fl.jcur.isNone ∨ 256 ≤ u.fl.jused)
      let j := if u.fl.jcur = some 0 then 1 else 0
      let was := fun i => if full ∧ i = 64 + j then { u.unit i with count := (u.unit i).count + 1 } else u.unit i
      let y := was k
      let w := 3 * 2 ^ 60 + k * 2 ^ 52 + cause % 4 * 2 ^ 24 + y.count % 2 ^ 24
      let used := 105 + ((List.range 208).filter fun i => (was i).half).length
      ends c t ∧ (full = false → appends w t) ∧ (full = true → t.fl.jcur = some j ∧ (used < 256 → t.jWord j used = w)) ∧
        t.unit k = { y with ret := true, half := false } ∧ (∀ i, i < 208 → i ≠ k → t.unit i = was i) ∧
        (k < 64 → bitOf (t.rd F.FL_RETMAIN_UNIT) k = true ∧ bitOf (t.rd F.FL_HALFMAIN_UNIT) k = false) ∧
        Counts F.FL_RETIRES u t ∧
        Within [] (F.FL_RETIRES :: endFlds ++ shown) (if full then [(0x540000 + j * 0x800, 0x540800 + j * 0x800)] else jr) [.fl] (if cause = 2 then [176, 182] else [176, 177, 182]) u t ∧
        Fires 182 u t ∧ (cause ≠ 2 → Fires 177 u t)
    u.coreUp = true →
    Completes (.flProg acc) s (command 1 (begins (.page a (u.ramBytes src 512) (u.rd (F.FL_META_META 0)) (u.rd (F.FL_META_META 1))) 5 .start)) ∧
    Completes (.flErase acc) s (command 2 (begins (.erase n) journal .start)) ∧
    Completes (.flWprog acc) s (command 3 (begins (.word a (u.rd F.FL_WDATA_DATA)) 5 .start)) ∧
    Completes (.flSerase acc) s (command 4 (begins (.erase n) journal .start)) ∧
    Completes (.flRdmeta acc) s (command 5 fun t =>
      let q := u.cellQual a
      let m := if u.pageErased a then 2 ^ 128 - 1 else (lookup u.fl.metas a).getD (2 ^ 128 - 1)
      let saved := [F.FL_RETRYOK, F.FL_STAT_RETRYF, F.FL_ERRADDR_ADDR]
      let high := [F.FL_ECCHIGHS, F.FL_ERRADDR_ADDR, F.FL_LASTRD_CORR, F.FL_LASTRD_SHIFT]
      let many := decide (min (u.rd F.FL_ECCCFG_THR) 8 < q.corr)
      let reads := fun (ks : List Fld) (ev : List Nat) => Frame ([F.FL_RMETA_META 0, F.FL_RMETA_META 1] ++ endFlds ++
        (if u.arrayBusy a || u.arrayOpen a then [F.FL_BANK_WAIT] else []) ++ ks) [.fl, .freeSeq] (ev ++ [176]) u t
      ends 0 t ∧ t.fl.readAge = 10 ∧ (u.arrayBusy a = true → Counts F.FL_BANK_WAIT u t) ∧
      t.fl.rdWait = (u.fl.rdWait || (u.arrayBusy a && st == 3)) ∧
      if q.unc then Counts F.FL_ECCUNCS u t ∧ t.rd F.FL_ERRADDR_ADDR = a % 2 ^ F.FL_ERRADDR_ADDR.w ∧ reads [F.FL_ECCUNCS, F.FL_ERRADDR_ADDR] [179]
      else t.rd (F.FL_RMETA_META 0) = m % 2 ^ 64 ∧ t.rd (F.FL_RMETA_META 1) = m / 2 ^ 64 % 2 ^ 64 ∧
        (q.shifts ≠ 0 → Counts F.FL_RETRYOK u t ∧ t.rd F.FL_STAT_RETRYF = 1 ∧ t.rd F.FL_ERRADDR_ADDR = a % 2 ^ F.FL_ERRADDR_ADDR.w) ∧
        (many = true → Counts F.FL_ECCHIGHS u t ∧ t.rd F.FL_ERRADDR_ADDR = a % 2 ^ F.FL_ERRADDR_ADDR.w ∧
          t.rd F.FL_LASTRD_CORR = q.corr % 2 ^ F.FL_LASTRD_CORR.w ∧ t.rd F.FL_LASTRD_SHIFT = q.shifts % 2 ^ F.FL_LASTRD_SHIFT.w) ∧
        reads ((if q.shifts = 0 then [] else saved) ++ if many then high else []) (if many then [178] else [])) ∧
    Completes (.flFindnext acc) s (command 6 fun t =>
      t.rd F.FL_NEXT_PAGE = next % 2 ^ F.FL_NEXT_PAGE.w ∧ t.on F.FL_NEXT_FULL = (next == 128) ∧ ends 0 t ∧
        Frame ([F.FL_NEXT_PAGE, F.FL_NEXT_FULL] ++ endFlds) [.fl] [176] u t) ∧
    Completes (.flRetireUnit acc) s (command 7 (begins (.retire n 2 0) 2 (.retire 2))) ∧
    (st ≠ 5 ∨ u.fl.op = none → Completes (.flProgEnd ok) s stays) ∧
    (∀ o, u.fl.op = some o → st = 5 → Completes (.flProgEnd ok) s fun t =>
      let lo := match o with | .page p _ _ _ => p | .word p _ => p | _ => 0
      let size := match o with | .page .. => 512 | .word .. => 8 | _ => 0
      let data := match o with | .page _ d _ _ => d | .word _ w => leBytes 8 w | _ => []
      let k := if lo < 0x400000 then lo / 0x10000 else 64 + (lo - 0x540000) / 0x800
      if size = 0 then stays t
      else
        (match o with | .page p _ m0 m1 => lookup t.fl.metas p = some (m0 + 2 ^ 64 * m1) | _ => True) ∧
        if ok then
          (lo + size ≤ 0x400000 ∨ (0x540000 ≤ lo ∧ lo + size ≤ 0x580000) → data.length = size → t.bytes lo size = data) ∧ ends 0 t ∧
            Within [] endFlds [(lo, lo + max size data.length)] [.fl] [176] u t
        else
          t.fl.op = some (.retire k 1 11) ∧ t.rd F.FL_STAT_STATE = 2 ∧ t.rd F.FL_STAT_BUSY = 1 ∧
            Within [] [F.FL_STAT_STATE, F.FL_STAT_BUSY] [(lo, lo + 512)] [.fl, .freeSeq] [] u t) ∧
    Completes .flCompactEnd s (fun t =>
      if st ≠ 1 then stays t
      else
        let j := if u.fl.jcur = some 0 then 1 else 0
        let seq := match u.fl.jcur with | some i => (u.jSeq i).getD 0 + 1 | none => 0
        let unit := fun i => if i = 64 + j then { u.unit i with count := (u.unit i).count + 1 } else u.unit i
        let halves := (List.range 208).filter fun i => (unit i).half
        let snap := fun i =>
          let p := unit (2 * i)
          let q := unit (2 * i + 1)
          4 * 2 ^ 60 + 2 * i * 2 ^ 52 + b2n p.ret * 2 ^ 51 + b2n p.slow * 2 ^ 50 + b2n q.ret * 2 ^ 49 + b2n q.slow * 2 ^ 48 +
            p.count % 2 ^ 24 * 2 ^ 24 + q.count % 2 ^ 24
        t.rd F.FL_STAT_STATE = 2 ∧ t.fl.jcur = some j ∧ t.fl.jused = min (105 + halves.length) 256 ∧
        t.jWord j 0 = 0x5A * 2 ^ 56 + seq % 2 ^ 32 ∧ (∀ i, i < 104 → t.jWord j (i + 1) = snap i) ∧
        (∀ i, i < 151 → i < halves.length → t.jWord j (105 + i) =
          2 ^ 60 + halves.getD i 0 * 2 ^ 52 + (unit (halves.getD i 0)).count % 2 ^ 24) ∧
        Within [] (F.FL_STAT_STATE :: shown) [(0x540000 + j * 0x800, 0x540800 + j * 0x800)] [.fl] [] u t) ∧
    (st ≠ 2 ∨ u.fl.op = none → Completes .flStampEnd s stays) ∧
    (∀ o, u.fl.op = some o → st = 2 → Completes .flStampEnd s fun t =>
      match o with
      | .retire k cause c => retires k cause c t
      | .erase k =>
        let y := u.unit k
        let p := u.fl.pulses
        let slow := decide ((if k < 64 then u.rd F.FL_WEARCFG_SLOWP else u.rd F.FL_WEARCFG_SLOWPF) < p)
        let c := (y.count + 1) % 2 ^ 24
        if u.fl.stamp = .start then
          t.rd F.FL_STAT_STATE = 3 ∧ appends (2 ^ 60 + k * 2 ^ 52 + y.count % 2 ^ 24) t ∧ unitIs k { y with half := true } t ∧
            Within [] (F.FL_STAT_STATE :: shown) jr [.fl] [] u t
        else if u.fl.stamp = .complete then
          ends 0 t ∧ unitIs k { y with count := c, half := false, slow := slow } t ∧
          appends (2 * 2 ^ 60 + k * 2 ^ 52 + b2n slow * 2 ^ 50 + p % 256 * 2 ^ 40 + c) t ∧
          t.rd F.FL_ERASEINFO_PULSES = p % 2 ^ F.FL_ERASEINFO_PULSES.w ∧ t.rd F.FL_ERASEINFO_COUNT = c ∧
          t.on F.FL_STAT_ERASE_SLOW = (u.on F.FL_STAT_ERASE_SLOW || slow) ∧ (slow = true → Fires 181 u t) ∧
          Within [] ([F.FL_STAT_ERASE_SLOW, F.FL_ERASEINFO_PULSES, F.FL_ERASEINFO_COUNT] ++ endFlds ++ shown) jr [.fl]
            (if slow then [176, 181] else [176]) u t
        else retires k (match u.fl.stamp with | .retire cause => cause | _ => 0) 11 t
      | _ => stays t) ∧
    Completes (.flErasePulse ok) s (fun t =>
      match (if st = 3 then u.fl.op else none) with
      | some (.erase k) =>
        let p := u.fl.pulses + 1
        let lo := if k < 64 then k * 0x10000 else 0x540000 + (k - 64) * 0x800
        let hi := lo + if k < 64 then 0x10000 else if k < 192 then 0x800 else 0
        t.fl.pulses = p ∧
        if ok then t.rd F.FL_STAT_STATE = 2 ∧ t.fl.stamp = .complete ∧ t.fl.rdWait = false ∧ (∀ b, b < hi - lo → t.byte (lo + b) = 0xFF) ∧
          Within [] [F.FL_STAT_STATE] [(lo, hi)] [.fl] [] u t
        else if (if k < 64 then 40 else 20) ≤ p then t.rd F.FL_STAT_STATE = 2 ∧ t.fl.stamp = .retire 0 ∧ t.fl.rdWait = false ∧ Within [] [F.FL_STAT_STATE] [(lo, hi)] [.fl, .freeSeq] [] u t
        else t.fl = { u.fl with pulses := p } ∧ Frame [] [.fl] [] u t
      | _ => stays t) ∧
    Completes .flSuspend s (fun t =>
      if st = 3 ∧ u.fl.rdWait = true then t.rd F.FL_STAT_STATE = 4 ∧ t.fl = { u.fl with rdWait := false } ∧ Frame [F.FL_STAT_STATE] [.fl] [] u t
      else stays t) ∧
    Completes .flResume s (fun t =>
      if st = 4 ∧ u.fl.rdWait = false then t.rd F.FL_STAT_STATE = 3 ∧ Frame [F.FL_STAT_STATE] [] [] u t else stays t)

/-! ### Supplies, resets and Rest (R344 to R366) -/

/-- The power path, the monitors, the die sensor and VBK (R345, R347, R349, R350, R386): each crossing sets or clears its bit once, with
its event; the die's limits raise the Larder's alarm; the loss of VBK resets the backup domain, LAR_STAT.ERASING with it, and destroys a
latched wrap key, with the records where there are any. The free-running sensor samples while the core domain runs. With the supply above
VNVI again the work that waited for it starts, but with the ECC partition retired (notes/assumptions/101.md).

That the alarm is raised only while its source bit is clear is notes/assumptions/60.md; that the loss of VBK while powered erases the records
notes/assumptions/37.md. -/
def Obligations.Supplies : Prop :=
  ∀ (v : BitVec 16) (s : State),
    let u := settle s
    let stays := fun t => Frame [] [] [] u t
    let aon := fun (P : State → Prop) (t : State) => if u.boot.aonDown then stays t else P t
    let crosses := fun (f : Fld) (ev : Nat) => aon fun t => if u.on f then stays t else t.rd f = 1 ∧ Frame [f] [] [ev] u t
    let clears := fun f : Fld => aon fun t => t.rd f = 0 ∧ Frame [f] [] [] u t
    let x := signed v.toNat 16
    let hi := 2 * signed (u.rd F.PWR_TEMPTHR_HI) 8
    let lo := 2 * signed (u.rd F.PWR_TEMPTHR_LO) 8
    let out := decide (x < 2 * signed (u.rd F.LAR_TEMPLIM_LO) 8) || decide (2 * signed (u.rd F.LAR_TEMPLIM_HI) 8 < x)
    let ev := (if hi < x ∧ u.on F.PWR_STAT_TEMPHI = false then [14] else []) ++ (if x < lo ∧ u.on F.PWR_STAT_TEMPLO = false then [14] else [])
    let live := u.on F.LARDER_POLICY_MODE && u.aonUp && !u.records.isEmpty
    Completes .pathToVbat s (aon fun t =>
      if u.on F.PWR_STAT_ONBAT then stays t
      else t.rd F.PWR_STAT_ONBAT = 1 ∧ t.rd F.PWR_STAT_MAINOK = 0 ∧ Frame [F.PWR_STAT_ONBAT, F.PWR_STAT_MAINOK] [] [5] u t) ∧
    Completes .pathToVmain s (aon fun t =>
      t.rd F.PWR_STAT_ONBAT = 0 ∧ t.rd F.PWR_STAT_MAINOK = 1 ∧
        Frame [F.PWR_STAT_ONBAT, F.PWR_STAT_MAINOK] [] (if u.on F.PWR_STAT_ONBAT then [6] else []) u t) ∧
    Completes .nviLow s (crosses F.PWR_STAT_NVILOW 7) ∧ Completes .vbatLow s (crosses F.PWR_STAT_VBATLOW 9) ∧
    Completes .vddioLow s (crosses F.PWR_STAT_VDDIOLOW 15) ∧ Completes .vbatRearm s (clears F.PWR_STAT_VBATLOW) ∧
    Completes .vddioRearm s (clears F.PWR_STAT_VDDIOLOW) ∧
    Completes .nviOk s (aon fun t =>
      if u.on F.PWR_STAT_NVILOW = false then stays t
      else
        let x := u.upd
        let next := if u.on F.FL_STAT_RET then x
          else if x.prog.isSome then { x with marks := [], again := false }
          else if x.buf.length = 2 ∨ (x.flush = true ∧ x.buf ≠ []) then { x with marks := [], prog := some x.buf, buf := [], flush := false, again := false }
          else { x with marks := [] }
        t.rd F.PWR_STAT_NVILOW = 0 ∧ Fires 8 u t ∧
          (u.boot.wait = none → t.upd = next ∧
            if x.marks = [] ∨ u.on F.FL_STAT_RET = true then Frame [F.PWR_STAT_NVILOW] (if next = x then [] else [.upd, .fl]) [8] u t
            else Within [] [F.PWR_STAT_NVILOW, F.UPD_RXCNT, F.FL_RETMAIN_UNIT, F.FL_HALFMAIN_UNIT, F.FL_RETIRES]
              [(0x540000, 0x541000), (0x545000, 0x550000)] [.upd, .fl, .freeSeq] [8, 177, 182, 188] u t)) ∧
    Completes (.tempSample v) s (fun t => if u.aonUp = false ∨ u.coreUp = false then stays t else
      t.rd F.PWR_TEMP_DEG = v.toNat ∧
      t.on F.PWR_STAT_TEMPHI = (decide (hi < x) || (decide (hi - 4 ≤ x) && u.on F.PWR_STAT_TEMPHI)) ∧
      t.on F.PWR_STAT_TEMPLO = (decide (x < lo) || (decide (x ≤ lo + 4) && u.on F.PWR_STAT_TEMPLO)) ∧
      if out && !bitOf (u.rd F.LAR_ALMSRC_SRC) 3 && bitOf (u.rd F.LAR_ALMEN_EN) 3 then
        AlarmRaised 3 u t ∧ (ev ≠ [] → Fires 14 u t)
      else Frame [F.PWR_TEMP_DEG, F.PWR_STAT_TEMPHI, F.PWR_STAT_TEMPLO] [] ev u t) ∧
    Completes .vbkLoss s (fun t =>
      t.rtc = { vbk := false } ∧ ResetIn 0x505000 0x505050 t ∧ SameIn 0x505050 0x505070 u t ∧ ResetIn 0x505070 0x506000 t ∧
      t.ciph = { u.ciph with latch := none } ∧ t.rd F.LAR_STAT_LWKOK = 0 ∧
      (u.boot.aonDown = false → t.rd F.PWR_RSTCAUSE_VBK = 1) ∧ t.on F.LAR_STAT_ERASING = live ∧
      t.on F.FL_STAT_LARPEND = (live || u.ciph.op.any fun o => o.fn == 8 || (o.fn == 9 && u.on (F.LAR_ATTR_PERS (o.opd % 128)))) ∧
      Within [0x505] ([F.LAR_STAT_LWKOK, F.LAR_STAT_ERASING, F.FL_STAT_LARPEND] ++
        (if u.boot.aonDown then [] else [F.PWR_RSTCAUSE_VBK])) [] [.latches, .holds, .rtc, .ciph] [] u t) ∧
    Completes .vbkPresent s (fun t => t.rtc = { u.rtc with vbk := true } ∧ Frame [] [.rtc] [] u t)

/-- The resets and the watchdog (R346, R350, R352, R444): which domain each trigger resets, and the cause it leaves.

What survives which reset is notes/assumptions/57.md, a campaign at a reset of the always-on domain notes/assumptions/52.md, the tasks driven before
it notes/assumptions/78.md, and what is left of flash work that it cuts short notes/assumptions/96.md. -/
def Obligations.Resets : Prop :=
  ∀ (acc : Fin 18) (s : State),
    let u := settle s
    let stays := fun t => Frame [] [] [] u t
    let aon := fun (P : State → Prop) (t : State) => if u.boot.aonDown then stays t else P t
    let core := fun (cause : Fld) (ks : List Fld) (t : State) => t.rd cause = 1 ∧ CoreReset (cause :: ks) u t
    let denied := fun t : State => t.rd F.BRN_ERR_WERR = 1 ∧ t.rd F.BRN_ERR_ACCESSOR = acc ∧
      Frame [F.BRN_ERR_WERR, F.BRN_ERR_ACCESSOR] [] [] u t
    let trial := u.on F.UPD_TRIAL_ACTIVE
    let expires := fun t : State =>
      Counts F.PWR_WDTEXP u t ∧ (trial = true → t.rd F.UPD_TRIAL_EXPS = min (u.rd F.UPD_TRIAL_EXPS + 1) 255) ∧
        core F.PWR_RSTCAUSE_WDT (F.PWR_WDTEXP :: if trial then [F.UPD_TRIAL_EXPS] else []) t
    let ticks := 128 * max 1 (u.rd F.PWR_WDTCFG_PER)
    Completes .brownout s (aon fun t => AonReset F.PWR_RSTCAUSE_POR u t ∧ t.boot.aonDown = true) ∧
    Completes .nrstLong s (aon fun t => AonReset F.PWR_RSTCAUSE_NRSTLONG u t ∧ t.boot.aonDown = false) ∧
    Completes .nrstAssert s (aon (core F.PWR_RSTCAUSE_NRST [])) ∧
    Completes .vcoreFault s (aon fun t => if u.inRest then stays t else core F.PWR_RSTCAUSE_VCORE [] t) ∧
    Completes .wdtExpire s (fun t =>
      if u.aonUp && u.on F.PWR_WDTCFG_EN && (!u.inRest || u.on F.PWR_WDTCFG_REST) then expires t else stays t) ∧
    (u.coreUp = true →
      Completes (.swResetAon acc) s (fun t => if u.accSecure acc then AonReset F.PWR_RSTCAUSE_SWAON u t else denied t) ∧
      Completes (.swResetCore acc) s (fun t => if u.accSecure acc then core F.PWR_RSTCAUSE_SWCORE [] t else denied t) ∧
      Completes .wdtKick s (fun t =>
        if u.on F.PWR_WDTCFG_EN then t.pwr = { u.pwr with wdt := ticks } ∧ Frame [] [.pwr] [] u t else stays t) ∧
      Completes .wdtBadkick s (fun t => if u.on F.PWR_WDTCFG_EN then expires t else stays t))

/-- Rest (R359 to R365): an attempt, its refusal or the closing, the abort of an entry, isolation with what each block loses, the
memories at power-down, the exit and the burners that are woken, before it or by an event that the exit brings.

With which word sources 10 and 175 fire is notes/assumptions/59.md; that Rest empties every latch notes/assumptions/57.md; what the host port holds
notes/assumptions/47.md. -/
def Obligations.RestCycle : Prop :=
  ∀ (temp : BitVec 16) (s : State),
    let u := settle s
    let stays := fun t => Frame [] [] [] u t
    let some16 := fun (w : State) st => (List.range 16).any fun b => w.bstate b == st
    let ready := fun w : State => !some16 w stRun && some16 w stSleep
    let may := fun w : State => w.on F.PWR_RESTCTL_EN && !w.on F.PWR_STAT_HOLD
    let cp := fun (w : State) p => w.cpSt p == cpTrain || w.cpSt p == cpData || w.cpSt p == cpProbe
    let present := fun w : State => [
      cp w 0 || cp w 1,
      w.anySlot || [feRampup, feTx, feRampdn, feCalSt].contains w.fe_st ||
        (w.mac.tx.isSome || !w.mac.owed.isEmpty || w.mac.ackTx || !w.mac.wins.isEmpty || w.mac.pwin),
      w.on F.FL_STAT_BUSY || w.larBusy || w.fl.op.isSome || (w.upd.prog.isSome && !w.upd.again) || !w.upd.jw.isEmpty ||
        ((w.on F.UPD_STAT_INSTALLING || w.upd.clearing) && !w.on F.PWR_STAT_NVILOW),
      w.on F.HP_STAT_SEL || w.on F.HP_STAT_MASTER || w.hp.tx.isSome, w.whiskHeld.any (·.masked), some16 w stWait,
      w.on F.UPD_STAT_INSTALLING || w.bufPend, w.bistPart.isSome || w.bist.seg]
    let lowest := fun w : State => (present w).idxOf true + 1
    let refused := fun (code : Nat) (abort : Bool) (v t : State) =>
      Counts F.REST_REFUSED v t ∧ t.rd F.PWR_RESTREF_CODE = code ∧ t.on F.PWR_RESTREF_ABORT = abort ∧ Fires 11 v t
    let refFlds := [F.REST_REFUSED, F.PWR_RESTREF_CODE, F.PWR_RESTREF_ABORT]
    let flush := !u.on F.UPD_STAT_INSTALLING && u.upd.prog.isNone && u.upd.marks.isEmpty && u.upd.buf.length == 1
    let unwoken := { u with pwr := { u.pwr with wake := false } }
    let s0 := { s with fired := [], cp := s.cp.map fun x => { x with line := [] } }
    let lost := fun b => !bitOf (u.rd F.PWR_RET_BANK) b || bitOf (u.rd F.BIST_MEMRET_BANK) b
    let waits := fun b => u.bstate b == stWait || u.bstate b == stSleep
    let parks := fun b => waits b && u.on (F.BRN_STAT_PARKREQ b)
    let woken := fun b => waits b &&
      (if (u.bx b).await < 64 then bitOf (u.rd (F.BRN_WPEND_PEND b)) (u.bx b).await else u.rd (F.BRN_WPEND_PEND b) != 0)
    let same := fun (b : Nat) (t : State) => t.bstate b = u.bstate b ∧ t.pc b = u.pc b ∧ (t.bx b).await = (u.bx b).await
    let runs := fun (b : Nat) (t : State) => t.bstate b = stRun ∧ t.pc b = (u.pc b + 1) % 2 ^ 16 ∧ (t.bx b).await = 64
    (u.coreUp = true →
      Completes .restAttempt s (fun t =>
        if u.rest = .running ∧ may u = true ∧ ready u = true then
          if (present u).contains true = false then t.rest = .closing ∧ t.pwr.wake = false ∧ Frame [] [.rest] [] unwoken t
          else
            t.rest = .running ∧ t.pwr.counted = some u.refusers ∧
            t.upd = (if flush = false then u.upd else if u.on F.PWR_STAT_NVILOW ∨ u.on F.FL_STAT_RET then { u.upd with flush := true }
              else { u.upd with prog := some u.upd.buf, buf := [], flush := false }) ∧
            if u.pwr.counted = some u.refusers then
              t.fired = u.fired ∧ Within [] [] [] (if flush then [.upd, .fl, .pwr] else [.pwr]) [] u t
            else
              refused (lowest u) false u t ∧ Within [] refFlds [] (if flush then [.upd, .fl, .pwr] else [.pwr]) [11] u t
        else stays t) ∧
      ((∀ b, b < 16 → (u.bx b).csync = none) → Completes .restIsolation s fun t =>
        if u.rest = .closing then
          t.rest = .isolated ∧ t.rd F.PWR_RESTS = (u.rd F.PWR_RESTS + 1) % 2 ^ 32 ∧ t.pwr.counted = none ∧
          t.rd F.SYS_CLK_SRC = 0 ∧ t.rd F.SYS_CLK_PLLLOCK = 0 ∧ (u.on F.SYS_CLK_XOWARM = false → t.rd F.SYS_CLK_XORDY = 0) ∧
          t.fe_st = feOff ∧ t.rd F.FE_STAT_RXREQ = 0 ∧ t.mod = {} ∧ PageReset 0x509 [F.MOD_RET_RET] t ∧
          (∀ p, p ≤ 1 → t.cpSt p = if u.cpSt p = cpRetired then cpRetired else cpOff) ∧
          t.fwd.frames = [] ∧ t.fwd.queue = [] ∧ t.rd F.FWD_RESTDROP =
            min (u.rd F.FWD_RESTDROP + u.fwd.frames.length + u.hp.rx.length + if u.hp.tx.isSome then 1 else 0) 65535 ∧
          t.mac.tx = none ∧ t.mac.waits = [] ∧ t.ciph.op = none ∧ t.ciph.keys = u.ciph.keys ∧ t.hp.rx = [] ∧ t.hp.tx = none ∧
          t.upd.buf = [] ∧ t.rd F.UPD_IPROG_PAGES = 0 ∧ t.bistPart = none ∧ t.latches = [] ∧ t.holds = [] ∧ t.c3.busy = false ∧
          (∀ b, b < 16 → t.bstate b = u.bstate b ∧ t.pc b = u.pc b ∧ (t.bx b).await = (u.bx b).await ∧ (t.bx b).yield = false ∧
            (∀ r, r < 16 → t.breg b r = u.breg b r)) ∧
          (t.rly 0).req = none ∧ (t.rly 1).req = none ∧ (t.rly 0).pin = (u.rly 0).pin ∧ (t.rly 1).pin = (u.rly 1).pin ∧
          Within [0x508, 0x509, 0x50A, 0x50B, 0x50C, 0x50D, 0x50E, 0x510]
            [F.SYS_CLK_SRC, F.SYS_CLK_PLLLOCK, F.SYS_CLK_XORDY, F.PWR_RESTS, F.TB_STAT_ZCOK, F.TB_STAT_STATE, F.TB_STAT_HOLD, F.TB_STAT_AMBIG,
              F.LIO_RLYSTAT_PEND, F.LIO_RLYSTAT_LEVEL, F.RLY_CANCEL, F.FL_STAT_LARPEND, F.UPD_IPROG_PAGES, F.BIST_STAT_RUN]
            [(0x480000, 0x488000)] [.latches, .holds, .freeSeq, .rest, .whiskTest, .brn, .c3, .tb, .mod, .fe, .bistPart, .cp, .fwd, .mac, .ciph,
              .hp, .fl, .lio, .pwr, .upd, .bist] [34, 36] u t
        else stays t)) ∧
    (u.aonUp = true →
      Completes .restPowerdown s (fun t =>
        if u.rest = .isolated then
          t.rest = .asleep ∧
          (∀ b, b < 16 → t.ramLoss.getD b 0 = u.ramLoss.getD b 0 + if lost b then 1 else 0) ∧
          t.ramLoss.getD 16 0 = u.ramLoss.getD 16 0 + 1 ∧
          (u.on F.PWR_RET_CTX = false → ∀ k, k < 0x8000 → t.byte (0x480000 + k) = 0) ∧
          Within [] [] (((List.range 16).filter lost).map (fun b => (0x400000 + b * 0x8000, 0x408000 + b * 0x8000)) ++ [(0x490000, 0x4B0000)] ++
            (if u.on F.PWR_RET_CTX then [] else [(0x480000, 0x488000)])) [.rest, .ramLoss] [] u t
        else stays t) ∧
      Completes .restWake s (fun t =>
        if u.rest = .asleep ∧ u.pwr.wake = true then t.rest = .exiting ∧ t.pwr.wake = false ∧ Frame [] [.rest] [] unwoken t else stays t) ∧
      Completes (.restExitDone temp) s (fun t =>
        if u.rest = .exiting then
          t.rest = .running ∧ t.rd F.PWR_TEMP_DEG = temp.toNat ∧
          (∀ b, b < 16 →
            if parks b then t.bstate b = stParked ∧ t.pc b = u.pc b ∧ (t.bx b).await = 64 ∧ Fires (16 + b) u t
            else if woken b then runs b t
            else same b t ∨ (waits b = true ∧ (∃ n ∈ t.fired, n ≠ 10 ∧ n ≠ 175) ∧ runs b t)) ∧
          (some16 t stRun = true → Fires 10 u t ∧ t.pwr.first = false ∧ (u.c3.ended = true → Fires 175 u t)) ∧
          (some16 t stRun = false → ¬ Fires 10 u t ∧ t.pwr.first = true)
        else stays t)) ∧
    (s.rest = .closing → { s with rest := .running }.quiet = true →
      if may s = false then u = { s0 with rest := .running }
      else if (present s).contains true then u.rest = .running ∧ refused (lowest s) true s0 u ∧ Frame refFlds [.rest] [11] s0 u
      else if s.pwr.wake then u.rest = .running ∧ refused 5 true s0 u
      else if ready s = false then u.rest = .running ∧ refused 6 true s0 u ∧ Frame refFlds [.rest] [11] s0 u
      else u = s0)

/-! ### The real-time clock (R368 to R384) -/

/-- The clock's instants (R368 to R384): the second boundary with the calendar, the alarms and PWRON's release; the crystal; the
correction of a window; what a pending write or task does, and that a write whose highest unit is yet to come waits on; a tamper trip.

What a second write of one register does to the first is notes/assumptions/38.md; which counters the rows move notes/assumptions/39.md; an alarm set
to no valid time notes/assumptions/40.md; the sample of a window in Rest notes/assumptions/5.md. -/
def Obligations.RealTimeClock : Prop :=
  ∀ (n : Fin 2) (s : State),
    let u := settle s
    let stays := fun t => Frame [] [] [] u t
    let c := u.cal
    let leap := c.year % 4 == 0 && (c.year % 100 != 0 || c.year % 400 == 0)
    let last := if c.month = 2 then (if leap then 29 else 28) else if [4, 6, 9, 11].contains c.month then 30 else 31
    let next : CalTime := if c.sec < 59 then { c with sec := c.sec + 1 } else if c.min < 59 then { c with sec := 0, min := c.min + 1 }
      else if c.hour < 23 then { c with sec := 0, min := 0, hour := c.hour + 1 }
      else if c.day < last then { c with sec := 0, min := 0, hour := 0, day := c.day + 1 }
      else if c.month < 12 then ⟨c.year, c.month + 1, 1, 0, 0, 0⟩ else if c.year < 999 then ⟨c.year + 1, 1, 1, 0, 0, 0⟩ else ⟨0, 1, 1, 0, 0, 0⟩
    let wraps := decide (next.year < c.year)
    let later := fun (w : State) (k : Nat) => w.rtc.past.getD k false || decide (w.cal.secs < (w.alm k).secs)
    let fireds := fun k : Nat => if k = 0 then F.RTC_ALMSTAT_FIRED0 else F.RTC_ALMSTAT_FIRED1
    let lates := fun k : Nat => if k = 0 then F.RTC_ALMSTAT_ALM_LATE0 else F.RTC_ALMSTAT_ALM_LATE1
    let alarm := fun (k : Nat) (fires late : Bool) (w t : State) =>
      let per := w.rd (F.RTC_ALMCTL_REPEAT k)
      let a := (w.alm k).secs
      let b := (t.alm k).secs + if t.rtc.past.getD k false then calSpan else 0
      if fires then
        Fires (41 + k) u t ∧ t.on (fireds k) = true ∧ t.on (lates k) = (u.on (lates k) || late) ∧
        (bitOf (u.rd F.RTC_PWRON_SRC) k = true → t.on F.RTC_PWRON_LATCH = true) ∧
        if per = 0 then t.on (F.RTC_ALMCTL_EN k) = false ∧ t.alm k = w.alm k
        else t.on (F.RTC_ALMCTL_EN k) = true ∧ later t k = true ∧
          ((w.alm k).ok = true → a ≤ t.cal.secs → (b - a) % per = 0 ∧ t.cal.secs < b ∧ b ≤ t.cal.secs + per)
      else ¬ Fires (41 + k) u t ∧ t.on (fireds k) = u.on (fireds k) ∧ t.on (lates k) = u.on (lates k) ∧ t.alm k = w.alm k ∧
        t.on (F.RTC_ALMCTL_EN k) = w.on (F.RTC_ALMCTL_EN k)
    let on := fun k => u.on (F.RTC_ALMCTL_EN k)
    let hits := fun k => on k && (wraps || !u.rtc.past.getD k false) && u.alm k == next
    let released := match u.rtc.holdLeft with | some h => decide (h ≤ 1) | none => false
    let x := clampInt (-90) 210 (signed (u.rd F.PWR_TEMP_DEG) 16)
    let d := x - signed (u.rd F.RTC_CURVE_T0) 16
    let k := ((x + 90) / 20).toNat
    let f := (x + 90) % 20
    let res := fun i => signed (u.rd (F.RTC_RES_RES i)) 8
    let r20 := if k = 15 then 20 * res 15 else 20 * res k + (res (k + 1) - res k) * f
    let curve := (2 * (signed (u.rd F.RTC_CURVOFS_OFS) 16 * 327680 + signed (u.rd F.RTC_CURVE_QK) 16 * d * d * 20 + r20 * 16384) + 327680) / 655360
    let corr := clampInt (-512) 512 (if u.rd F.RTC_COMPCTL_MODE = 0 then (if u.on F.RTC_COMPCTL_CALBAD then 0 else curve)
      else if u.rd F.RTC_COMPCTL_MODE = 1 then signed (u.rd F.RTC_COMPCTL_FIX) 11 else 0)
    let window := fun (ks : List Fld) (ev : List Nat) (t : State) =>
      t.rtc = { u.rtc with win := 0 } ∧ t.rd F.RTC_COMPNOW_C = (if u.boot.aonDown then u.rd F.RTC_COMPNOW_C else ofInt corr 11) ∧
      (u.aonUp = true → u.rd F.TB_STAT_STATE ≠ tbGrid → t.rd F.TB_INC_INC = t.tbNominal) ∧
      Frame (ks ++ [F.RTC_COMPNOW_C] ++ if u.aonUp = false ∨ u.rd F.TB_STAT_STATE = tbGrid then [] else [F.TB_INC_INC]) [.rtc] ev u t
    let divider := 128 * if u.rd F.RTC_WAKECFG_N = 0 then 2 ^ 24 else u.rd F.RTC_WAKECFG_N
    let setTo := fun v : Nat => (⟨v / 2 ^ 54 % 2 ^ 10, v / 2 ^ 48 % 16, v / 2 ^ 40 % 32, v / 2 ^ 32 % 32, v / 2 ^ 24 % 64, v / 2 ^ 16 % 64⟩ : CalTime)
    let refusedSet := fun t : State => t.cal = c ∧ t.rd F.RTC_CAL_SUB = u.rd F.RTC_CAL_SUB ∧ t.rd F.RTC_STAT_CAL_INVALID = 1 ∧ Counts F.RTC_CALREJ u t ∧
      Frame [F.RTC_STAT_CAL_INVALID, F.RTC_CALREJ] [.rtc] [44] u t
    let ready := u.on F.RTC_STAT_XKRDY
    let half := fun p : RtcPend => match p with
      | .write a _ m => decide (m < 0x100) && [0x505048, 0x505054, 0x505070, 0x505078, 0x50507A, 0x505200].contains a
      | .task _ => false
    let trip := if n.val = 0 then F.RTC_TMPSTAT_TRIP0 else F.RTC_TMPSTAT_TRIP1
    let raised := u.aonUp && bitOf (u.rd F.LAR_ALMEN_EN) n
    (u.rtc.vbk = true → ready = true → u.rtc.pend = [] → c.ok = true → Completes .secondBoundary s fun t =>
      t.cal = next ∧ t.rd F.RTC_CAL_SUB = 0 ∧ t.rd F.RTC_CAL_WDAY = (6 + next.days) % 7 ∧ t.rd F.RTC_SECCNT = (u.rd F.RTC_SECCNT + 1) % 2 ^ 32 ∧
      Fires 40 u t ∧ t.on F.RTC_STAT_WRAP = (u.on F.RTC_STAT_WRAP || wraps) ∧ (∀ k, k < 2 → alarm k (hits k) false u t) ∧
      (hits 0 = false → hits 1 = false → t.on F.RTC_PWRON_LATCH = (u.on F.RTC_PWRON_LATCH && !released)) ∧
      Within [0x505] [] [] [.rtc, .freeSeq] [40, 41, 42] u t) ∧
    (u.rtc.vbk = true →
      Completes .xkReady s (fun t => if ready then stays t else t.rd F.RTC_STAT_XKRDY = 1 ∧ window [F.RTC_STAT_XKRDY] [] t) ∧
      Completes .xkStop s (fun t =>
        t.rd F.RTC_STAT_OSCFAIL = 1 ∧ t.rd F.RTC_STAT_XKRDY = 0 ∧ t.rd F.RTC_STAT_TIMEVALID = 0 ∧
          Frame [F.RTC_STAT_OSCFAIL, F.RTC_STAT_XKRDY, F.RTC_STAT_TIMEVALID] [] [] u t) ∧
      Completes .compWindow s (fun t => if ready then window [] [47] t else stays t) ∧
      Completes .rtcWake s (fun t =>
        if ready && u.on F.RTC_WAKECFG_EN then
          t.rtc.wakeLeft = divider ∧ t.on F.RTC_PWRON_LATCH = (u.on F.RTC_PWRON_LATCH || bitOf (u.rd F.RTC_PWRON_SRC) 2) ∧
            Frame [F.RTC_PWRON_LATCH] [.rtc] [43] u t
        else stays t) ∧
      Completes .rtcWriteApply s (fun t =>
        if ready = false then stays t
        else t.rtc.pend = u.rtc.pend.filter half ∧ (u.rtc.pend.all half = true → Frame [] [.rtc] [] u t) ∧ match u.rtc.pend with
          | [] => Frame [] [.rtc] [] u t
          | [.task 16] => t.rd F.RTC_PWRON_SW = 1 ∧ t.rd F.RTC_PWRON_LATCH = 1 ∧ t.rtc.pend = [] ∧ Frame [F.RTC_PWRON_SW, F.RTC_PWRON_LATCH] [.rtc] [] u t
          | [.task 17] => t.rd F.RTC_PWRON_SW = 0 ∧ t.rd F.RTC_PWRON_LATCH = 0 ∧ t.rtc.pend = [] ∧ Frame [F.RTC_PWRON_SW, F.RTC_PWRON_LATCH] [.rtc] [] u t
          | [.task 18] => t.rtc.wakeLeft = divider ∧ t.rtc.pend = [] ∧ Frame [] [.rtc] [] u t
          | [.write 0x505008 v _] =>
            let crossed := fun k => on k && !u.rtc.past.getD k false && decide (c.secs < (u.alm k).secs) && decide ((u.alm k).secs ≤ (setTo v).secs)
            if (setTo v).ok then
              t.cal = setTo v ∧ t.rd F.RTC_CAL_SUB = v % 2 ^ 15 ∧ t.rd F.RTC_STAT_TIMEVALID = 1 ∧ t.rd F.RTC_SECCNT = u.rd F.RTC_SECCNT ∧
                (∀ k, k < 2 → alarm k (crossed k) true u t) ∧ Within [0x505] [] [] [.rtc, .freeSeq] [41, 42] u t
            else refusedSet t
          | [.write 0x505020 v _] =>
            if (setTo v).ok then
              let w := setAlm 0 (setTo v) u
              alarm 0 (on 0 && decide ((setTo v).secs ≤ c.secs)) true w t ∧ t.cal = c ∧ Within [0x505] [] [] [.rtc, .freeSeq] [41] u t
            else refusedSet t
          | _ => Within [0x505] [] [] [.rtc, .freeSeq] [41, 42, 44] u t) ∧
      Completes .pwronRelease s (fun t =>
        if u.rtc.holdLeft = none then stays t
        else t.rtc = { u.rtc with holdLeft := none } ∧ t.rd F.RTC_PWRON_LATCH = 0 ∧ Frame [F.RTC_PWRON_LATCH] [.rtc] [] u t) ∧
      Completes (.tamperTrip n) s (fun t =>
        if u.on (F.RTC_TMPCFG_EN n) then
          t.rd trip = 1 ∧
          (if u.on trip then t.rd (F.RTC_TMPTS_DAY n) = u.rd (F.RTC_TMPTS_DAY n) ∧ t.rd (F.RTC_TMPTS_SEC n) = u.rd (F.RTC_TMPTS_SEC n)
          else t.rd (F.RTC_TMPTS_YEAR n) = c.year ∧ t.rd (F.RTC_TMPTS_MONTH n) = c.month ∧ t.rd (F.RTC_TMPTS_DAY n) = c.day ∧
            t.rd (F.RTC_TMPTS_HOUR n) = c.hour ∧ t.rd (F.RTC_TMPTS_MIN n) = c.min ∧ t.rd (F.RTC_TMPTS_SEC n) = c.sec ∧
            t.rd (F.RTC_TMPTS_SUB n) = u.rd F.RTC_CAL_SUB) ∧
          (u.on (F.RTC_TMPCFG_KILL n) = true → t.ciph.latch = none ∧ t.rd F.LAR_STAT_LWKOK = 0) ∧
          (if u.on (F.RTC_TMPCFG_WIPE n) then ResetIn 0x505100 0x505140 t else SameIn 0x505100 0x505140 u t) ∧
          (u.aonUp = true → Fires (45 + n) u t) ∧ (u.aonUp = false → t.fired = u.fired) ∧
          (raised = true → t.rd F.LAR_STAT_ALARM = 1 ∧ bitOf (t.rd F.LAR_ALMSRC_SRC) n = true ∧ t.ciph.op = none ∧ Fires 171 u t) ∧
          (raised = false → Within [0x505] [F.LAR_STAT_LWKOK, F.LAR_STAT_ERASING, F.FL_STAT_LARPEND] [] [.ciph] [45 + n] u t)
        else stays t))

/-! ### Timers (R389 to R395) -/

/-- The timers' commands (R134, R389 to R395, R406): starting, stopping and clearing, one or many; a match, a wrap with the cascade above it,
the end of a one-shot, each only of a timer whose source comes, and of a high half only in the wrap of the timer below (that the row then
waits for that wrap, and that a pin's captures take the counts before its edge: notes/assumptions/102.md); a capture by a task, in Rest
too, and by an edge of a pin, and the read that takes it.

That the counts of the other sources move through these rows alone is notes/assumptions/46.md. -/
def Obligations.TimerCommands : Prop :=
  ∀ (acc : Fin 18) (n : Fin 8) (b rising : Bool) (set : BitVec 8) (s : State),
    let u := settle s
    let stays := fun t => Frame [] [] [] u t
    let k := n.val
    let run := u.on (F.TMR_STAT_RUN k)
    let cnt := fun i => u.rd (F.TMR_CNT_VAL i)
    let top := fun i => u.rd (F.TMR_TOPACT_VAL i)
    let cmp := u.rd (F.TMR_CMPACT_VAL k)
    let shot := fun i => u.rd (F.TMR_CFG_MODE i) == 1
    let anew := fun i => shot i && cnt i == top i
    let above := fun i => i % 2 == 0 && u.tmrCasc (i + 1)
    let all := List.range 8
    let adds := fun (d : Nat) (t : State) => TimerAdds k d u t ∧ PreIs k 0 u t ∧ Frame (tmrFlds k) [.lio] [48 + 3 * k] u t
    let cap := capFlds k b
    let pin := u.rd (if b then F.TMR_CFG_CAPBPIN k else F.TMR_CFG_CAPAPIN k)
    (u.coreUp = true →
    Completes (.tmrStart n) s (fun t =>
      t.rd (F.TMR_STAT_RUN k) = 1 ∧ t.rd (F.TMR_CNT_VAL k) = (if anew k then 0 else cnt k) ∧ PreIs k 0 u t ∧
        Frame [F.TMR_STAT_RUN k, F.TMR_CNT_VAL k] [.lio] [] u t) ∧
    Completes (.tmrStop n) s (fun t => t.rd (F.TMR_STAT_RUN k) = 0 ∧ Frame [F.TMR_STAT_RUN k] [] [] u t) ∧
    Completes (.tmrClear n) s (fun t =>
      t.rd (F.TMR_CNT_VAL k) = 0 ∧ t.rd (F.TMR_CMPACT_VAL k) = u.rd (F.TMR_CMP_VAL k) ∧ t.rd (F.TMR_TOPACT_VAL k) = u.rd (F.TMR_TOP_VAL k) ∧
        t.rd (F.TMR_STAT_PRELD k) = 0 ∧ PreIs k 0 u t ∧
        Frame [F.TMR_CNT_VAL k, F.TMR_CMPACT_VAL k, F.TMR_TOPACT_VAL k, F.TMR_STAT_PRELD k] [.lio] [] u t) ∧
    Completes (.tmrGstart set) s (fun t =>
      (∀ i, i < 8 → if bitOf set.toNat i then t.rd (F.TMR_STAT_RUN i) = 1 ∧ t.rd (F.TMR_CNT_VAL i) = (if anew i then 0 else cnt i) ∧ t.lio.pre.getD i 0 = 0
        else t.rd (F.TMR_STAT_RUN i) = u.rd (F.TMR_STAT_RUN i) ∧ t.rd (F.TMR_CNT_VAL i) = cnt i ∧ t.lio.pre.getD i 0 = u.lio.pre.getD i 0) ∧
      Frame (all.map F.TMR_STAT_RUN ++ all.map F.TMR_CNT_VAL) [.lio] [] u t) ∧
    Completes (.tmrGstop set) s (fun t =>
      (∀ i, i < 8 → t.rd (F.TMR_STAT_RUN i) = if bitOf set.toNat i then 0 else u.rd (F.TMR_STAT_RUN i)) ∧ Frame (all.map F.TMR_STAT_RUN) [] [] u t) ∧
    (acc.val < 16 → u.accSecure acc = true → Completes (.captureRead acc n b .w8) s fun t =>
      t.rd cap.2.1 = 0 ∧ t.busData = u.rd cap.1 % 256 ∧ (t.latchOf 0x506 acc).map (·.val) = some (u.rd cap.1) ∧
        Frame [cap.2.1] [.latches, .busData] [] u t)) ∧
    (u.aonUp = true →
    Completes (.timerMatch n) s (fun t =>
      if run ∧ cnt k < cmp ∧ cmp ≤ top k then TimerRuns k (cmp - cnt k) (adds (cmp - cnt k)) u t else stays t) ∧
    Completes (.timerWrap n) s (fun t =>
      if run ∧ shot k = false then TimerRuns k (u.tmrDue k).1 (TimerWraps k u) u t else stays t) ∧
    Completes (.oneshotEnd n) s (fun t =>
      if run ∧ shot k = true then TimerRuns k (top k - cnt k) (adds (top k - cnt k)) u t else stays t) ∧
    Completes (.timerCapture n (.task b)) s (fun t =>
      if u.tmrCasc k then stays t
      else Captures k b u t ∧
        Frame (cap.1 :: cap.2.1 :: cap.2.2 :: if above k then [(capFlds (k + 1) b).1] else []) [] [if b then 50 + 3 * k else 49 + 3 * k] u t) ∧
    Completes (.timerCapture n (.edge b rising)) s (fun t =>
      let takes := u.edgeTakes pin rising
      let counts := u.edgeCounts pin rising
      let both := all.flatMap fun i => [(i, false), (i, true)]
      let fed := fun i => u.lio.pre.getD i 0 + 1
      let m := fun i => 2 ^ u.rd (F.TMR_CFG_PS i)
      (∀ i c, i < 8 → takes i c = true → Captures i c u t) ∧
      (∀ i, i < 8 → counts i = true → t.lio.pre.getD i 0 = fed i % m i ∧
        if m i ≤ fed i then TimerAdds i (fed i / m i) u t else t.rd (F.TMR_CNT_VAL i) = cnt i) ∧
      Within [] (((both.filter fun x => takes x.1 x.2).flatMap fun x =>
          let f := capFlds x.1 x.2
          f.1 :: f.2.1 :: f.2.2 :: if above x.1 then [(capFlds (x.1 + 1) x.2).1] else []) ++
        (all.filter counts).flatMap fun i => tmrFlds i ++ if above i then tmrFlds (i + 1) else []) [] [.lio]
        (((both.filter fun x => takes x.1 x.2).map fun x => if x.2 then 50 + 3 * x.1 else 49 + 3 * x.1) ++
          (all.filter counts).flatMap fun i => [48 + 3 * i, 48 + 3 * (i + 1)]) u t))

/-! ### Lantern outputs and inputs (R351, R396 to R405) -/

/-- Lantern I/O (R351, R396 to R404): the enable, a dimming period and its clock; relay requests, drives and contacts; conversions and
their limits; arrivals, departures, a stuck input and a snapshot. Event 82 fires once for each start of period 0, which network time may
pass twice (notes/assumptions/83.md).

How time comes to an instant is notes/assumptions/29.md; when PEND and LEVEL change notes/assumptions/42.md; a set without channels
notes/assumptions/43.md; the index of the period notes/assumptions/44.md; how the classifier counts its times notes/assumptions/45.md. -/
def Obligations.LanternIo : Prop :=
  ∀ (n : Fin 2) (m : Fin 4) (val lvl : BitVec 2) (v : BitVec 16) (s : State),
    let u := settle s
    let stays := fun t => Frame [] [] [] u t
    let r := u.rly n
    let angle := u.rd (F.LIO_RLYCFG_ANGLE n)
    let delay := u.rlyF n
    let ofs := if u.on F.TB_OFS_VAL then u.rd F.TB_OFS_OFS else 0
    let drive := (u.now + (2 ^ 16 - (u.now + delay + 2 ^ 16 - (angle + ofs) % 2 ^ 16) % 2 ^ 16)) % 2 ^ 48
    let here := fun i => decide (i / 2 ^ 16 = u.now / 2 ^ 16) && decide (u.now < i)
    let honoured := u.rd F.TB_STAT_STATE == tbGrid && !u.on F.TB_STAT_HOLD && u.on F.TB_OFS_VAL
    let lock := F.LIO_RLYSTAT_PEND :: F.LIO_RLYSTAT_LEVEL :: []
    let now := [F.TB_NOW_MCN, F.TB_NOW_FRAC, F.TB_CMPCTL_EN0, F.TB_CMPCTL_EN1, F.TB_CMP_MCN 0, F.TB_CMP_MCN 1]
    let comes := fun (i : Nat) (ks : List Fld) (ev : List Nat) (t : State) => Arrives u i t ∧
      (t.now / 2 ^ 16 = u.now / 2 ^ 16 → Within [] ks [] [.tb, .lio] (37 :: 38 :: ev) u t)
    let relayIs := fun (x : RlyX) (t : State) => t.rly n = x ∧ t.rly (1 - n) = u.rly (1 - n)
    let trig := u.rd F.LIO_ADCCFG_TRIG
    let begins := fun (done : Option Nat) (t : State) =>
      if u.lio.adcq = [] then
        t.lio = { u.lio with adcDone := done, adcq := (List.range 4).filter fun c => bitOf (u.rd F.LIO_ADCCFG_CHEN) c }
      else Counts F.ADC_OVR u t ∧ t.lio = { u.lio with adcDone := done }
    let filt := u.rd (F.TRF_CFG_FILT m)
    let x := u.trf m
    let en := u.on (F.TRF_CFG_EN m)
    let inputIs := fun (y : TrfX) (t : State) => t.trf m = y ∧ ∀ i, i < 4 → i ≠ m.val → t.trf i = u.trf i
    let bin := fun (edge : Nat → Fld) (dur : Nat) => ((List.range 7).find? fun k => decide (dur < u.rd (edge k))).getD 7
    let sat := fun (l : List Nat) k => if l.getD k 0 = 0xFFFE then [80] else []
    let counted := fun (l : List Nat) (k : Nat) (l' : List Nat) => l'.getD k 0 = min (l.getD k 0 + 1) 0xFFFF ∧ ∀ i, i < 8 → i ≠ k → l'.getD i 0 = l.getD i 0
    let satFlds := fun (ev : List Nat) => if ev = [] then [] else [F.TRF_STAT_SATF]
    (u.coreUp = true →
      Completes .lioEnable s (fun t => t.rd F.LIO_CTL_EN = 1 ∧ (u.on F.LIO_COMMIT_PEND = false →
        (u.on F.PWR_STAT_HOLD = false → u.dimClockGone = false → t.dimSafe = false) ∧
        Frame (F.LIO_CTL_EN :: if u.dimClockGone then [F.LIO_STAT_CLKLOSS] else []) [] [] u t)) ∧
      (u.on F.LIO_COMMIT_PEND = false → Completes .dimPeriod s fun t =>
        let k := u.lio.k
        let per := if u.on F.LIO_DIMCFG_MODE then 2 ^ (16 - u.rd F.LIO_DIMCFG_M) else u.rd F.LIO_DIMCFG_PER + 1
        if u.on F.LIO_CTL_EN = false ∨ u.rd F.LIO_DIMOUT_EN = 0 ∨ u.dimClockGone = true then
          t.on F.LIO_STAT_CLKLOSS = (u.on F.LIO_STAT_CLKLOSS || u.dimClockGone) ∧ Frame [F.LIO_STAT_CLKLOSS] [] [] u t
        else
          t.lio.k = k + 1 ∧
          (∀ c, c < 4 → let d := u.rd (F.LIO_DIM_DUTY c)
            t.lio.span.getD c 0 = if d = 0xFFFF then per else (k + 1) * d * per / 2 ^ 16 - k * d * per / 2 ^ 16) ∧
          if u.on F.LIO_DIMCFG_MODE then
            let f0 := (u.rd F.LIO_DIMPH_PH + ofs) % 2 ^ 16
            let i := u.now + (per - (u.now + 2 ^ 16 - f0) % per)
            let starts := i % 2 ^ 16 = f0 ∧ (u.lio.dimDone.all fun x => later48 i x) = true
            (Fires 82 u t ↔ starts) ∧ (starts → t.lio.dimDone = some (i % 2 ^ 48)) ∧ (¬ starts → t.lio.dimDone = u.lio.dimDone) ∧
              (here i = true → comes i now [82] t)
          else Frame [] [.lio] [] u t) ∧
      Completes .dimClockLoss s (fun t =>
        if u.on F.LIO_DIMCFG_MODE = false ∧ u.on F.LIO_DIMCFG_CLK = true then
          t.on F.LIO_STAT_CLKLOSS = true ∧ t.dimSafe = true ∧ (if u.on F.SYS_CLK_XORDY then XoLost u t else Frame [F.LIO_STAT_CLKLOSS] [] [] u t)
        else stays t) ∧
      (val.toNat = 2 ^ n.val → Completes (.rlyRequest val lvl) s fun t =>
        let want := bitOf lvl.toNat n
        if u.on F.PWR_STAT_HOLD then Counts F.HOLD_BLOCKED u t ∧ Frame [F.HOLD_BLOCKED] [] [] u t
        else if r.req = none ∧ r.pin = want then stays t
        else
          (if r.req.isSome then Counts F.RLY_CANCEL u t else t.rd F.RLY_CANCEL = u.rd F.RLY_CANCEL) ∧
          Within [] (F.RLY_CANCEL :: F.RLY_NOANGLE :: lock) [] [.lio] [] u t ∧
          if r.pin = want then relayIs { r with req := none } t ∧ bitOf (t.rd F.LIO_RLYSTAT_PEND) n = false
          else
            bitOf (t.rd F.LIO_RLYSTAT_PEND) n = true ∧
            if honoured then
              relayIs { r with req := some (want, .waits true) } t
            else if u.on (F.LIO_RLYCFG_NOGRID n) then relayIs { pin := want, req := some (want, .noAngle) } t ∧ Counts F.RLY_NOANGLE u t
            else relayIs { r with req := some (want, .waits false) } t) ∧
      Completes (.rlyDrive n) s (fun t =>
        match r.req with
        | some (want, .waits _) =>
          if honoured then
            let keeps := t.rd F.TB_STAT_STATE == tbGrid && !t.on F.TB_STAT_HOLD && t.on F.TB_OFS_VAL
            (if keeps then relayIs { pin := want, req := some (want, .driven ((drive + delay) % 2 ^ 48)) } t else relayIs r t) ∧
              (here drive = true → keeps = true ∧ comes drive now [] t)
          else stays t
        | _ => stays t) ∧
      Completes (.rlyContact n) s (fun t =>
        match r.req with
        | some (_, .driven i) => relayIs { r with req := none } t ∧ bitOf (t.rd F.LIO_RLYSTAT_PEND) n = false ∧
            bitOf (t.rd F.LIO_RLYSTAT_LEVEL) n = r.pin ∧ Fires 81 u t ∧
            (here i = true → comes i (now ++ lock) [81] t)
        | _ => stays t) ∧
      Completes (.rlyNoangleDone n) s (fun t =>
        match r.req with
        | some (_, .noAngle) => relayIs { r with req := none } t ∧ bitOf (t.rd F.LIO_RLYSTAT_PEND) n = false ∧
            bitOf (t.rd F.LIO_RLYSTAT_LEVEL) n = r.pin ∧ Frame lock [.lio] [81] u t
        | _ => stays t) ∧
      Completes .adcSetStart s (fun t =>
        if trig = 0 then stays t
        else begins t.lio.adcDone t ∧ (trig ≠ 3 → t.lio.adcDone = u.lio.adcDone ∧ Frame [F.ADC_OVR] [.lio] [] u t) ∧
          let i := u.now - u.now % 2 ^ 16 + (u.rd F.LIO_ADCCFG_PH + ofs) % 2 ^ 16
          (trig = 3 → u.now / 2 ^ 16 % 2 ^ u.rd F.LIO_ADCCFG_DIV = 0 → u.now < i →
            if (u.lio.adcDone.any fun x => later48 x u.now) = false then t.lio.adcDone = some i ∧ comes i (F.ADC_OVR :: now) [] t
            else t.lio.adcDone ≠ u.lio.adcDone)) ∧
      Completes (.adcConversionEnd v) s (fun t =>
        match u.lio.adcq with
        | [] => stays t
        | c :: rest =>
          let out := decide (u.rd (F.LIO_THR_HI c) < v.toNat) || decide (v.toNat < u.rd (F.LIO_THR_LO c))
          let run := (if out then u.lio.adcOut else u.lio.adcIn).getD c 0 + 1
          let deb := max 1 (u.rd F.LIO_ADCCFG_DEB)
          let sets := out && decide (deb ≤ run) && !bitOf (u.rd F.LIO_STAT_OUT) c
          let ev := [84, 86, 85].getD c 87
          c < 4 →
          t.rd (F.LIO_ADC_VAL c) = v.toNat ∧ (if out then t.lio.adcOut else t.lio.adcIn).getD c 0 = run ∧
          (if out then t.lio.adcIn else t.lio.adcOut).getD c 0 = 0 ∧
          bitOf (t.rd F.LIO_STAT_OUT) c = (if deb ≤ run then out else bitOf (u.rd F.LIO_STAT_OUT) c) ∧
          (if rest = [] ∧ trig = 1 then t.lio.adcq = (List.range 4).filter fun i => bitOf (u.rd F.LIO_ADCCFG_CHEN) i else t.lio.adcq = rest) ∧
          Frame [F.LIO_ADC_VAL c, F.LIO_STAT_OUT] [.lio] ((if sets then [ev] else []) ++ if rest = [] then [83] else []) u t)) ∧
    (u.aonUp = true →
      Completes (.trfArrival m) s (fun t =>
        if en = false ∨ x.occ.isSome = true then stays t
        else
          match x.gap with
          | none => inputIs { x with occ := some filt, gap := none } t ∧ Frame [] [.lio] [72 + m.val] u t
          | some g =>
            let k := if 65535 ≤ (g - filt) / 32 then 7 else bin F.TRF_GEDGE_U ((g - filt) / 32)
            let ev := sat x.gapBins k
            inputIs { x with occ := some filt, gap := none, gapBins := (t.trf m).gapBins } t ∧ counted x.gapBins k (t.trf m).gapBins ∧
              Frame (satFlds ev) [.lio] (ev ++ [72 + m.val]) u t) ∧
      Completes (.trfDeparture m) s (fun t =>
        if en = false ∨ x.gap.isSome = true then stays t
        else
          match x.occ with
          | none => inputIs { x with occ := none, gap := some filt } t ∧ Frame [] [.lio] [76 + m.val] u t
          | some g =>
            let k := bin F.TRF_EDGE_U ((g - filt) / 32)
            let ev := sat x.occBins k
            inputIs { x with occ := none, gap := some filt, occBins := (t.trf m).occBins } t ∧ counted x.occBins k (t.trf m).occBins ∧
              Frame (satFlds ev) [.lio] (ev ++ [76 + m.val]) u t) ∧
      Completes (.trfStuck m) s (fun t =>
        if x.occ.isSome = true ∧ x.occ.getD 0 < 65535 * 32 then
          inputIs { x with occ := some (65535 * 32) } t ∧ bitOf (t.rd F.TRF_STAT_STUCK) m = true ∧ Counts F.TRF_STUCKS u t ∧
            Frame [F.TRF_STAT_STUCK, F.TRF_STUCKS] [.lio] [] u t
        else stays t) ∧
      Completes .trfSnap s (fun t =>
        (∀ i, i < 32 → t.rd (F.TRF_OCC i) = (u.trf (i / 8)).occBins.getD (i % 8) 0 % 2 ^ 16 ∧
          t.rd (F.TRF_GAP i) = (u.trf (i / 8)).gapBins.getD (i % 8) 0 % 2 ^ 16) ∧
        (∀ i, i < 4 → t.trf i = { u.trf i with occBins := List.replicate 8 0, gapBins := List.replicate 8 0 }) ∧
        t.rd F.TRF_SNAPTS_SEC = u.rd F.RTC_SECCNT ∧ t.rd F.TRF_STAT_SNAPF = 1 ∧ t.lio.snap = false ∧
        Frame ((List.range 32).map F.TRF_OCC ++ (List.range 32).map F.TRF_GAP ++ [F.TRF_SNAPTS_SEC, F.TRF_STAT_SNAPF]) [.lio] [] u t))

/-! ### The host port (R409 to R433) -/

/-- Native frames (R412 to R420, R422, R432): the words of a write one by one, the status words, and the words that a read sends with what
its prefetches do, a slot that the frame's end cuts among them; a frame that ends in a partial word, a read that ends within its turnaround
word, one that the timeout ends, in either mode, and one whose header is cut. A read whose slot is cut has prefetched one word more: the
model's reading of R415 (notes/assumptions/68.md).

Words that HSDO carries are stated while it can: with VDDIO absent it carries none. The order of a verdict is notes/assumptions/14.md. -/
def Obligations.HostFrames : Prop :=
  ∀ (f : HostFrame) (op : BitVec 2) (s : State),
    let u := settle s
    let a := fun k : Nat => (f.addr.toNat + k) % 0x800
    let n := f.slots.length
    let got := f.slots.count true
    let cut := f.part != 0
    let missed := f.slots.count false + b2n (cut && !f.cutReady)
    let writes := fun (sel : Nat) (u0 t : State) =>
      let w := fun k => writeWords f.addr.toNat (f.words.take k) u0
      (∀ k, k < f.words.length → if (w k).boot.held then w (k + 1) = w k
        else WinWrites (a k) (f.words.getD k 0).toNat (w k) (winWrite (a k) (f.words.getD k 0).toNat (w k)).2 (w (k + 1))) ∧
        FrameEnds sel f.part.toNat [] (w f.words.length) t
    let reads := fun (sel : Nat) (u0 t : State) =>
      let sent := fun k => t.hp.sent.getD k 0
      let carries := fun (k v : Nat) => u0.ioOff = false → sent k = v
      let ptr := u0.rd F.HP_IPTR_PTR
      let moved := fun k : Nat => if u0.on F.HP_IPTR_INC then (ptr + 2 * k) % 2 ^ 24 else ptr
      let plain := fun h : HpState => { h with sent := [], frame := false }
      let ends := fun (ks : List Fld) (ps : List Part) (ev : List Nat) =>
        Frame ([F.HP_STAT_SEL] ++ ks ++ (if missed = 0 then [] else [F.HP_ERR_UNDERRUN, F.HP_UNDERRUNS]) ++
          (if cut then [F.HP_ERR_FRAME_SHORT, F.HP_SHORTS] else [])) (.hp :: ps)
          (ev ++ List.replicate missed 186 ++ (if cut then [186] else []) ++ [184]) u0 t
      t.rd F.HP_STAT_SEL = sel ∧ t.hp.frame = false ∧ t.hp.sent.length = (if u0.ioOff then 0 else n + 1) ∧ carries 0 u0.statusOf ∧ Fires 184 u0 t ∧
      (∀ k, k < n → f.slots.getD k true = false → sent (k + 1) = sent k) ∧
      (missed ≠ 0 → t.rd F.HP_ERR_UNDERRUN = 1 ∧ Fires 186 u0 t) ∧ t.rd F.HP_UNDERRUNS = min (u0.rd F.HP_UNDERRUNS + missed) 65535 ∧
      (cut = true → t.rd F.HP_ERR_FRAME_SHORT = 1 ∧ Counts F.HP_SHORTS u0 t ∧ Fires 186 u0 t) ∧
      (missed = 0 → cut = false → f.addr.toNat + n < 0x800 → (∀ k, k ≤ n → (u0.winValue (a k)).isSome = true) →
        (u0.ioOff = false → ∀ k, k < n → some (sent (k + 1)) = u0.winValue (a k)) ∧ ends [] [] []) ∧
      (f.slots = [true] → cut = false → f.addr = 0x020 →
        carries 1 (match u0.hp.rx with | [] => 0 | g :: _ => 2 ^ 15 + 2 ^ 12 * (g.cls % 8) + g.data.length % 2 ^ 11) ∧
        (u0.hp.taken = false → t.hp.pos = 0 ∧ t.hp.rx = u0.hp.rx) ∧ ends [] [] []) ∧
      (f.slots = [true] → cut = false → winAssigned f.addr.toNat = false → winAssigned (a 1) = true → (u0.winValue (a 1)).isSome = true →
        carries 1 0 ∧ t.rd F.SYS_ACCERR_UNMAPPED = 1 ∧ t.rd F.SYS_ACCERR_ACCESSOR = 16 ∧ ends [F.SYS_ACCERR_UNMAPPED, F.SYS_ACCERR_ACCESSOR] [] [2]) ∧
      (0x400 ≤ f.addr.toNat → f.addr.toNat + n < 0x7FF → u0.hp.taken = false →
        (f.slots.count false = 0 → ∀ k, k < n → carries (k + 1) (match u0.hp.rx with | [] => 0 | g :: _ => leNat ((g.data.drop (2 * (u0.hp.pos + k))).take 2))) ∧
        (match u0.hp.rx with
        | [] => plain t.hp = plain u0.hp
        | g :: rest =>
          let words := (g.data.length + 1) / 2
          plain t.hp = plain (if u0.hp.pos < words ∧ words ≤ u0.hp.pos + got then { u0.hp with rx := rest, pos := 0, owedLo := false, owedHi := false }
            else { u0.hp with pos := if u0.hp.pos < words then u0.hp.pos + got else u0.hp.pos })) ∧ ends [] [] []) ∧
      (f.slots = [true] → cut = false → 0x100 ≤ f.addr.toNat → f.addr.toNat < 0x3FF →
        (0x400000 ≤ ptr → ptr + 6 ≤ 0x480000 → u0.accSecure 16 = true → u0.on F.HP_PERM_OPEN = true → u0.rd F.BIST_MEMRET_BANK = 0 →
          u0.ciph.op = none → u0.bist.seg = false →
          carries 1 (u0.leAt ptr 2) ∧ t.rd F.HP_IPTR_PTR = moved 2 ∧ ends [F.HP_IPTR_PTR] [.busData] []) ∧
        (u0.on F.HP_IPTR_INC = false → u0.verdict 16 ptr 2 false 0 = .security →
          carries 1 0 ∧ t.rd F.HP_ERR_DENY = 1 ∧ t.rd F.HP_DENIES = min (u0.rd F.HP_DENIES + 2) 65535 ∧
            ends [F.HP_IPTR_PTR, F.HP_ERR_DENY, F.HP_DENIES] [] []) ∧
        (u0.on F.HP_IPTR_INC = false → u0.verdict 16 ptr 2 false 0 = .bus →
          carries 1 0 ∧ t.rd F.SYS_ACCERR_UNMAPPED = 1 ∧ t.rd F.SYS_ACCERR_ACCESSOR = 16 ∧
            ends [F.HP_IPTR_PTR, F.SYS_ACCERR_UNMAPPED, F.SYS_ACCERR_ACCESSOR] [] [2, 2]))
    let native := fun (o sel : Nat) => FrameMet sel (fun v t =>
      let u0 := if sel = 1 then v.inc F.HP_TIMEOUTS else v
      let idles := FrameOver sel [] [] [] u0.hp u0 t
      if u.on F.HP_STAT_HMODE then
        if sel = 1 then
          let word := fun k : Nat => (f.words.getD k 0).toNat
          let b := (o * 2 ^ 14 + f.sub.toNat * 2 ^ 11 + f.addr.toNat) * 2 ^ 48 + word 0 * 2 ^ 32 + word 1 * 2 ^ 16 + word 2
          let edges := if f.whole then 16 * (1 + f.words.length + n + b2n f.turn) + f.part.toNat else f.part.toNat
          CompatServes 1 (b / 2 ^ 56 % 2 ^ 4) ⟨BitVec.ofNat 4 (b / 2 ^ 60), none, BitVec.ofNat 16 (b / 2 ^ 40), BitVec.ofNat 32 (b / 2 ^ 8),
            BitVec.ofNat 8 b, BitVec.ofNat 8 (min edges 255), !f.cutReady⟩ u0 t
        else idles
      else if f.whole = false then
        t.rd F.HP_ERR_FRAME_SHORT = 1 ∧ Counts F.HP_SHORTS u0 t ∧ FrameOver sel [F.HP_ERR_FRAME_SHORT, F.HP_SHORTS] [] [186] u0.hp u0 t
      else if o ≠ 3 ∧ f.sub.toNat ≠ u.rd F.HP_STAT_HID then idles
      else if o = 2 then FrameEnds sel f.part.toNat (List.replicate n u0.statusOf) u0 t
      else if o = 1 then
        if f.turn then u.hp.goWait = false → reads sel u0 t
        else t.hp.sent = [] ∧ Fires 184 u0 t ∧ ((u0.winValue (a 0)).isSome = true → FrameEnds sel f.part.toNat [] u0 t)
      else writes sel u0 t)
    Completes (.hostWrite f) s (native 0 0 u) ∧ Completes (.hostRead f) s (native 1 0 u) ∧
    Completes (.hostStatusRead f) s (native 2 0 u) ∧ Completes (.hostBcastWrite f) s (native 3 0 u) ∧
    Completes (.hostFrameTimeout op f) s (native op.toNat 1 u)

/-- Compatibility frames (R422, R426 to R428): what HSDO carries, bad frames, one with an invalid CMD among them, a repeated frame, and the
work of a good one with its stored reply. What the model adds is in CompatServes (notes/assumptions/48.md). -/
def Obligations.CompatFrames : Prop :=
  ∀ (f : CompatFrame) (s : State),
    let u := settle s
    let frame := fun (cmd : Nat) => FrameMet 0 (fun v t =>
      if u.on F.HP_STAT_HMODE = false then FrameOver 0 [] [] [] v.hp v t
      else CompatServes 0 (match f.invalid with | some n => 5 + n.val | none => cmd) f v t)
    Completes (.compatNop f) s (frame 0 u) ∧ Completes (.compatWrite f) s (frame 1 u) ∧ Completes (.compatRead f) s (frame 2 u) ∧
    Completes (.compatWrite1 f) s (frame 3 u) ∧ Completes (.compatBcast f) s (frame 4 u)

/-- Outbound mailboxes and mastering (R424, R429, R430): a transfer starts or is refused, and ends whole, aborted, or by a foreign
frame.

What a transfer moves beyond 64 bytes, and what ends it, is notes/assumptions/47.md. -/
def Obligations.HostMaster : Prop :=
  ∀ (v : BitVec 8) (rx : List Byte) (s : State),
    let u := settle s
    let stays := fun t => Frame [] [] [] u t
    let up := u.on F.HP_CTL_EN && !u.on F.HP_STAT_PRET
    let len := u.rd F.HP_MCTL_LEN
    let most := if len = 0 then 64 else min 64 len
    let ended := fun (n : Nat) (off : Bool) (age : Nat) (ks : List Fld) (ps : List Part) (ev : List Nat) (t : State) =>
      t.rd F.HP_STAT_MASTER = 0 ∧ t.rd F.HP_MSTAT_MDONE = 1 ∧ t.rd F.HP_MSTAT_MCNT = n ∧ t.hsckOut = none ∧
      t.hp = { u.hp with
        msent := if u.ioOff then [] else (List.range n).map fun i => u.rd (F.HP_MBUF_BYTE i)
        selOff := if off then some (u.rd F.HP_MCFG_SELPIN) else u.hp.selOff, selAge := age } ∧
      (∀ i, i < 64 → t.rd (F.HP_MBUF_BYTE i) = if i < n then (rx.getD i 0).toNat else u.rd (F.HP_MBUF_BYTE i)) ∧
      Frame ([F.HP_STAT_MASTER, F.HP_MSTAT_MDONE, F.HP_MSTAT_MCNT] ++ (List.range n).map F.HP_MBUF_BYTE ++ ks) (.hp :: ps) (184 :: ev) u t
    u.coreUp = true →
    Completes (.hpMbset v) s (fun t =>
      (∀ m, m < 8 → bitOf (t.rd F.HP_MBSTAT_MBOUT) m = (bitOf (u.rd F.HP_MBSTAT_MBOUT) m || bitOf v.toNat m)) ∧ Frame [F.HP_MBSTAT_MBOUT] [] [] u t) ∧
    Completes .hpMasterGo s (fun t =>
      if u.bistPart = some 17 then t.hp = { u.hp with goWait := true } ∧ Counts F.BIST_HOLD u t ∧ Frame [F.BIST_HOLD] [.hp] [] u t
      else if u.hp.frame then t.hp = { u.hp with goWait := true } ∧ Frame [] [.hp] [] u t
      else if up && !u.on F.HP_STAT_MASTER then
        if u.rd (F.SYS_PINCFG_FUNC (u.rd F.HP_MCFG_SELPIN)) = 3 then
          t.rd F.HP_STAT_MASTER = 1 ∧ (u.ioOff = false → t.hsckOut = some (u.on F.HP_MCFG_MODE, u.rd F.HP_MCFG_DIV + 1)) ∧
            t.hp = { u.hp with selOff := none } ∧ Frame [F.HP_STAT_MASTER] [.hp] [] u t
        else t.rd F.HP_MSTAT_MDONE = 1 ∧ t.rd F.HP_MSTAT_MCNT = 0 ∧ Frame [F.HP_MSTAT_MDONE, F.HP_MSTAT_MCNT] [] [184] u t
      else stays t) ∧
    Completes (.hpMasterAbort rx) s (fun t => if u.on F.HP_STAT_MASTER then ended (min most rx.length) true u.hp.selAge [] [] [] t else stays t) ∧
    Completes (.masterDone rx) s (fun t =>
      if u.on F.HP_STAT_MASTER = false then stays t
      else (len ≤ 64 → ended (if len = 0 then 64 else len) false u.hp.selAge [] [] [] t) ∧
        (64 < len → ended (t.rd F.HP_MSTAT_MCNT) false u.hp.selAge [] [.freeSeq] [] t ∧ 1 ≤ t.rd F.HP_MSTAT_MCNT ∧ t.rd F.HP_MSTAT_MCNT ≤ 64)) ∧
    Completes (.selectFault rx) s (fun t =>
      if u.on F.HP_STAT_MASTER then
        ended (min most rx.length) true 10 [F.HP_ERR_SELECT_FAULT, F.SELECT_FAULT] [] [187] t ∧ t.rd F.HP_ERR_SELECT_FAULT = 1 ∧ Counts F.SELECT_FAULT u t
      else stays t)

/-! ### Field update (R444 to R454) -/

/-- Campaigns, installs, trials and locks (R444 to R454): the codes of the commands in their order, what an accepted one changes, the
recording of a page of morsels, each word of whose bitmap can fail its verify, and what of it waits for the supply, the ends of a CLEAR and of an install, the records that CONFIRM, REVERT
and a lock command write, at once or when the flash controller takes them, and the end of a trial period. The model's own choices in it: the
order of the checks of R448 is the table's but for ADDR, which comes first as nothing can be read before it; what an erase of the device's
own does (notes/assumptions/31.md), what becomes of records and bitmap words that the flash cannot take at once, and of those that cannot be
read (notes/assumptions/101.md), VBAT as the operand (notes/assumptions/69.md).

The order of the checks of LOCKCMD and what a lock record names is notes/assumptions/49.md; a morsel that is already recorded
notes/assumptions/50.md; CLEAR while another runs notes/assumptions/51.md; which record of a morsel is the newest, and an abandoned install,
notes/assumptions/53.md. -/
def Obligations.UpdateCommands : Prop :=
  ∀ (acc : Fin 18) (vbat : BitVec 16) (ok : Bool) (e : InstallEnding) (s : State),
    let u := settle s
    let stays := fun t => Frame [] [] [] u t
    let sec := fun (P : State → Prop) (t : State) => if u.accSecure acc then P t
      else t.rd F.BRN_ERR_WERR = 1 ∧ t.rd F.BRN_ERR_ACCESSOR = acc ∧ Frame [F.BRN_ERR_WERR, F.BRN_ERR_ACCESSOR] [] [] u t
    let first := fun l : List (Nat × Bool) => ((l.find? (·.2)).map (·.1)).getD 0
    let x := u.upd
    let inst := u.on F.UPD_STAT_INSTALLING
    let busy := inst || x.clearing
    let nvi := u.on F.PWR_STAT_NVILOW
    let camp := u.on F.UPD_STAT_CAMP
    let count := u.rd F.UPD_CAMP_COUNT
    let unit0 := u.rd F.UPD_LOG_FIRST
    let nblk := u.rd F.UPD_LOG_NBLK
    let units := ((List.range nblk).map (unit0 + ·)).filter (· < 64)
    let a := u.rd F.UPD_MSRC_ADDR
    let m := u.ramBytes a 200
    let index := mIndex m
    let seen := u.fineSeen
    let ret := u.on F.FL_STAT_RET
    let word := fun i => 0x545000 + 8 * i
    let blank := fun (v : State) (i : Nat) => v.leAt (word i) 8 == 2 ^ 64 - 1 && !(v.cellQual (word i)).unc
    let inRam := fun n => [a, a + n - 1].all fun b => decide (0x400000 ≤ b ∧ b < 0x480000) && !bitOf (u.rd F.BIST_MEMRET_BANK) ((b - 0x400000) / 0x8000)
    let closed := fun n => u.closedTo acc a || u.closedTo acc (a + n - 1)
    let openCode := first [(1, busy),
      (7, !u.logEmpty || count == 0 || decide (5462 < count) || decide (unit0 < 32) || decide (64 < unit0 + nblk) || decide (256 * nblk < count))]
    let mCode := first [(1, !camp), (8, !inRam 200 || closed 200), (2, !mCrcOk m), (3, mImg m != u.rd F.UPD_CAMP_IMGID || mCount m != count),
      (4, decide (count ≤ index)), (5, !blank seen index),
      (6, decide ((units.map seen.pagesLeft).sum < (x.buf.length + 2) / 2 + b2n x.prog.isSome)), (7, busy || (decide (2 ≤ x.buf.length) && x.prog.isSome)), (9, nvi)]
    let slot := u.otherSlot
    let slot0 := 0x100000 * slot
    let reaches := fun b => u.bstate b != stOff && decide (u.rd (F.BRN_CBASE_BASE b) < slot0 + 0x100000) &&
      decide (slot0 < u.rd (F.BRN_CBASE_BASE b) + 3 * (u.rd (F.BRN_CLIM_LAST b) + 1))
    let prot := fun i => (u.unit (16 * slot + i)).ret || ret || u.flProt 2 (slot0 + 0x10000 * i)
    let iCode := first [(1, busy || !x.jw.isEmpty || !x.buf.isEmpty || x.prog.isSome || !x.marks.isEmpty), (2, !camp || decide (u.rd F.UPD_RXCNT < count)),
      (3, u.ownerLocked), (4, u.on F.PWR_STAT_ONBAT && decide (vbat.toNat < 2000 + 100 * min (u.rd F.UPD_VMIN_LEVEL) 24)), (5, u.on F.LAR_STAT_ALARM),
      (6, u.pendingTrial.isSome), (7, (List.range 16).any reaches), (8, (List.range 16).any prot), (9, nvi)]
    let blocks := min 16 ((192 * count + 65535) / 65536)
    let pages := min 2048 ((192 * count + 511) / 512)
    let whole := (List.range pages).all fun p => (u.installBytes p).isSome
    let slotRam := [(slot0, slot0 + 0x100000), (0x540000, 0x541000)]
    let erased := fun (n : Nat) (t : State) => ∀ k, k < n → t.bytes (slot0 + 512 * k) 512 = List.replicate 512 0xFF
    let abandoned := fun (cause : Nat) (t : State) =>
      t.rd F.UPD_STAT_INSTALLING = 0 ∧ t.rd F.UPD_ISTAT_IABORT = cause ∧ Fires 189 u t ∧ t.bootRecords = u.bootRecords
    let installFlds := [F.UPD_STAT_INSTALLING, F.UPD_IPROG_PAGES] ++ eraseFlds ++ readFlds
    let installFrame := fun t : State => Within [] (installFlds ++ [F.UPD_ISTAT_IABORT, F.FL_RETIRES]) slotRam [.fl, .freeSeq]
      [177, 178, 179, 181, 182, 189] u t
    let trial := u.pendingTrial
    let started := trial.any fun w => recKind w == 2
    let cCode := fun bad : Bool => first [(1, inst || !x.jw.isEmpty), (2, bad), (3, nvi)]
    let coded := fun (c : Nat) (ks : List Fld) (t : State) => t.rd F.UPD_STAT_CCODE = c ∧ Frame (F.UPD_STAT_CCODE :: ks) [] [] u t
    let arb := u.flNum (0x100000 * (u.rd F.UPD_BOOT_RUNSLOT % 2) + 16) 1
    let works := u.fl.op.isSome || (x.prog.isSome && !x.again) || u.on F.FL_STAT_LARPEND || busy
    let record := fun (w : Nat) (ks late : List Fld) (ps : List Part) (evs : List Nat) (t : State) =>
      if works || nvi then t.upd = { x with jw := x.jw ++ [w], lock := t.upd.lock, lockAge := t.upd.lockAge } ∧ Within [] ks [] (.upd :: ps) evs u t
      else t.upd = { x with lock := t.upd.lock, lockAge := t.upd.lockAge } ∧ (∀ f ∈ late, t.rd f = 0) ∧ BootWrites w (ks ++ late) (.upd :: ps) evs u t
    let lock := u.ramBytes a 96
    let lseq := leNat ((lock.drop 12).take 4)
    let op := leNat (lock.take 1)
    let shape := inRam 96 && !closed 96 && (op == 1 || op == 2) && ((lock.drop 1).take 3).all (· == 0) && ((lock.drop 16).take 16).all (· == 0) &&
      leNat ((lock.drop 4).take 8).reverse == u.rd F.MAC_EXT_EUI
    let lCode := first [(1, busy || !x.jw.isEmpty || u.c3.busy || x.lock.isSome), (3, nvi), (4, !shape), (5, decide (lseq ≤ u.rd F.UPD_LOCKSEQ_LSEQ)),
      (6, bitOf (u.rd F.BIST_RET_PART) 18)]
    let left := u.rd F.UPD_TRIAL_LEFT
    let page := fun v : State => v.logPage.toList.map arrayOf ++ [4]
    let sends := fun (b : List (List Byte)) (fl : Bool) (w : FlState) (t : State) =>
      x.marks = [] →
      if nvi || ret || (x.prog.isSome && !x.again) || (x.prog.isNone && !(b.length == 2 || fl)) then t.upd = { x with buf := b, flush := fl } ∧ t.fl = w
      else
        t.upd = (if x.prog.isSome then { x with buf := b, flush := fl, again := false } else { x with prog := some b, buf := [], flush := false, again := false }) ∧
          t.fl = { w with works := u.fl.works + 1, others := page u }
    let marks := [F.UPD_RXCNT, F.FL_RETMAIN_UNIT, F.FL_HALFMAIN_UNIT, F.FL_RETIRES]
    let marksRam := [(0x540000, 0x541000), (0x545000, 0x550000)]
    let sendsIn := fun t : State => Within [] marks marksRam [.upd, .fl, .freeSeq] [177, 182, 188] u t
    let waits := u.arrayBusy 0x540000
    let waitFlds := F.BIST_HOLD :: F.FL_BANK_WAIT :: readFlds
    let counted := fun (seg read : Bool) (t : State) =>
      t.rd F.BIST_HOLD = min (u.rd F.BIST_HOLD + b2n seg + b2n (read && u.bistPart == some 15)) 65535 ∧ (read && waits → Counts F.FL_BANK_WAIT u t)
    let reads := decide (mCode = 0 ∨ 5 ≤ mCode) && mCode != 8
    let logs := units.all (32 ≤ ·)
    (u.coreUp = true →
      Completes (.updOpen acc) s (sec fun t =>
        t.rd F.UPD_STAT_CCODE = openCode ∧ t.on F.UPD_STAT_CAMP = (camp || openCode == 0) ∧ Frame [F.UPD_STAT_CCODE, F.UPD_STAT_CAMP] [] [] u t) ∧
      Completes (.updMorsel acc) s (sec fun t =>
        let read := if reads then { u.fl with readAge := 10, rdWait := u.fl.rdWait || (waits && u.rd F.FL_STAT_STATE == 3) } else u.fl
        t.rd F.UPD_STAT_MCODE = mCode ∧ (2 ≤ mCode → mCode ≤ 4 → Counts F.UPD_MBAD u t) ∧ (mCode = 5 → Counts F.UPD_MDUP u t) ∧
        (if mCode = 0 then sends (x.buf ++ [m]) x.flush read t else t.upd = x ∧ t.fl = read) ∧
        counted (camp && inRam 200 && !closed 200 && u.segTouched a 200) reads t ∧
        Within [] ([F.UPD_STAT_MCODE, F.BIST_HOLD] ++ (if 2 ≤ mCode ∧ mCode ≤ 4 then [F.UPD_MBAD] else []) ++ (if mCode = 5 then [F.UPD_MDUP] else []) ++
          (if mCode = 0 then marks else []) ++ if reads then waitFlds else [])
          (if mCode = 0 then marksRam else []) [.upd, .fl, .freeSeq] ((if mCode = 0 then [177, 182, 188] else []) ++ if reads then [178, 179] else []) u t) ∧
      Completes (.updFlush acc) s (sec fun t => if x.buf = [] then stays t else sends x.buf true u.fl t ∧ sendsIn t) ∧
      Completes (.morselRecorded ok) s (fun t =>
        match x.prog, u.logPage with
        | some rs, some p =>
          let stop := nvi || ret
          if u.fl.op.isSome || x.again then stays t
          else if ok then
            (∀ k, k < 512 → t.byte (p + k) = (rs.getD (k / 256) []).getD (k % 256) 0) ∧
            (stop = true → t.upd = { x with prog := none, marks := x.marks ++ (List.range rs.length).map fun k => (rs.getD k [], p + 256 * k) } ∧
              t.fl = { u.fl with metas := insert u.fl.metas p (2 ^ 128 - 1), works := u.fl.works + 1, others := [] } ∧
              Within [] [] [(p, p + 512)] [.upd, .fl] [] u t) ∧
            (stop = false → x.marks = [] → rs.all (fun r => mIndex r < 5632) = true →
              let takes := fun (v : State) (i : Nat) => !(v.unit (74 + i / 256)).ret
              let fresh := (rs.map mIndex).eraseDups.filter fun i => blank u i && takes u i
              let next := x.buf.length == 2 || (x.flush && !x.buf.isEmpty)
              t.rd F.UPD_RXCNT = (u.rd F.UPD_RXCNT + (t.fired.drop u.fired.length).count 188) % 2 ^ 13 ∧
              (∀ i, i ∈ fresh → takes t i = true → t.leAt (word i) 8 / 2 ^ 56 = 0xA5 ∧
                (∀ r, rs.head? = some r → mIndex r = i → t.leAt (word i) 8 = 0xA5 * 2 ^ 56 + mImg r * 2 ^ 40 + p)) ∧
              t.upd = (if next then { x with prog := some x.buf, buf := [], flush := false, again := false } else { x with prog := none }) ∧
              if fresh.all (takes t) then
                t.fl = { u.fl with
                  metas := insert u.fl.metas p (2 ^ 128 - 1), works := u.fl.works + 1 + fresh.length + b2n next
                  others := if next then page t else [] } ∧
                t.fired = u.fired ++ List.replicate fresh.length 188 ∧
                Within [] [F.UPD_RXCNT] ((p, p + 512) :: fresh.map fun i => (word i, word i + 8)) [.upd, .fl, .freeSeq] [188] u t
              else
                Fires 177 u t ∧ Fires 182 u t ∧ Within [] marks ((p, p + 512) :: marksRam) [.upd, .fl, .freeSeq] [177, 182, 188] u t)
          else
            t.unit (unitOf p) = { u.unit (unitOf p) with ret := true, half := false } ∧ Fires 177 u t ∧ Fires 182 u t ∧
              (stop = true ∨ x.marks = [] → Counts F.FL_RETIRES u t ∧
                t.upd = { x with again := stop } ∧ t.fl.others = (if stop then [] else page t) ∧
                  Within [] [F.FL_RETMAIN_UNIT, F.FL_HALFMAIN_UNIT, F.FL_RETIRES] [(p, p + 512), (0x540000, 0x541000)] [.upd, .fl, .freeSeq] [177, 182] u t)
        | _, _ => stays t) ∧
      Completes (.updInstall acc vbat) s (sec fun t =>
        if iCode = 0 then
          t.rd F.UPD_STAT_INSTALLING = 1 ∧ t.rd F.UPD_IPROG_PAGES = 0 ∧
            t.fl = { u.fl with works := u.fl.works + 1, others := [u.idleSlot, 4] } ∧ Frame [F.UPD_STAT_INSTALLING, F.UPD_IPROG_PAGES] [.fl] [] u t
        else t.rd F.UPD_STAT_ICODE = iCode ∧ Counts F.UPD_REFUSED u t ∧ Frame [F.UPD_STAT_ICODE, F.UPD_REFUSED] [] [189] u t) ∧
      Completes (.installEnd e) s (fun t =>
        if inst = false ∨ nvi = true ∨ u.fl.op.isSome = true then stays t
        else if ret then abandoned 3 t ∧ installFrame t
        else match e with
          | .whole =>
            if logs = false then t.rd F.UPD_STAT_INSTALLING = 0 ∧ Fires 189 u t ∧ (t.rd F.UPD_ISTAT_DONE = 1 ∨ t.rd F.UPD_ISTAT_IABORT = 4)
            else if whole then
              t.rd F.UPD_STAT_INSTALLING = 0 ∧ t.rd F.UPD_ISTAT_DONE = 1 ∧ (pages ≠ 0 → t.rd F.UPD_IPROG_PAGES = pages) ∧ Fires 189 u t ∧
              (∀ p, p < pages → some (t.bytes (slot0 + 512 * p) 512) = u.installBytes p) ∧
              (BootTakes u t → t.bootRecords.getLast? = some (recOf 1 slot (t.flNum (slot0 + 16) 1) 0) ∧
                t.latest [3, 5] = u.latest [3, 5] ∧ t.latest [6, 7] = u.latest [6, 7]) ∧
              Within [] (installFlds ++ [F.UPD_ISTAT_DONE, F.UPD_BOOT_ACTSLOT, F.UPD_BOOT_LOCK, F.UPD_LOCKSEQ_LSEQ, F.FL_RETIRES])
                (slotRam ++ [(0x544000, 0x545000)]) [.fl, .freeSeq] [177, 178, 179, 181, 182, 189] u t
            else abandoned 4 t ∧ installFrame t
          | .erase blk =>
            if blk.toNat < blocks then abandoned 3 t ∧ (t.unit (16 * slot + blk.toNat)).ret = true ∧ erased (128 * blk.toNat) t ∧ installFrame t else stays t
          | .page p =>
            if p.toNat < pages then
              (if logs = false then abandoned 3 t ∨ abandoned 4 t
              else if (List.range p.toNat).all fun k => (u.installBytes k).isSome then
                abandoned 3 t ∧ (t.unit (16 * slot + p.toNat / 128)).ret = true ∧
                  (∀ k, k < p.toNat → some (t.bytes (slot0 + 512 * k) 512) = u.installBytes k)
              else abandoned 4 t) ∧ installFrame t
            else stays t) ∧
      Completes (.updConfirm acc) s (sec fun t =>
        if cCode (!started) ≠ 0 then coded (cCode (!started)) [] t
        else t.rd F.UPD_BOOT_ARB = max (u.rd F.UPD_BOOT_ARB) (min arb 64) ∧ t.rd F.UPD_STAT_CCODE = 0 ∧ t.fuse = { u.fuse with arb := t.rd F.UPD_BOOT_ARB } ∧
          ∀ w, trial = some w → record (recOf 3 (recSlot w) arb 0) [F.UPD_BOOT_ARB, F.UPD_STAT_CCODE] [F.UPD_TRIAL_ACTIVE] [.fuse] [] t) ∧
      Completes (.updRevert acc) s (sec fun t =>
        if cCode trial.isNone ≠ 0 then coded (cCode trial.isNone) [] t
        else t.rd F.UPD_STAT_CCODE = 0 ∧
          ∀ w, trial = some w → record (recOf 4 (recSlot w) (u.flNum (0x100000 * recSlot w + 16) 1) 0) [F.UPD_STAT_CCODE] [F.UPD_TRIAL_ACTIVE] [] [] t) ∧
      Completes (.updClear acc) s (sec fun t =>
        if busy then stays t
        else
          t.upd = { x with clearing := true, buf := [], prog := none, flush := false, again := false, marks := [] } ∧
            t.fl = { u.fl with works := u.fl.works + 1, others := units.map (· / 16) ++ [4] } ∧ Frame [] [.upd, .fl] [] u t) ∧
      Completes .updClearEnd s (fun t =>
        if x.clearing = true ∧ nvi = false ∧ u.fl.op = none then
          let kept := fun n => (t.unit n).ret || ret
          t.upd = { x with clearing := false } ∧ t.rd F.UPD_STAT_CAMP = 0 ∧ t.fl.others = [] ∧
          t.rd F.UPD_RXCNT = ((List.range 5632).filter fun i => kept (74 + i / 256) && !blank t i).length ∧
          (∀ i, i < 5632 → kept (74 + i / 256) = false → blank t i = true) ∧
          (∀ n, n ∈ units → kept n = false → ∀ k, k < 128 → t.bytes (0x10000 * n + 512 * k) 512 = List.replicate 512 0xFF) ∧
          Within [] ([F.UPD_STAT_CAMP, F.UPD_RXCNT, F.FL_RETIRES] ++ eraseFlds)
            ((0x540000, 0x541000) :: unitRam ((units ++ (List.range 22).map (74 + ·)).filter fun n => !(u.unit n).ret)) [.fl, .freeSeq, .upd] [177, 181, 182] u t
        else stays t) ∧
      Completes (.updLockcmd acc) s (sec fun t =>
        (lCode ≠ 1 → lCode ≠ 3 → inRam 96 && !closed 96 && u.segTouched a 96 → Counts F.BIST_HOLD u t) ∧
        if lCode ≠ 0 then coded lCode [F.BIST_HOLD] t
        else t.upd = { x with lock := some lock, lockAge := 656 } ∧ Frame [F.BIST_HOLD] [.upd] [] u t) ∧
      (u.c3.busy = false → Completes .c3Done s (fun t =>
        match x.lock with
        | none => stays t
        | some c =>
          let num := fun (o n : Nat) => leNat ((c.drop o).take n)
          t.upd.lock = none ∧ t.upd.lockAge = 0 ∧ { t.c3 with v := [], mod := 0 } = { u.c3 with v := [], mod := 0 } ∧
          counted false true t ∧
          if seen.sigOk (sha256 (natBytes (c.take 32))) (c.drop 32) then
            t.rd F.UPD_STAT_CCODE = 0 ∧
              record (recOf (if num 0 1 = 1 then 6 else 7) 0 0 (num 12 4)) (F.UPD_STAT_CCODE :: waitFlds) [] [.c3, .fl, .freeSeq] [178, 179] t
          else t.rd F.UPD_STAT_CCODE = 4 ∧ t.upd = { x with lock := none, lockAge := 0 } ∧
            Within [] (F.UPD_STAT_CCODE :: waitFlds) [] [.upd, .c3, .fl, .freeSeq] [178, 179] u t))) ∧
    Completes .trialPeriod s (fun t =>
      if u.aonUp = false ∨ u.on F.UPD_TRIAL_ACTIVE = false ∨ left = 0 then stays t
      else t.rd F.UPD_TRIAL_LEFT = left - 1 ∧
        if left = 1 then t.rd F.PWR_RSTCAUSE_WDT = 1 ∧ Counts F.PWR_WDTEXP u t ∧ CoreReset [F.UPD_TRIAL_LEFT, F.PWR_RSTCAUSE_WDT, F.PWR_WDTEXP] u t
        else t.upd = { x with trial := x.period } ∧ Frame [F.UPD_TRIAL_LEFT] [.upd] [] u t)

/-! ### Start-up and recovery (R353 to R358, R439 to R442) -/

/-- The release of a reset (R16, R353, R355 to R357, R409, R439, R441, R442, R450, R453, R461, R462): what the hardware finds, the configuration
record that is in force and its fields, the campaign that goes on, the choice of a slot with the records it writes, or the wait for the flash
that takes them, the handover, and HOLD; and the parts of a recovery blob (R358). What of a campaign a loss of both supplies leaves is
notes/assumptions/52.md.

The flags of UPD_BOOT across boots are notes/assumptions/54.md; the cause of recovery's reset notes/assumptions/55.md; tables that the fine area
does not hold notes/assumptions/56.md; the supply bits at a release notes/assumptions/57.md; how the device reads flash notes/assumptions/85.md. -/
def Obligations.StartUp : Prop :=
  ∀ (r : Release) (frame : List Byte) (s : State),
    let u := settle s
    let stays := fun t => Frame [] [] [] u t
    let aon := u.boot.aon
    let v := journalScan u
    let supply := fun (f : Fld) (b : Bool) (t : State) => t.on f = if aon then b else u.on f
    let held := fun t : State => t.on F.PWR_STAT_HOLD = true ∧ t.rd F.DBG_STAT_MAX = 2 ∧ Fires 12 u t ∧ t.boot.handedOver = u.boot.handedOver
    let listens := fun t : State =>
      held t ∧ t.on F.SYS_CLK_XOEN = true ∧ t.on F.MAC_CTL_EN = false ∧ t.on F.FE_CTL_EN = true ∧ t.on F.MOD_CTL_EN = true ∧
        t.on (F.LANE_CFG_EN 0) = true ∧ t.rd (F.LANE_CFG_BW 0) = 1 ∧ t.rd (F.LANE_CFG_ORD 0) = 32 ∧ t.rd F.MOD_NID_NID = 0x3FF ∧
        t.on (F.LANE_CTL_SRCH 0) = true ∧ t.rd F.FE_CFG_BAND = (if Config.lowBand then 0 else 1) ∧
        t.rd F.FE_LO_INT = (if Config.lowBand then 13 else 27) ∧ t.rd F.FE_LO_FRAC = (if Config.lowBand then 0x96CCCD else 0x306666)
    let applied := fun (j : Nat) (t : State) =>
      let b := fun k n : Nat => t.flNum (0x541010 + 0x800 * j + k) n
      t.rd F.PWR_NVI_LEVEL = b 1 1 ∧ t.rd F.PWR_VBATWARN_LEVEL = b 2 1 ∧ t.rd F.PWR_RET_BANK = b 4 2 ∧ t.rd F.PWR_RET_CTX = b 6 1 ∧
        t.rd F.PWR_RESTCTL_EN = b 7 1 ∧ t.rd F.PWR_WDTCFG_PER = b 8 2 ∧ t.rd F.SYS_ROLE_ROLE.stg = b 0 1 ∧ t.on F.SYS_COMMIT_PEND = true ∧
        t.rd F.TB_CFG_HZ.stg = b 3 1 ∧ (t.rd F.TB_STAT_STATE = tbVirtual → t.on F.TB_COMMIT_PEND = true) ∧
        t.rd F.BIST_CTL_EN = b 34 1 ∧ t.rd F.UPD_VMIN_LEVEL = b 35 1 ∧ t.rd F.BIST_CFG_PER = b 38 2 ∧ t.upd.period = 128 * b 8 2 ∧
        t.rd F.DBG_STAT_LEVEL = min (if 171 ∈ t.fired.drop u.fired.length then 0 else u.rd F.DBG_STAT_LEVEL) (b 33 1) ∧
        (∀ k, k < 16 → t.ramLoss.getD k 0 = u.ramLoss.getD k 0 + if bitOf (b 36 2) k then 1 else 0) ∧
        (((List.range 16).any fun k => bitOf (b 36 2) k && bitOf r.memFail.toNat k) = true → Fires 191 u t) ∧
        (∀ k, k < 16 → bitOf (t.rd F.BIST_MEMRET_BANK) k = (bitOf (u.rd F.BIST_MEMRET_BANK) k || (bitOf (b 36 2) k && bitOf r.memFail.toNat k)))
    let parked := fun t : State => t.bstate 0 = stParked ∧ t.rd (F.BRN_STAT_PARKF 0) = 1 ∧ Fires 16 u t
    let chosen := fun (j : Nat) (t : State) =>
      let good := fun n => t.imageCode n = 0
      let wrote := fun x : Nat => u.on F.FL_STAT_RET = false → t.bootRecords.getLast? = some x
      let trialN := t.flNum (0x541010 + 0x800 * j + 32) 1
      let w := v.pendingTrial.getD 0
      let try_ := v.pendingTrial.isSome && recKind w == 1
      let go := v.pendingTrial.isSome && recKind w == 2 && u.on F.UPD_TRIAL_ACTIVE && u.rd F.UPD_TRIAL_LEFT != 0
      let started := (try_ || go) && t.imageCode (recSlot w) == 0
      let reverts := v.pendingTrial.isSome && !started
      let falls := !started && t.imageCode v.bootSlot != 0 && t.imageCode v.otherSlot == 0
      let slot := if started then recSlot w else if falls then v.otherSlot else v.bootSlot
      if t.flFree = false ∧ (reverts = true ∨ falls = true ∨ (started && try_) = true) then
        t.boot.wait = some .journal ∧ t.boot.handedOver = u.boot.handedOver ∧ t.on F.PWR_STAT_HOLD = u.on F.PWR_STAT_HOLD
      else
        t.boot.wait = (if started = true ∨ falls = true ∨ good v.bootSlot then none else u.boot.wait) ∧
        t.on F.UPD_BOOT_REVERTED = reverts ∧
        t.rd F.UPD_REVERTS = min (u.rd F.UPD_REVERTS + if reverts && !try_ then 1 else 0) 65535 ∧
        (started = true → try_ = true → t.on F.UPD_TRIAL_ACTIVE = true ∧ t.rd F.UPD_TRIAL_SLOT = recSlot w ∧ t.rd F.UPD_TRIAL_LEFT = trialN ∧
          t.rd F.UPD_TRIAL_EXPS = 0 ∧ wrote (recOf 2 (recSlot w) (t.flNum (0x100000 * recSlot w + 16) 1) 0)) ∧
        (reverts = true → falls = false → t.on F.UPD_TRIAL_ACTIVE = false ∧
          wrote (recOf 4 (recSlot w) (t.flNum (0x100000 * recSlot w + 16) 1) 0)) ∧
        (falls = true → t.on F.UPD_BOOT_FALLBACK = true ∧
          wrote (recOf 5 v.otherSlot (t.flNum (0x100000 * v.otherSlot + 16) 1) 0)) ∧
        if started = true ∨ falls = true ∨ good v.bootSlot then
          t.boot.handedOver = true ∧ t.rd F.UPD_BOOT_RUNSLOT = slot ∧ t.rd (F.BRN_CBASE_BASE 0) = 0x100000 * slot + 0x100 ∧
            t.rd (F.BRN_CLIM_LAST 0) = t.flNum (0x100000 * slot + 24) 2 ∧ t.pc 0 = t.flNum (0x100000 * slot + 26) 2 ∧
            t.on F.PWR_STAT_HOLD = u.on F.PWR_STAT_HOLD ∧
            if u.on F.DBG_CTL_HALTBOOT ∧ t.rd F.DBG_STAT_LEVEL = 2 then parked t else t.bstate 0 = u.bstate 0
        else listens t
    Completes (.resetRelease r) s (fun t =>
      if u.boot.held = false ∧ u.boot.started = true then stays t
      else
        t.boot.held = false ∧ t.boot.aonDown = false ∧ t.boot.started = true ∧ t.boot.aon = false ∧
        t.on F.PWR_STRAP_LAMPSAFE = r.lamp ∧ t.rd F.HP_STAT_HID = r.hid.toNat ∧ t.on F.HP_STAT_HMODE = r.hmode ∧ t.rd F.PWR_TEMP_DEG = r.temp.toNat ∧
        t.rd F.MAC_EXT_EUI = Config.fuseEui % 2 ^ 64 ∧ t.on F.LARDER_POLICY_MODE = Config.fuseLatched ∧
        t.rd F.UPD_BOOT_ARB = u.fuse.arb % 2 ^ F.UPD_BOOT_ARB.w ∧ t.on F.DBG_STAT_KILLED = Config.fuseKilled ∧ (aon = true → t.rd F.TB_INC_INC = t.tbNominal) ∧
        supply F.PWR_STAT_ONBAT r.onBat t ∧ supply F.PWR_STAT_MAINOK r.mainOk t ∧ supply F.PWR_STAT_NVILOW r.nviLow t ∧
        supply F.PWR_STAT_VBATLOW r.vbatLow t ∧ supply F.PWR_STAT_VDDIOLOW r.vddioLow t ∧
        t.on F.FL_STAT_READY = true ∧ t.on F.UPD_STAT_READY = true ∧ (aon = true → t.on F.LAR_STAT_READY = true) ∧
        t.rd F.UPD_RXCNT = ((List.range 5632).filter fun i => t.leAt (0x545000 + 8 * i) 8 != 2 ^ 64 - 1 || (t.cellQual (0x545000 + 8 * i)).unc).length ∧
        (u.on F.UPD_STAT_CAMP = false → match ((List.range 5632).filter t.recorded).filterMap t.keptRecord with
          | [] => t.on F.UPD_STAT_CAMP = false
          | (_, m) :: _ => t.on F.UPD_STAT_CAMP = true ∧ t.rd F.UPD_CAMP_IMGID = mImg m ∧ t.rd F.UPD_CAMP_COUNT = mCount m) ∧
        (u.upd.cut = true → t.upd.cut = false ∧ t.rd F.UPD_ISTAT_IABORT = 1 ∧ t.on F.UPD_STAT_INSTALLING = false ∧ Fires 189 u t) ∧
        (r.pipeOk = false → held t ∧ Fires 191 u t ∧ bitOf (t.rd F.BIST_RET_PART) 19 = true ∧ parked t) ∧
        (r.pipeOk = true → v.bootSeqLeft = true → (t.unit 72).ret = false → (t.unit 73).ret = false →
          let c0 := t.copyCode 0
          let c1 := t.copyCode 1
          t.rd F.PWR_CFGSTAT_C0CODE = c0 ∧ t.rd F.PWR_CFGSTAT_C1CODE = c1 ∧ (c0 ≠ 0 ∨ c1 ≠ 0 → Fires 13 u t) ∧
          t.on F.RTC_COMPCTL_CALBAD = !r.rtcCal ∧ t.on F.FE_STAT_CALBAD = (!r.pwrCal || !r.gainCal) ∧
          let newer := t.flNum 0x541004 4 < t.flNum 0x541804 4
          if c0 ≠ 0 ∧ c1 ≠ 0 then t.rd F.PWR_CFGSTAT_SEL = 2 ∧ listens t
          else
            let j := if c0 ≠ 0 ∨ (c1 = 0 ∧ newer) then 1 else 0
            t.rd F.PWR_CFGSTAT_SEL = j ∧ t.rd F.PWR_CFGSTAT_SEQ = t.flNum (0x541004 + 0x800 * j) 4 ∧ applied j t ∧ chosen j t)) ∧
    (u.coreUp = true → Completes (.recoveryPart frame) s fun t =>
      (recoveryPart frame = none ∨ u.on F.PWR_STAT_HOLD = false ∨ bitOf (u.rd F.BIST_RET_PART) 19 = true ∨ u.boot.wait.isSome = true → stays t) ∧
      (u.on F.PWR_STAT_HOLD = true → bitOf (u.rd F.BIST_RET_PART) 19 = false → u.boot.wait = none → ∀ x, recoveryPart frame = some x →
        let same := u.boot.blobLen == x.2.2.1 && u.boot.blobParts == x.2.1
        let parts := insert (if same then u.boot.parts else []) x.1 x.2.2.2
        let blob := parts.flatMap (·.2)
        let rec_ := blob.take (blob.length - 64)
        let boot := { u.boot with parts := [], blobLen := 0, blobParts := 0 }
        let good := decide (64 < blob.length) && u.sigOk (sha256 (natBytes ((leBytes 8 (u.rd F.MAC_EXT_EUI)).reverse ++ rec_))) (blob.drop (blob.length - 64)) &&
          rec_.length == 24 + cfgLen rec_ && cfgCode rec_ true == 0
        if parts.length ≠ x.2.1 then
          t.boot = { u.boot with parts := parts, blobLen := x.2.2.1, blobParts := x.2.1 } ∧ Frame [] [.boot] [] u t
        else if good = false then t.boot = boot ∧ Frame [] [.boot] [] u t
        else if u.flFree = false then t.boot = { boot with wait := some (.recovery rec_) } ∧ Frame [] [.boot] [] u t
        else t.boot.held = true ∧ t.boot.parts = [] ∧ t.rd F.PWR_RSTCAUSE_SWCORE = 1 ∧ t.on F.PWR_STAT_HOLD = false ∧
          (u.on F.FL_STAT_RET = false → ∀ j, j < 2 → (t.unit (66 + j)).ret = false → t.bytes (0x541000 + 0x800 * j) rec_.length = rec_)))

/-! ### Self-test and the debug port (R458 to R467) -/

/-- Passes, slices and memory segments (R42, R457 to R461): where a pass goes on, what a slice's result does, what its retirement reaches,
and what the slice held, which its end lets go on.

The numbers of the partitions are notes/assumptions/18.md; the bank of a memory pass notes/assumptions/58.md; how long a use keeps a partition busy
notes/assumptions/59.md, which also has what becomes of an adverb; a held firing notes/assumptions/86.md; what waits for the cipher engine
notes/assumptions/93.md; a write of a port's EN notes/assumptions/98.md. -/
def Obligations.SelfTest : Prop :=
  ∀ (busy : BitVec 19) (ok : Bool) (s : State),
    let u := settle s
    let stays := fun t => Frame [] [] [] u t
    let flds := [F.BIST_STAT_RUN, F.BIST_STAT_PART, F.BIST_STAT_SLICE, F.BIST_DEFER]
    let seeks := fun i => u.cpSt i == cpOff && u.on (F.CP_CTL_EN i) && u.on F.SYS_CLK_XORDY && !u.on (F.CP_STAT_RET i)
    let holds := fun p : Nat =>
      if p = 8 ∨ p = 9 then (u.cpx (p - 8)).enHeld.isSome || seeks (p - 8)
      else if p = 10 then !u.bist.adverbs.isEmpty || !u.fwd.waits.isEmpty || !u.fwd.cutWait.isEmpty
      else if p = 11 then !u.fwd.waits.isEmpty || !u.fwd.cutWait.isEmpty
      else if p = 12 then !u.fwd.waits.isEmpty
      else if p = 15 then !u.fl.cmds.isEmpty
      else if p = 18 then !u.bist.adverbs.isEmpty
      else if p = 13 then !u.fe.held.isEmpty || (u.fe_st == feStby && (u.on F.FE_STAT_RXREQ || u.fe.tx.isSome))
      else if p = 14 then !u.tb.beacons.isEmpty
      else if p = 16 then !u.whiskHeld.isEmpty
      else if p = 17 then u.hp.missed || u.hp.goWait
      else false
    let pass := fun t : State =>
      if u.on F.BIST_CTL_EN && !u.bist.run then
        BistGoes busy.toNat 0 (u.rd F.BIST_DEFER) { u with bist := { u.bist with run := true } } t ∧ Frame flds [.bist, .bistPart, .whiskTest] [] u t
      else stays t
    (u.coreUp = true → Completes (.bistGo busy) s pass ∧ Completes (.bistPass busy) s pass) ∧
    (u.coreUp = true → u.bistPart = none → Completes (.bistSliceEnd ok busy) s stays) ∧
    (u.coreUp = true → ∀ p, u.bistPart = some p → p < 19 → Completes (.bistSliceEnd ok busy) s fun t =>
      let n := u.bist.next.getD p 0
      let susp := bitOf (u.rd F.BIST_SUSP_PART) p
      let again := !ok && !susp
      let retired := !ok && susp
      let group := bitOf (u.rd F.WHISK_GRPRET_RET)
      Counts F.BIST_SLICES u t ∧ Fires 190 u t ∧ BistGoes busy.toNat (p + 1) (u.rd F.BIST_DEFER) { u with bistPart := none } t ∧
      (∀ q, q < 19 → bitOf (t.rd F.BIST_SUSP_PART) q = if q = p then again else bitOf (u.rd F.BIST_SUSP_PART) q) ∧
      t.rd F.BIST_TRANSIENT = min (u.rd F.BIST_TRANSIENT + if ok && susp then 1 else 0) 65535 ∧
      t.bist.next.getD p 0 = (if again then n else (n + 1) % [8, 8, 8, 8, 8, 8, 8, 8, 12, 12, 6, 10, 6, 6, 2, 4, 8, 3, 8].getD p 1) ∧
      (retired = false → ∀ q, q < 20 → bitOf (t.rd F.BIST_RET_PART) q = bitOf (u.rd F.BIST_RET_PART) q) ∧
      (retired = true → Fires 191 u t ∧
        (p ≠ 16 → ∀ q, q < 20 → bitOf (t.rd F.BIST_RET_PART) q = (bitOf (u.rd F.BIST_RET_PART) q || q == p)) ∧
        (p = 16 → n < 8 → (∀ g, g < 8 → bitOf (t.rd F.WHISK_GRPRET_RET) g = (group g || g == n)) ∧
          bitOf (t.rd F.BIST_RET_PART) 16 = (bitOf (u.rd F.BIST_RET_PART) 16 || (List.range 8).all fun g => group g || g == n)) ∧
        (p < 8 → bitOf (t.rd F.MOD_RET_RET) p = true) ∧ (p = 8 ∨ p = 9 → t.cpSt (p - 8) = cpRetired) ∧
        (p = 12 → t.on F.MAC_CTL_EN = false) ∧ (p = 15 → t.on F.FL_STAT_RET = true) ∧ (p = 17 → t.on F.HP_STAT_PRET = true) ∧
        (p = 11 → t.on F.FWD_CTL_EN = false) ∧ (p = 18 → t.cpresent = (t.cpresent &&& 4))) ∧
      (p = 8 ∨ p = 9 → (t.cpx (p - 8)).enHeld = none ∧
        match (u.cpx (p - 8)).enHeld with
        | none => retired = false → seeks (p - 8) = true → t.cpSt (p - 8) = u.cpBase (p - 8)
        | some true => t.on (F.CP_CTL_EN (p - 8)) = true ∧ (retired = false → u.cpSt (p - 8) = cpOff → u.on F.SYS_CLK_XORDY = true →
            u.on (F.CP_STAT_RET (p - 8)) = false → t.cpSt (p - 8) = u.cpBase (p - 8))
        | some false => t.on (F.CP_CTL_EN (p - 8)) = false ∧ (retired = false → t.cpSt (p - 8) = if u.cpSt (p - 8) = cpRetired then cpRetired else cpOff)) ∧
      (p = 10 ∨ p = 11 ∨ p = 12 → t.fwd.waits = []) ∧ (p = 10 ∨ p = 11 → t.fwd.cutWait = []) ∧ (p = 10 ∨ p = 18 → t.bist.adverbs = []) ∧
      (p = 15 → t.fl.cmds = []) ∧
      (p = 14 → t.tb.beacons = [] ∧ (u.tb.beacons ≠ [] → t.tb.busyAge = 2)) ∧
      (p = 16 → t.whiskHeld = [] ∧ t.whiskTest = none) ∧
      (p = 17 → t.hp.missed = false ∧ t.hp.goWait = false ∧ (u.hp.missed = true → t.on F.HP_ERR_MISSED = true)) ∧
      (p = 13 → t.fe.held = [] ∧ (.tx ∈ u.fe.held → t.fe.req = none) ∧
        (retired = false → u.fe_st = feStby →
          (u.fe.held.head? = some .cal → t.fe_st = feCalSt) ∧
          (u.fe.held = [] → u.on F.FE_STAT_RXREQ = true ∨ u.fe.tx.isSome = true → t.fe_st = feSynth))) ∧
      (holds p = false → retired = false →
        Frame ([F.BIST_SLICES, F.BIST_SUSP_PART, F.BIST_TRANSIENT] ++ flds) [.bist, .bistPart, .whiskTest] [190] u t) ∧
      (p = 15 ∨ p = 18 → retired = true → holds p = false →
        Frame ([F.BIST_SLICES, F.BIST_SUSP_PART, F.BIST_RET_PART, F.FL_STAT_RET] ++ flds) [.bist, .bistPart, .whiskTest] [190, 191] u t)) ∧
    (u.coreUp = true → Completes (.memSegmentEnd ok) s fun t =>
      if u.bist.seg = false then stays t
      else
        t.bist.run = false ∧ t.bist.seg = false ∧ t.rd F.BIST_STAT_RUN = 0 ∧
        (∀ c, c < 16 → t.bist.segs.getD c 0 = if c = u.bist.bank then (u.bist.segs.getD c 0 + 1) % 8 else u.bist.segs.getD c 0) ∧
        (∀ c, c < 16 → bitOf (t.rd F.BIST_MEMRET_BANK) c = (bitOf (u.rd F.BIST_MEMRET_BANK) c || (!ok && c == u.bist.bank))) ∧
        Frame [F.BIST_STAT_RUN, F.BIST_MEMRET_BANK] [.bist] (if ok then [] else [191]) u t)

/-- The debug port (R463 to R467): the answers of a transaction, none of a killed port or where VDDIO is absent (R475;
notes/assumptions/95.md), one that is pending and its repetition; authentication with its lockout,
the level, and the reset of the core domain.

The order of several actions is notes/assumptions/64.md; byte orders and malformed headers notes/assumptions/66.md; the order of a verdict
notes/assumptions/14.md. -/
def Obligations.DebugPort : Prop :=
  ∀ (acc : Fin 18) (hdr : BitVec 8) (addr : BitVec 24) (wdata : BitVec 32) (rcrc : BitVec 8) (done : Bool) (lvl : BitVec 2) (s : State),
    let u := settle s
    let stays := fun t => Frame [] [] [] u t
    let a := addr.toNat
    let n := 2 ^ (hdr.toNat / 2 % 4)
    let killed := u.on F.DBG_STAT_KILLED
    let bytesOf := fun (k v : Nat) => (List.range k).map fun i => v / 2 ^ (8 * (k - 1 - i)) % 256
    let level := u.rd F.DBG_STAT_LEVEL
    let tells := fun (st : Option DbgStatus) (p : Option DbgPend) (d : DbgState) (t : State) =>
      t.dbg = { d with status := st, rdata := none, dcrc := none, pend := p }
    let gives := fun (v : Nat) (d : DbgState) (t : State) =>
      t.dbg = { d with status := some .done, rdata := some v, dcrc := some (crc8 (6 :: bytesOf 4 v)), pend := none }
    let flash := a / 0x1000 == 0x50F && flLocked (a % 0x1000) && (!u.accSecure 17 || u.on F.FL_LOCK_LOCK)
    let transact := fun (write : Bool) (t : State) =>
      let wd := if write then wdata.toNat else 0
      let op := if write then 2 else 1
      let wr := busWrite 17 a n (wd % 2 ^ (8 * n)) u
      let rd := busRead 17 a n u
      let performs :=
        if write then
          (∀ v, wr.1 = .ok v → tells (some (if flash then .refused else .done)) none wr.2.dbg t ∧ Frame [] [.dbg] [] wr.2 t) ∧
          (wr.1 = .security → tells (some .refused) none u.dbg t ∧ Frame [] [.dbg] [] u t) ∧
          (wr.1 = .bus → tells (some .refused) none u.dbg t ∧ t.rd F.SYS_ACCERR_UNMAPPED = 1 ∧ t.rd F.SYS_ACCERR_ACCESSOR = 17 ∧
            Frame [F.SYS_ACCERR_UNMAPPED, F.SYS_ACCERR_ACCESSOR] [.dbg] [2] u t)
        else
          (∀ v, rd.1 = .ok v → gives v rd.2.dbg t ∧ Frame [] [.dbg] [] rd.2 t) ∧
          (rd.1 = .security → tells (some .refused) none u.dbg t ∧ Frame [] [.dbg] [] u t) ∧
          (rd.1 = .bus → tells (some .refused) none u.dbg t ∧ t.rd F.SYS_ACCERR_UNMAPPED = 1 ∧ t.rd F.SYS_ACCERR_ACCESSOR = 17 ∧
            Frame [F.SYS_ACCERR_UNMAPPED, F.SYS_ACCERR_ACCESSOR] [.dbg] [2] u t)
      let holds := fun (refused : Bool) (v : Nat) (w : State) =>
        tells (some .busy) (some ⟨hdr.toNat, a, wd, refused, v⟩) w.dbg t ∧ Frame [] [.dbg] [] w t
      if u.boot.aonDown then stays t
      else if killed || u.on F.PWR_STAT_VDDIOLOW then tells none u.dbg.pend u.dbg t ∧ Frame [] [.dbg] [] u t
      else if u.inRest then tells (some .busy) u.dbg.pend u.dbg t ∧ Frame [] [.dbg] [] { u with pwr := { u.pwr with wake := true } } t
      else if hdr.toNat / 32 ≠ 2 ∨ hdr.toNat / 8 % 4 ≠ op ∨ hdr.toNat / 2 % 4 = 3 ∨ hdr.toNat % 2 = 1 then
        tells (some .refused) u.dbg.pend u.dbg t ∧ Frame [] [.dbg] [] u t
      else if rcrc.toNat ≠ crc8 (hdr.toNat :: bytesOf 3 a ++ if write then bytesOf 4 wd else []) then
        tells (some .crcerr) u.dbg.pend u.dbg t ∧ t.rd F.DBG_STAT_CERR = 1 ∧ Frame [F.DBG_STAT_CERR] [.dbg] [] u t
      else match u.dbg.pend with
        | none =>
          if done then performs
          else if write then (∀ v, wr.1 = .ok v → holds flash 0 wr.2) ∧ (wr.1 = .security → holds true 0 u)
          else (∀ v, rd.1 = .ok v → holds false v rd.2) ∧ (rd.1 = .security → holds true 0 u)
        | some p =>
          if done = false then tells (some .busy) (some p) u.dbg t ∧ Frame [] [.dbg] [] u t
          else if p.hdr = hdr.toNat ∧ p.addr = a ∧ p.wdata = wd then
            (if p.refused then tells (some .refused) none u.dbg t else if write then tells (some .done) none u.dbg t else gives p.data u.dbg t) ∧
              Frame [] [.dbg] [] u t
          else performs
    let answer := bytesNum (cmac dbgKey ((bytesOf 16 (u.rd F.DBG_CHAL_VAL)).reverse ++ bytesOf 8 (u.rd F.MAC_EXT_EUI) ++ [lvl.toNat]))
    let fails := min (u.rd F.DBG_CONSEC_VAL + 1) 255
    let drop := fun t : State => t.rd F.DBG_STAT_LEVEL = 0 ∧ Frame [F.DBG_STAT_LEVEL] [] [] u t
    Completes (.dbgRead hdr addr rcrc done) s (transact false) ∧
    Completes (.dbgWrite hdr addr wdata rcrc done) s (transact true) ∧
    Completes .dbgResync s stays ∧
    (level = 0 → a ≠ 0x513000 → (a < 0x500000 ∨ 0x500003 < a) → a / 0x1000 ≠ 0x513 → (busRead 17 a n u).1 = .security ∧ (busWrite 17 a n 0 u).1 = .security) ∧
    (level = 2 → u.accSecure 17 = true) ∧ (level = 1 → u.accSecure 17 = false) ∧
    (u.coreUp = true →
      Completes (.dbgAuth lvl) s (fun t =>
        if killed then stays t
        else t.rd F.DBG_CTL_REQLVL = lvl.toNat ∧
          if u.on F.DBG_STAT_LOCKED then Frame [F.DBG_CTL_REQLVL] [] [] u t
          else t.freeSeq = u.freeSeq + 1 ∧
            if u.rd F.DBG_RESP_VAL = answer then
              t.rd F.DBG_STAT_LEVEL = min lvl.toNat (u.rd F.DBG_STAT_MAX) ∧ t.rd F.DBG_CONSEC_VAL = 0 ∧
                Frame [F.DBG_CTL_REQLVL, F.DBG_STAT_LEVEL, F.DBG_CONSEC_VAL, F.DBG_CHAL_VAL] [.freeSeq] [] u t
            else Counts F.DBG_FAILS u t ∧ t.rd F.DBG_CONSEC_VAL = fails ∧
              if fails < 3 then Frame [F.DBG_CTL_REQLVL, F.DBG_FAILS, F.DBG_CONSEC_VAL, F.DBG_CHAL_VAL] [.freeSeq] [] u t
              else t.rd F.DBG_STAT_LOCKED = 1 ∧ t.rd F.DBG_LOCKLEFT_VAL = min 4096 (2 ^ (fails - 3)) ∧ t.dbg = { u.dbg with lock := 32768 } ∧
                Frame [F.DBG_CTL_REQLVL, F.DBG_FAILS, F.DBG_CONSEC_VAL, F.DBG_CHAL_VAL, F.DBG_STAT_LOCKED, F.DBG_LOCKLEFT_VAL] [.freeSeq, .dbg] [] u t) ∧
      Completes .dbgNewchal s (fun t => if killed then stays t else t.freeSeq = u.freeSeq + 1 ∧ Frame [F.DBG_CHAL_VAL] [.freeSeq] [] u t) ∧
      Completes (.dbgDrop acc) s (fun t =>
        if acc = 17 then (if killed then stays t else drop t)
        else if acc.val < 16 ∧ u.accSecure acc = true then drop t
        else t.rd F.BRN_ERR_WERR = 1 ∧ t.rd F.BRN_ERR_ACCESSOR = acc ∧ Frame [F.BRN_ERR_WERR, F.BRN_ERR_ACCESSOR] [] [] u t) ∧
      Completes .dbgCorerst s (fun t =>
        if killed = true ∨ level = 0 then stays t else t.rd F.PWR_RSTCAUSE_DEBUG = 1 ∧ CoreReset [F.PWR_RSTCAUSE_DEBUG] u t)) ∧
    Completes .dbgLockoutEnd s (fun t =>
      if u.aonUp = false ∨ u.on F.DBG_STAT_LOCKED = false then stays t
      else t.rd F.DBG_STAT_LOCKED = 0 ∧ t.rd F.DBG_LOCKLEFT_VAL = 0 ∧ t.dbg = { u.dbg with lock := 0 } ∧
        Frame [F.DBG_STAT_LOCKED, F.DBG_LOCKLEFT_VAL] [.dbg] [] u t)
end

