-- ==== Sys2Proof/Laws/State.lean ====
section
/-! SUPPORT. One lemma per field of State and update: the update leaves the field alone, or is its new value. -/

namespace Sys2Proof.Machine

variable (s : State)

/-! ### Every writer of a field of the register file is `wr` -/

@[simp] theorem State.set1_eq (f : Fld) : s.set1 f = s.wr f 1 := rfl
@[simp] theorem State.clr_eq (f : Fld) : s.clr f = s.wr f 0 := rfl
@[simp] theorem State.wrB_eq (f : Fld) (b : Bool) : s.wrB f b = s.wr f (b2n b) := rfl
@[simp] theorem State.setBit_eq (f : Fld) (i : Nat) : s.setBit f i = s.wr f (orBit (s.rd f) i) := rfl
@[simp] theorem State.clrBit_eq (f : Fld) (i : Nat) : s.clrBit f i = s.wr f (clearMask (s.rd f) (1 <<< i)) := rfl
@[simp] theorem State.inc_eq (f : Fld) : s.inc f = s.wr f (min (s.rd f + 1) (2 ^ f.w - 1)) := rfl
@[simp] theorem State.incW_eq (f : Fld) : s.incW f = s.wr f (s.rd f + 1) := rfl

/-! ### Fields of State under each update -/
@[simp] theorem State.wr_pending (f : Fld) (v : Nat) : (s.wr f v).pending = s.pending := rfl
theorem State.wr_regs (f : Fld) (v : Nat) : (s.wr f v).regs = insert s.regs f.bit (v % 2 ^ f.w) := rfl
@[simp] theorem State.wr_mem (f : Fld) (v : Nat) : (s.wr f v).mem = s.mem := rfl
@[simp] theorem State.wr_ramLoss (f : Fld) (v : Nat) : (s.wr f v).ramLoss = s.ramLoss := rfl
@[simp] theorem State.wr_latches (f : Fld) (v : Nat) : (s.wr f v).latches = s.latches := rfl
@[simp] theorem State.wr_holds (f : Fld) (v : Nat) : (s.wr f v).holds = s.holds := rfl
@[simp] theorem State.wr_busData (f : Fld) (v : Nat) : (s.wr f v).busData = s.busData := rfl
@[simp] theorem State.wr_taskq (f : Fld) (v : Nat) : (s.wr f v).taskq = s.taskq := rfl
@[simp] theorem State.wr_fired (f : Fld) (v : Nat) : (s.wr f v).fired = s.fired := rfl
@[simp] theorem State.wr_freeSeq (f : Fld) (v : Nat) : (s.wr f v).freeSeq = s.freeSeq := rfl
@[simp] theorem State.wr_rest (f : Fld) (v : Nat) : (s.wr f v).rest = s.rest := rfl
@[simp] theorem State.wr_whiskTest (f : Fld) (v : Nat) : (s.wr f v).whiskTest = s.whiskTest := rfl
@[simp] theorem State.wr_whiskHeld (f : Fld) (v : Nat) : (s.wr f v).whiskHeld = s.whiskHeld := rfl
@[simp] theorem State.wr_whiskAge (f : Fld) (v : Nat) : (s.wr f v).whiskAge = s.whiskAge := rfl
@[simp] theorem State.wr_cyc (f : Fld) (v : Nat) : (s.wr f v).cyc = s.cyc := rfl
@[simp] theorem State.wr_rr (f : Fld) (v : Nat) : (s.wr f v).rr = s.rr := rfl
@[simp] theorem State.wr_brn (f : Fld) (v : Nat) : (s.wr f v).brn = s.brn := rfl
@[simp] theorem State.wr_c3 (f : Fld) (v : Nat) : (s.wr f v).c3 = s.c3 := rfl
@[simp] theorem State.wr_tb (f : Fld) (v : Nat) : (s.wr f v).tb = s.tb := rfl
@[simp] theorem State.wr_mod (f : Fld) (v : Nat) : (s.wr f v).mod = s.mod := rfl
@[simp] theorem State.wr_fe (f : Fld) (v : Nat) : (s.wr f v).fe = s.fe := rfl
@[simp] theorem State.wr_boot (f : Fld) (v : Nat) : (s.wr f v).boot = s.boot := rfl
@[simp] theorem State.wr_bistPart (f : Fld) (v : Nat) : (s.wr f v).bistPart = s.bistPart := rfl
@[simp] theorem State.wr_cp (f : Fld) (v : Nat) : (s.wr f v).cp = s.cp := rfl
@[simp] theorem State.wr_fwd (f : Fld) (v : Nat) : (s.wr f v).fwd = s.fwd := rfl
@[simp] theorem State.wr_mac (f : Fld) (v : Nat) : (s.wr f v).mac = s.mac := rfl
@[simp] theorem State.wr_ciph (f : Fld) (v : Nat) : (s.wr f v).ciph = s.ciph := rfl
@[simp] theorem State.wr_hp (f : Fld) (v : Nat) : (s.wr f v).hp = s.hp := rfl
@[simp] theorem State.wr_fl (f : Fld) (v : Nat) : (s.wr f v).fl = s.fl := rfl
@[simp] theorem State.wr_fuse (f : Fld) (v : Nat) : (s.wr f v).fuse = s.fuse := rfl
@[simp] theorem State.wr_rtc (f : Fld) (v : Nat) : (s.wr f v).rtc = s.rtc := rfl
@[simp] theorem State.wr_lio (f : Fld) (v : Nat) : (s.wr f v).lio = s.lio := rfl
@[simp] theorem State.wr_pwr (f : Fld) (v : Nat) : (s.wr f v).pwr = s.pwr := rfl
@[simp] theorem State.wr_upd (f : Fld) (v : Nat) : (s.wr f v).upd = s.upd := rfl
@[simp] theorem State.wr_bist (f : Fld) (v : Nat) : (s.wr f v).bist = s.bist := rfl
@[simp] theorem State.wr_dbg (f : Fld) (v : Nat) : (s.wr f v).dbg = s.dbg := rfl
@[simp] theorem State.resetRange_pending (lo hi : Nat) : (s.resetRange lo hi).pending = s.pending := rfl
theorem State.resetRange_regs (lo hi : Nat) : (s.resetRange lo hi).regs = eraseRange s.regs (8 * lo) (8 * hi) := rfl
@[simp] theorem State.resetRange_mem (lo hi : Nat) : (s.resetRange lo hi).mem = s.mem := rfl
@[simp] theorem State.resetRange_ramLoss (lo hi : Nat) : (s.resetRange lo hi).ramLoss = s.ramLoss := rfl
@[simp] theorem State.resetRange_latches (lo hi : Nat) : (s.resetRange lo hi).latches = s.latches := rfl
@[simp] theorem State.resetRange_holds (lo hi : Nat) : (s.resetRange lo hi).holds = s.holds := rfl
@[simp] theorem State.resetRange_busData (lo hi : Nat) : (s.resetRange lo hi).busData = s.busData := rfl
@[simp] theorem State.resetRange_taskq (lo hi : Nat) : (s.resetRange lo hi).taskq = s.taskq := rfl
@[simp] theorem State.resetRange_fired (lo hi : Nat) : (s.resetRange lo hi).fired = s.fired := rfl
@[simp] theorem State.resetRange_freeSeq (lo hi : Nat) : (s.resetRange lo hi).freeSeq = s.freeSeq := rfl
@[simp] theorem State.resetRange_rest (lo hi : Nat) : (s.resetRange lo hi).rest = s.rest := rfl
@[simp] theorem State.resetRange_whiskTest (lo hi : Nat) : (s.resetRange lo hi).whiskTest = s.whiskTest := rfl
@[simp] theorem State.resetRange_whiskHeld (lo hi : Nat) : (s.resetRange lo hi).whiskHeld = s.whiskHeld := rfl
@[simp] theorem State.resetRange_whiskAge (lo hi : Nat) : (s.resetRange lo hi).whiskAge = s.whiskAge := rfl
@[simp] theorem State.resetRange_cyc (lo hi : Nat) : (s.resetRange lo hi).cyc = s.cyc := rfl
@[simp] theorem State.resetRange_rr (lo hi : Nat) : (s.resetRange lo hi).rr = s.rr := rfl
@[simp] theorem State.resetRange_brn (lo hi : Nat) : (s.resetRange lo hi).brn = s.brn := rfl
@[simp] theorem State.resetRange_c3 (lo hi : Nat) : (s.resetRange lo hi).c3 = s.c3 := rfl
@[simp] theorem State.resetRange_tb (lo hi : Nat) : (s.resetRange lo hi).tb = s.tb := rfl
@[simp] theorem State.resetRange_mod (lo hi : Nat) : (s.resetRange lo hi).mod = s.mod := rfl
@[simp] theorem State.resetRange_fe (lo hi : Nat) : (s.resetRange lo hi).fe = s.fe := rfl
@[simp] theorem State.resetRange_boot (lo hi : Nat) : (s.resetRange lo hi).boot = s.boot := rfl
@[simp] theorem State.resetRange_bistPart (lo hi : Nat) : (s.resetRange lo hi).bistPart = s.bistPart := rfl
@[simp] theorem State.resetRange_cp (lo hi : Nat) : (s.resetRange lo hi).cp = s.cp := rfl
@[simp] theorem State.resetRange_fwd (lo hi : Nat) : (s.resetRange lo hi).fwd = s.fwd := rfl
@[simp] theorem State.resetRange_mac (lo hi : Nat) : (s.resetRange lo hi).mac = s.mac := rfl
@[simp] theorem State.resetRange_ciph (lo hi : Nat) : (s.resetRange lo hi).ciph = s.ciph := rfl
@[simp] theorem State.resetRange_hp (lo hi : Nat) : (s.resetRange lo hi).hp = s.hp := rfl
@[simp] theorem State.resetRange_fl (lo hi : Nat) : (s.resetRange lo hi).fl = s.fl := rfl
@[simp] theorem State.resetRange_fuse (lo hi : Nat) : (s.resetRange lo hi).fuse = s.fuse := rfl
@[simp] theorem State.resetRange_rtc (lo hi : Nat) : (s.resetRange lo hi).rtc = s.rtc := rfl
@[simp] theorem State.resetRange_lio (lo hi : Nat) : (s.resetRange lo hi).lio = s.lio := rfl
@[simp] theorem State.resetRange_pwr (lo hi : Nat) : (s.resetRange lo hi).pwr = s.pwr := rfl
@[simp] theorem State.resetRange_upd (lo hi : Nat) : (s.resetRange lo hi).upd = s.upd := rfl
@[simp] theorem State.resetRange_bist (lo hi : Nat) : (s.resetRange lo hi).bist = s.bist := rfl
@[simp] theorem State.resetRange_dbg (lo hi : Nat) : (s.resetRange lo hi).dbg = s.dbg := rfl
@[simp] theorem State.setByte_pending (a : Nat) (v : Byte) : (s.setByte a v).pending = s.pending := rfl
@[simp] theorem State.setByte_regs (a : Nat) (v : Byte) : (s.setByte a v).regs = s.regs := rfl
@[simp] theorem State.setByte_ramLoss (a : Nat) (v : Byte) : (s.setByte a v).ramLoss = s.ramLoss := rfl
@[simp] theorem State.setByte_latches (a : Nat) (v : Byte) : (s.setByte a v).latches = s.latches := rfl
@[simp] theorem State.setByte_holds (a : Nat) (v : Byte) : (s.setByte a v).holds = s.holds := rfl
@[simp] theorem State.setByte_busData (a : Nat) (v : Byte) : (s.setByte a v).busData = s.busData := rfl
@[simp] theorem State.setByte_taskq (a : Nat) (v : Byte) : (s.setByte a v).taskq = s.taskq := rfl
@[simp] theorem State.setByte_fired (a : Nat) (v : Byte) : (s.setByte a v).fired = s.fired := rfl
@[simp] theorem State.setByte_freeSeq (a : Nat) (v : Byte) : (s.setByte a v).freeSeq = s.freeSeq := rfl
@[simp] theorem State.setByte_rest (a : Nat) (v : Byte) : (s.setByte a v).rest = s.rest := rfl
@[simp] theorem State.setByte_whiskTest (a : Nat) (v : Byte) : (s.setByte a v).whiskTest = s.whiskTest := rfl
@[simp] theorem State.setByte_whiskHeld (a : Nat) (v : Byte) : (s.setByte a v).whiskHeld = s.whiskHeld := rfl
@[simp] theorem State.setByte_whiskAge (a : Nat) (v : Byte) : (s.setByte a v).whiskAge = s.whiskAge := rfl
@[simp] theorem State.setByte_cyc (a : Nat) (v : Byte) : (s.setByte a v).cyc = s.cyc := rfl
@[simp] theorem State.setByte_rr (a : Nat) (v : Byte) : (s.setByte a v).rr = s.rr := rfl
@[simp] theorem State.setByte_brn (a : Nat) (v : Byte) : (s.setByte a v).brn = s.brn := rfl
@[simp] theorem State.setByte_c3 (a : Nat) (v : Byte) : (s.setByte a v).c3 = s.c3 := rfl
@[simp] theorem State.setByte_tb (a : Nat) (v : Byte) : (s.setByte a v).tb = s.tb := rfl
@[simp] theorem State.setByte_mod (a : Nat) (v : Byte) : (s.setByte a v).mod = s.mod := rfl
@[simp] theorem State.setByte_fe (a : Nat) (v : Byte) : (s.setByte a v).fe = s.fe := rfl
@[simp] theorem State.setByte_boot (a : Nat) (v : Byte) : (s.setByte a v).boot = s.boot := rfl
@[simp] theorem State.setByte_bistPart (a : Nat) (v : Byte) : (s.setByte a v).bistPart = s.bistPart := rfl
@[simp] theorem State.setByte_cp (a : Nat) (v : Byte) : (s.setByte a v).cp = s.cp := rfl
@[simp] theorem State.setByte_fwd (a : Nat) (v : Byte) : (s.setByte a v).fwd = s.fwd := rfl
@[simp] theorem State.setByte_mac (a : Nat) (v : Byte) : (s.setByte a v).mac = s.mac := rfl
@[simp] theorem State.setByte_ciph (a : Nat) (v : Byte) : (s.setByte a v).ciph = s.ciph := rfl
@[simp] theorem State.setByte_hp (a : Nat) (v : Byte) : (s.setByte a v).hp = s.hp := rfl
@[simp] theorem State.setByte_fl (a : Nat) (v : Byte) : (s.setByte a v).fl = s.fl := rfl
@[simp] theorem State.setByte_fuse (a : Nat) (v : Byte) : (s.setByte a v).fuse = s.fuse := rfl
@[simp] theorem State.setByte_rtc (a : Nat) (v : Byte) : (s.setByte a v).rtc = s.rtc := rfl
@[simp] theorem State.setByte_lio (a : Nat) (v : Byte) : (s.setByte a v).lio = s.lio := rfl
@[simp] theorem State.setByte_pwr (a : Nat) (v : Byte) : (s.setByte a v).pwr = s.pwr := rfl
@[simp] theorem State.setByte_upd (a : Nat) (v : Byte) : (s.setByte a v).upd = s.upd := rfl
@[simp] theorem State.setByte_bist (a : Nat) (v : Byte) : (s.setByte a v).bist = s.bist := rfl
@[simp] theorem State.setByte_dbg (a : Nat) (v : Byte) : (s.setByte a v).dbg = s.dbg := rfl
@[simp] theorem State.modBx_pending (b : Nat) (g : BurnerX → BurnerX) : (s.modBx b g).pending = s.pending := rfl
@[simp] theorem State.modBx_regs (b : Nat) (g : BurnerX → BurnerX) : (s.modBx b g).regs = s.regs := rfl
@[simp] theorem State.modBx_mem (b : Nat) (g : BurnerX → BurnerX) : (s.modBx b g).mem = s.mem := rfl
@[simp] theorem State.modBx_ramLoss (b : Nat) (g : BurnerX → BurnerX) : (s.modBx b g).ramLoss = s.ramLoss := rfl
@[simp] theorem State.modBx_latches (b : Nat) (g : BurnerX → BurnerX) : (s.modBx b g).latches = s.latches := rfl
@[simp] theorem State.modBx_holds (b : Nat) (g : BurnerX → BurnerX) : (s.modBx b g).holds = s.holds := rfl
@[simp] theorem State.modBx_busData (b : Nat) (g : BurnerX → BurnerX) : (s.modBx b g).busData = s.busData := rfl
@[simp] theorem State.modBx_taskq (b : Nat) (g : BurnerX → BurnerX) : (s.modBx b g).taskq = s.taskq := rfl
@[simp] theorem State.modBx_fired (b : Nat) (g : BurnerX → BurnerX) : (s.modBx b g).fired = s.fired := rfl
@[simp] theorem State.modBx_freeSeq (b : Nat) (g : BurnerX → BurnerX) : (s.modBx b g).freeSeq = s.freeSeq := rfl
@[simp] theorem State.modBx_rest (b : Nat) (g : BurnerX → BurnerX) : (s.modBx b g).rest = s.rest := rfl
@[simp] theorem State.modBx_whiskTest (b : Nat) (g : BurnerX → BurnerX) : (s.modBx b g).whiskTest = s.whiskTest := rfl
@[simp] theorem State.modBx_whiskHeld (b : Nat) (g : BurnerX → BurnerX) : (s.modBx b g).whiskHeld = s.whiskHeld := rfl
@[simp] theorem State.modBx_whiskAge (b : Nat) (g : BurnerX → BurnerX) : (s.modBx b g).whiskAge = s.whiskAge := rfl
@[simp] theorem State.modBx_cyc (b : Nat) (g : BurnerX → BurnerX) : (s.modBx b g).cyc = s.cyc := rfl
@[simp] theorem State.modBx_rr (b : Nat) (g : BurnerX → BurnerX) : (s.modBx b g).rr = s.rr := rfl
@[simp] theorem State.modBx_brn (b : Nat) (g : BurnerX → BurnerX) : (s.modBx b g).brn = modAt {} s.brn b g := rfl
@[simp] theorem State.modBx_c3 (b : Nat) (g : BurnerX → BurnerX) : (s.modBx b g).c3 = s.c3 := rfl
@[simp] theorem State.modBx_tb (b : Nat) (g : BurnerX → BurnerX) : (s.modBx b g).tb = s.tb := rfl
@[simp] theorem State.modBx_mod (b : Nat) (g : BurnerX → BurnerX) : (s.modBx b g).mod = s.mod := rfl
@[simp] theorem State.modBx_fe (b : Nat) (g : BurnerX → BurnerX) : (s.modBx b g).fe = s.fe := rfl
@[simp] theorem State.modBx_boot (b : Nat) (g : BurnerX → BurnerX) : (s.modBx b g).boot = s.boot := rfl
@[simp] theorem State.modBx_bistPart (b : Nat) (g : BurnerX → BurnerX) : (s.modBx b g).bistPart = s.bistPart := rfl
@[simp] theorem State.modBx_cp (b : Nat) (g : BurnerX → BurnerX) : (s.modBx b g).cp = s.cp := rfl
@[simp] theorem State.modBx_fwd (b : Nat) (g : BurnerX → BurnerX) : (s.modBx b g).fwd = s.fwd := rfl
@[simp] theorem State.modBx_mac (b : Nat) (g : BurnerX → BurnerX) : (s.modBx b g).mac = s.mac := rfl
@[simp] theorem State.modBx_ciph (b : Nat) (g : BurnerX → BurnerX) : (s.modBx b g).ciph = s.ciph := rfl
@[simp] theorem State.modBx_hp (b : Nat) (g : BurnerX → BurnerX) : (s.modBx b g).hp = s.hp := rfl
@[simp] theorem State.modBx_fl (b : Nat) (g : BurnerX → BurnerX) : (s.modBx b g).fl = s.fl := rfl
@[simp] theorem State.modBx_fuse (b : Nat) (g : BurnerX → BurnerX) : (s.modBx b g).fuse = s.fuse := rfl
@[simp] theorem State.modBx_rtc (b : Nat) (g : BurnerX → BurnerX) : (s.modBx b g).rtc = s.rtc := rfl
@[simp] theorem State.modBx_lio (b : Nat) (g : BurnerX → BurnerX) : (s.modBx b g).lio = s.lio := rfl
@[simp] theorem State.modBx_pwr (b : Nat) (g : BurnerX → BurnerX) : (s.modBx b g).pwr = s.pwr := rfl
@[simp] theorem State.modBx_upd (b : Nat) (g : BurnerX → BurnerX) : (s.modBx b g).upd = s.upd := rfl
@[simp] theorem State.modBx_bist (b : Nat) (g : BurnerX → BurnerX) : (s.modBx b g).bist = s.bist := rfl
@[simp] theorem State.modBx_dbg (b : Nat) (g : BurnerX → BurnerX) : (s.modBx b g).dbg = s.dbg := rfl
@[simp] theorem State.modBist_pending (g : BistState → BistState) : (s.modBist g).pending = s.pending := rfl
@[simp] theorem State.modBist_regs (g : BistState → BistState) : (s.modBist g).regs = s.regs := rfl
@[simp] theorem State.modBist_mem (g : BistState → BistState) : (s.modBist g).mem = s.mem := rfl
@[simp] theorem State.modBist_ramLoss (g : BistState → BistState) : (s.modBist g).ramLoss = s.ramLoss := rfl
@[simp] theorem State.modBist_latches (g : BistState → BistState) : (s.modBist g).latches = s.latches := rfl
@[simp] theorem State.modBist_holds (g : BistState → BistState) : (s.modBist g).holds = s.holds := rfl
@[simp] theorem State.modBist_busData (g : BistState → BistState) : (s.modBist g).busData = s.busData := rfl
@[simp] theorem State.modBist_taskq (g : BistState → BistState) : (s.modBist g).taskq = s.taskq := rfl
@[simp] theorem State.modBist_fired (g : BistState → BistState) : (s.modBist g).fired = s.fired := rfl
@[simp] theorem State.modBist_freeSeq (g : BistState → BistState) : (s.modBist g).freeSeq = s.freeSeq := rfl
@[simp] theorem State.modBist_rest (g : BistState → BistState) : (s.modBist g).rest = s.rest := rfl
@[simp] theorem State.modBist_whiskTest (g : BistState → BistState) : (s.modBist g).whiskTest = s.whiskTest := rfl
@[simp] theorem State.modBist_whiskHeld (g : BistState → BistState) : (s.modBist g).whiskHeld = s.whiskHeld := rfl
@[simp] theorem State.modBist_whiskAge (g : BistState → BistState) : (s.modBist g).whiskAge = s.whiskAge := rfl
@[simp] theorem State.modBist_cyc (g : BistState → BistState) : (s.modBist g).cyc = s.cyc := rfl
@[simp] theorem State.modBist_rr (g : BistState → BistState) : (s.modBist g).rr = s.rr := rfl
@[simp] theorem State.modBist_brn (g : BistState → BistState) : (s.modBist g).brn = s.brn := rfl
@[simp] theorem State.modBist_c3 (g : BistState → BistState) : (s.modBist g).c3 = s.c3 := rfl
@[simp] theorem State.modBist_tb (g : BistState → BistState) : (s.modBist g).tb = s.tb := rfl
@[simp] theorem State.modBist_mod (g : BistState → BistState) : (s.modBist g).mod = s.mod := rfl
@[simp] theorem State.modBist_fe (g : BistState → BistState) : (s.modBist g).fe = s.fe := rfl
@[simp] theorem State.modBist_boot (g : BistState → BistState) : (s.modBist g).boot = s.boot := rfl
@[simp] theorem State.modBist_bistPart (g : BistState → BistState) : (s.modBist g).bistPart = s.bistPart := rfl
@[simp] theorem State.modBist_cp (g : BistState → BistState) : (s.modBist g).cp = s.cp := rfl
@[simp] theorem State.modBist_fwd (g : BistState → BistState) : (s.modBist g).fwd = s.fwd := rfl
@[simp] theorem State.modBist_mac (g : BistState → BistState) : (s.modBist g).mac = s.mac := rfl
@[simp] theorem State.modBist_ciph (g : BistState → BistState) : (s.modBist g).ciph = s.ciph := rfl
@[simp] theorem State.modBist_hp (g : BistState → BistState) : (s.modBist g).hp = s.hp := rfl
@[simp] theorem State.modBist_fl (g : BistState → BistState) : (s.modBist g).fl = s.fl := rfl
@[simp] theorem State.modBist_fuse (g : BistState → BistState) : (s.modBist g).fuse = s.fuse := rfl
@[simp] theorem State.modBist_rtc (g : BistState → BistState) : (s.modBist g).rtc = s.rtc := rfl
@[simp] theorem State.modBist_lio (g : BistState → BistState) : (s.modBist g).lio = s.lio := rfl
@[simp] theorem State.modBist_pwr (g : BistState → BistState) : (s.modBist g).pwr = s.pwr := rfl
@[simp] theorem State.modBist_upd (g : BistState → BistState) : (s.modBist g).upd = s.upd := rfl
@[simp] theorem State.modBist_bist (g : BistState → BistState) : (s.modBist g).bist = g s.bist := rfl
@[simp] theorem State.modBist_dbg (g : BistState → BistState) : (s.modBist g).dbg = s.dbg := rfl
@[simp] theorem State.modCiph_pending (g : CiphState → CiphState) : (s.modCiph g).pending = s.pending := rfl
@[simp] theorem State.modCiph_regs (g : CiphState → CiphState) : (s.modCiph g).regs = s.regs := rfl
@[simp] theorem State.modCiph_mem (g : CiphState → CiphState) : (s.modCiph g).mem = s.mem := rfl
@[simp] theorem State.modCiph_ramLoss (g : CiphState → CiphState) : (s.modCiph g).ramLoss = s.ramLoss := rfl
@[simp] theorem State.modCiph_latches (g : CiphState → CiphState) : (s.modCiph g).latches = s.latches := rfl
@[simp] theorem State.modCiph_holds (g : CiphState → CiphState) : (s.modCiph g).holds = s.holds := rfl
@[simp] theorem State.modCiph_busData (g : CiphState → CiphState) : (s.modCiph g).busData = s.busData := rfl
@[simp] theorem State.modCiph_taskq (g : CiphState → CiphState) : (s.modCiph g).taskq = s.taskq := rfl
@[simp] theorem State.modCiph_fired (g : CiphState → CiphState) : (s.modCiph g).fired = s.fired := rfl
@[simp] theorem State.modCiph_freeSeq (g : CiphState → CiphState) : (s.modCiph g).freeSeq = s.freeSeq := rfl
@[simp] theorem State.modCiph_rest (g : CiphState → CiphState) : (s.modCiph g).rest = s.rest := rfl
@[simp] theorem State.modCiph_whiskTest (g : CiphState → CiphState) : (s.modCiph g).whiskTest = s.whiskTest := rfl
@[simp] theorem State.modCiph_whiskHeld (g : CiphState → CiphState) : (s.modCiph g).whiskHeld = s.whiskHeld := rfl
@[simp] theorem State.modCiph_whiskAge (g : CiphState → CiphState) : (s.modCiph g).whiskAge = s.whiskAge := rfl
@[simp] theorem State.modCiph_cyc (g : CiphState → CiphState) : (s.modCiph g).cyc = s.cyc := rfl
@[simp] theorem State.modCiph_rr (g : CiphState → CiphState) : (s.modCiph g).rr = s.rr := rfl
@[simp] theorem State.modCiph_brn (g : CiphState → CiphState) : (s.modCiph g).brn = s.brn := rfl
@[simp] theorem State.modCiph_c3 (g : CiphState → CiphState) : (s.modCiph g).c3 = s.c3 := rfl
@[simp] theorem State.modCiph_tb (g : CiphState → CiphState) : (s.modCiph g).tb = s.tb := rfl
@[simp] theorem State.modCiph_mod (g : CiphState → CiphState) : (s.modCiph g).mod = s.mod := rfl
@[simp] theorem State.modCiph_fe (g : CiphState → CiphState) : (s.modCiph g).fe = s.fe := rfl
@[simp] theorem State.modCiph_boot (g : CiphState → CiphState) : (s.modCiph g).boot = s.boot := rfl
@[simp] theorem State.modCiph_bistPart (g : CiphState → CiphState) : (s.modCiph g).bistPart = s.bistPart := rfl
@[simp] theorem State.modCiph_cp (g : CiphState → CiphState) : (s.modCiph g).cp = s.cp := rfl
@[simp] theorem State.modCiph_fwd (g : CiphState → CiphState) : (s.modCiph g).fwd = s.fwd := rfl
@[simp] theorem State.modCiph_mac (g : CiphState → CiphState) : (s.modCiph g).mac = s.mac := rfl
@[simp] theorem State.modCiph_ciph (g : CiphState → CiphState) : (s.modCiph g).ciph = g s.ciph := rfl
@[simp] theorem State.modCiph_hp (g : CiphState → CiphState) : (s.modCiph g).hp = s.hp := rfl
@[simp] theorem State.modCiph_fl (g : CiphState → CiphState) : (s.modCiph g).fl = s.fl := rfl
@[simp] theorem State.modCiph_fuse (g : CiphState → CiphState) : (s.modCiph g).fuse = s.fuse := rfl
@[simp] theorem State.modCiph_rtc (g : CiphState → CiphState) : (s.modCiph g).rtc = s.rtc := rfl
@[simp] theorem State.modCiph_lio (g : CiphState → CiphState) : (s.modCiph g).lio = s.lio := rfl
@[simp] theorem State.modCiph_pwr (g : CiphState → CiphState) : (s.modCiph g).pwr = s.pwr := rfl
@[simp] theorem State.modCiph_upd (g : CiphState → CiphState) : (s.modCiph g).upd = s.upd := rfl
@[simp] theorem State.modCiph_bist (g : CiphState → CiphState) : (s.modCiph g).bist = s.bist := rfl
@[simp] theorem State.modCiph_dbg (g : CiphState → CiphState) : (s.modCiph g).dbg = s.dbg := rfl
@[simp] theorem State.modDbg_pending (g : DbgState → DbgState) : (s.modDbg g).pending = s.pending := rfl
@[simp] theorem State.modDbg_regs (g : DbgState → DbgState) : (s.modDbg g).regs = s.regs := rfl
@[simp] theorem State.modDbg_mem (g : DbgState → DbgState) : (s.modDbg g).mem = s.mem := rfl
@[simp] theorem State.modDbg_ramLoss (g : DbgState → DbgState) : (s.modDbg g).ramLoss = s.ramLoss := rfl
@[simp] theorem State.modDbg_latches (g : DbgState → DbgState) : (s.modDbg g).latches = s.latches := rfl
@[simp] theorem State.modDbg_holds (g : DbgState → DbgState) : (s.modDbg g).holds = s.holds := rfl
@[simp] theorem State.modDbg_busData (g : DbgState → DbgState) : (s.modDbg g).busData = s.busData := rfl
@[simp] theorem State.modDbg_taskq (g : DbgState → DbgState) : (s.modDbg g).taskq = s.taskq := rfl
@[simp] theorem State.modDbg_fired (g : DbgState → DbgState) : (s.modDbg g).fired = s.fired := rfl
@[simp] theorem State.modDbg_freeSeq (g : DbgState → DbgState) : (s.modDbg g).freeSeq = s.freeSeq := rfl
@[simp] theorem State.modDbg_rest (g : DbgState → DbgState) : (s.modDbg g).rest = s.rest := rfl
@[simp] theorem State.modDbg_whiskTest (g : DbgState → DbgState) : (s.modDbg g).whiskTest = s.whiskTest := rfl
@[simp] theorem State.modDbg_whiskHeld (g : DbgState → DbgState) : (s.modDbg g).whiskHeld = s.whiskHeld := rfl
@[simp] theorem State.modDbg_whiskAge (g : DbgState → DbgState) : (s.modDbg g).whiskAge = s.whiskAge := rfl
@[simp] theorem State.modDbg_cyc (g : DbgState → DbgState) : (s.modDbg g).cyc = s.cyc := rfl
@[simp] theorem State.modDbg_rr (g : DbgState → DbgState) : (s.modDbg g).rr = s.rr := rfl
@[simp] theorem State.modDbg_brn (g : DbgState → DbgState) : (s.modDbg g).brn = s.brn := rfl
@[simp] theorem State.modDbg_c3 (g : DbgState → DbgState) : (s.modDbg g).c3 = s.c3 := rfl
@[simp] theorem State.modDbg_tb (g : DbgState → DbgState) : (s.modDbg g).tb = s.tb := rfl
@[simp] theorem State.modDbg_mod (g : DbgState → DbgState) : (s.modDbg g).mod = s.mod := rfl
@[simp] theorem State.modDbg_fe (g : DbgState → DbgState) : (s.modDbg g).fe = s.fe := rfl
@[simp] theorem State.modDbg_boot (g : DbgState → DbgState) : (s.modDbg g).boot = s.boot := rfl
@[simp] theorem State.modDbg_bistPart (g : DbgState → DbgState) : (s.modDbg g).bistPart = s.bistPart := rfl
@[simp] theorem State.modDbg_cp (g : DbgState → DbgState) : (s.modDbg g).cp = s.cp := rfl
@[simp] theorem State.modDbg_fwd (g : DbgState → DbgState) : (s.modDbg g).fwd = s.fwd := rfl
@[simp] theorem State.modDbg_mac (g : DbgState → DbgState) : (s.modDbg g).mac = s.mac := rfl
@[simp] theorem State.modDbg_ciph (g : DbgState → DbgState) : (s.modDbg g).ciph = s.ciph := rfl
@[simp] theorem State.modDbg_hp (g : DbgState → DbgState) : (s.modDbg g).hp = s.hp := rfl
@[simp] theorem State.modDbg_fl (g : DbgState → DbgState) : (s.modDbg g).fl = s.fl := rfl
@[simp] theorem State.modDbg_fuse (g : DbgState → DbgState) : (s.modDbg g).fuse = s.fuse := rfl
@[simp] theorem State.modDbg_rtc (g : DbgState → DbgState) : (s.modDbg g).rtc = s.rtc := rfl
@[simp] theorem State.modDbg_lio (g : DbgState → DbgState) : (s.modDbg g).lio = s.lio := rfl
@[simp] theorem State.modDbg_pwr (g : DbgState → DbgState) : (s.modDbg g).pwr = s.pwr := rfl
@[simp] theorem State.modDbg_upd (g : DbgState → DbgState) : (s.modDbg g).upd = s.upd := rfl
@[simp] theorem State.modDbg_bist (g : DbgState → DbgState) : (s.modDbg g).bist = s.bist := rfl
@[simp] theorem State.modDbg_dbg (g : DbgState → DbgState) : (s.modDbg g).dbg = g s.dbg := rfl
@[simp] theorem State.modFl_pending (g : FlState → FlState) : (s.modFl g).pending = s.pending := rfl
@[simp] theorem State.modFl_regs (g : FlState → FlState) : (s.modFl g).regs = s.regs := rfl
@[simp] theorem State.modFl_mem (g : FlState → FlState) : (s.modFl g).mem = s.mem := rfl
@[simp] theorem State.modFl_ramLoss (g : FlState → FlState) : (s.modFl g).ramLoss = s.ramLoss := rfl
@[simp] theorem State.modFl_latches (g : FlState → FlState) : (s.modFl g).latches = s.latches := rfl
@[simp] theorem State.modFl_holds (g : FlState → FlState) : (s.modFl g).holds = s.holds := rfl
@[simp] theorem State.modFl_busData (g : FlState → FlState) : (s.modFl g).busData = s.busData := rfl
@[simp] theorem State.modFl_taskq (g : FlState → FlState) : (s.modFl g).taskq = s.taskq := rfl
@[simp] theorem State.modFl_fired (g : FlState → FlState) : (s.modFl g).fired = s.fired := rfl
@[simp] theorem State.modFl_freeSeq (g : FlState → FlState) : (s.modFl g).freeSeq = s.freeSeq := rfl
@[simp] theorem State.modFl_rest (g : FlState → FlState) : (s.modFl g).rest = s.rest := rfl
@[simp] theorem State.modFl_whiskTest (g : FlState → FlState) : (s.modFl g).whiskTest = s.whiskTest := rfl
@[simp] theorem State.modFl_whiskHeld (g : FlState → FlState) : (s.modFl g).whiskHeld = s.whiskHeld := rfl
@[simp] theorem State.modFl_whiskAge (g : FlState → FlState) : (s.modFl g).whiskAge = s.whiskAge := rfl
@[simp] theorem State.modFl_cyc (g : FlState → FlState) : (s.modFl g).cyc = s.cyc := rfl
@[simp] theorem State.modFl_rr (g : FlState → FlState) : (s.modFl g).rr = s.rr := rfl
@[simp] theorem State.modFl_brn (g : FlState → FlState) : (s.modFl g).brn = s.brn := rfl
@[simp] theorem State.modFl_c3 (g : FlState → FlState) : (s.modFl g).c3 = s.c3 := rfl
@[simp] theorem State.modFl_tb (g : FlState → FlState) : (s.modFl g).tb = s.tb := rfl
@[simp] theorem State.modFl_mod (g : FlState → FlState) : (s.modFl g).mod = s.mod := rfl
@[simp] theorem State.modFl_fe (g : FlState → FlState) : (s.modFl g).fe = s.fe := rfl
@[simp] theorem State.modFl_boot (g : FlState → FlState) : (s.modFl g).boot = s.boot := rfl
@[simp] theorem State.modFl_bistPart (g : FlState → FlState) : (s.modFl g).bistPart = s.bistPart := rfl
@[simp] theorem State.modFl_cp (g : FlState → FlState) : (s.modFl g).cp = s.cp := rfl
@[simp] theorem State.modFl_fwd (g : FlState → FlState) : (s.modFl g).fwd = s.fwd := rfl
@[simp] theorem State.modFl_mac (g : FlState → FlState) : (s.modFl g).mac = s.mac := rfl
@[simp] theorem State.modFl_ciph (g : FlState → FlState) : (s.modFl g).ciph = s.ciph := rfl
@[simp] theorem State.modFl_hp (g : FlState → FlState) : (s.modFl g).hp = s.hp := rfl
@[simp] theorem State.modFl_fl (g : FlState → FlState) : (s.modFl g).fl = g s.fl := rfl
@[simp] theorem State.modFl_fuse (g : FlState → FlState) : (s.modFl g).fuse = s.fuse := rfl
@[simp] theorem State.modFl_rtc (g : FlState → FlState) : (s.modFl g).rtc = s.rtc := rfl
@[simp] theorem State.modFl_lio (g : FlState → FlState) : (s.modFl g).lio = s.lio := rfl
@[simp] theorem State.modFl_pwr (g : FlState → FlState) : (s.modFl g).pwr = s.pwr := rfl
@[simp] theorem State.modFl_upd (g : FlState → FlState) : (s.modFl g).upd = s.upd := rfl
@[simp] theorem State.modFl_bist (g : FlState → FlState) : (s.modFl g).bist = s.bist := rfl
@[simp] theorem State.modFl_dbg (g : FlState → FlState) : (s.modFl g).dbg = s.dbg := rfl
@[simp] theorem State.modFwd_pending (g : FwdState → FwdState) : (s.modFwd g).pending = s.pending := rfl
@[simp] theorem State.modFwd_regs (g : FwdState → FwdState) : (s.modFwd g).regs = s.regs := rfl
@[simp] theorem State.modFwd_mem (g : FwdState → FwdState) : (s.modFwd g).mem = s.mem := rfl
@[simp] theorem State.modFwd_ramLoss (g : FwdState → FwdState) : (s.modFwd g).ramLoss = s.ramLoss := rfl
@[simp] theorem State.modFwd_latches (g : FwdState → FwdState) : (s.modFwd g).latches = s.latches := rfl
@[simp] theorem State.modFwd_holds (g : FwdState → FwdState) : (s.modFwd g).holds = s.holds := rfl
@[simp] theorem State.modFwd_busData (g : FwdState → FwdState) : (s.modFwd g).busData = s.busData := rfl
@[simp] theorem State.modFwd_taskq (g : FwdState → FwdState) : (s.modFwd g).taskq = s.taskq := rfl
@[simp] theorem State.modFwd_fired (g : FwdState → FwdState) : (s.modFwd g).fired = s.fired := rfl
@[simp] theorem State.modFwd_freeSeq (g : FwdState → FwdState) : (s.modFwd g).freeSeq = s.freeSeq := rfl
@[simp] theorem State.modFwd_rest (g : FwdState → FwdState) : (s.modFwd g).rest = s.rest := rfl
@[simp] theorem State.modFwd_whiskTest (g : FwdState → FwdState) : (s.modFwd g).whiskTest = s.whiskTest := rfl
@[simp] theorem State.modFwd_whiskHeld (g : FwdState → FwdState) : (s.modFwd g).whiskHeld = s.whiskHeld := rfl
@[simp] theorem State.modFwd_whiskAge (g : FwdState → FwdState) : (s.modFwd g).whiskAge = s.whiskAge := rfl
@[simp] theorem State.modFwd_cyc (g : FwdState → FwdState) : (s.modFwd g).cyc = s.cyc := rfl
@[simp] theorem State.modFwd_rr (g : FwdState → FwdState) : (s.modFwd g).rr = s.rr := rfl
@[simp] theorem State.modFwd_brn (g : FwdState → FwdState) : (s.modFwd g).brn = s.brn := rfl
@[simp] theorem State.modFwd_c3 (g : FwdState → FwdState) : (s.modFwd g).c3 = s.c3 := rfl
@[simp] theorem State.modFwd_tb (g : FwdState → FwdState) : (s.modFwd g).tb = s.tb := rfl
@[simp] theorem State.modFwd_mod (g : FwdState → FwdState) : (s.modFwd g).mod = s.mod := rfl
@[simp] theorem State.modFwd_fe (g : FwdState → FwdState) : (s.modFwd g).fe = s.fe := rfl
@[simp] theorem State.modFwd_boot (g : FwdState → FwdState) : (s.modFwd g).boot = s.boot := rfl
@[simp] theorem State.modFwd_bistPart (g : FwdState → FwdState) : (s.modFwd g).bistPart = s.bistPart := rfl
@[simp] theorem State.modFwd_cp (g : FwdState → FwdState) : (s.modFwd g).cp = s.cp := rfl
@[simp] theorem State.modFwd_fwd (g : FwdState → FwdState) : (s.modFwd g).fwd = g s.fwd := rfl
@[simp] theorem State.modFwd_mac (g : FwdState → FwdState) : (s.modFwd g).mac = s.mac := rfl
@[simp] theorem State.modFwd_ciph (g : FwdState → FwdState) : (s.modFwd g).ciph = s.ciph := rfl
@[simp] theorem State.modFwd_hp (g : FwdState → FwdState) : (s.modFwd g).hp = s.hp := rfl
@[simp] theorem State.modFwd_fl (g : FwdState → FwdState) : (s.modFwd g).fl = s.fl := rfl
@[simp] theorem State.modFwd_fuse (g : FwdState → FwdState) : (s.modFwd g).fuse = s.fuse := rfl
@[simp] theorem State.modFwd_rtc (g : FwdState → FwdState) : (s.modFwd g).rtc = s.rtc := rfl
@[simp] theorem State.modFwd_lio (g : FwdState → FwdState) : (s.modFwd g).lio = s.lio := rfl
@[simp] theorem State.modFwd_pwr (g : FwdState → FwdState) : (s.modFwd g).pwr = s.pwr := rfl
@[simp] theorem State.modFwd_upd (g : FwdState → FwdState) : (s.modFwd g).upd = s.upd := rfl
@[simp] theorem State.modFwd_bist (g : FwdState → FwdState) : (s.modFwd g).bist = s.bist := rfl
@[simp] theorem State.modFwd_dbg (g : FwdState → FwdState) : (s.modFwd g).dbg = s.dbg := rfl
@[simp] theorem State.modHp_pending (g : HpState → HpState) : (s.modHp g).pending = s.pending := rfl
@[simp] theorem State.modHp_regs (g : HpState → HpState) : (s.modHp g).regs = s.regs := rfl
@[simp] theorem State.modHp_mem (g : HpState → HpState) : (s.modHp g).mem = s.mem := rfl
@[simp] theorem State.modHp_ramLoss (g : HpState → HpState) : (s.modHp g).ramLoss = s.ramLoss := rfl
@[simp] theorem State.modHp_latches (g : HpState → HpState) : (s.modHp g).latches = s.latches := rfl
@[simp] theorem State.modHp_holds (g : HpState → HpState) : (s.modHp g).holds = s.holds := rfl
@[simp] theorem State.modHp_busData (g : HpState → HpState) : (s.modHp g).busData = s.busData := rfl
@[simp] theorem State.modHp_taskq (g : HpState → HpState) : (s.modHp g).taskq = s.taskq := rfl
@[simp] theorem State.modHp_fired (g : HpState → HpState) : (s.modHp g).fired = s.fired := rfl
@[simp] theorem State.modHp_freeSeq (g : HpState → HpState) : (s.modHp g).freeSeq = s.freeSeq := rfl
@[simp] theorem State.modHp_rest (g : HpState → HpState) : (s.modHp g).rest = s.rest := rfl
@[simp] theorem State.modHp_whiskTest (g : HpState → HpState) : (s.modHp g).whiskTest = s.whiskTest := rfl
@[simp] theorem State.modHp_whiskHeld (g : HpState → HpState) : (s.modHp g).whiskHeld = s.whiskHeld := rfl
@[simp] theorem State.modHp_whiskAge (g : HpState → HpState) : (s.modHp g).whiskAge = s.whiskAge := rfl
@[simp] theorem State.modHp_cyc (g : HpState → HpState) : (s.modHp g).cyc = s.cyc := rfl
@[simp] theorem State.modHp_rr (g : HpState → HpState) : (s.modHp g).rr = s.rr := rfl
@[simp] theorem State.modHp_brn (g : HpState → HpState) : (s.modHp g).brn = s.brn := rfl
@[simp] theorem State.modHp_c3 (g : HpState → HpState) : (s.modHp g).c3 = s.c3 := rfl
@[simp] theorem State.modHp_tb (g : HpState → HpState) : (s.modHp g).tb = s.tb := rfl
@[simp] theorem State.modHp_mod (g : HpState → HpState) : (s.modHp g).mod = s.mod := rfl
@[simp] theorem State.modHp_fe (g : HpState → HpState) : (s.modHp g).fe = s.fe := rfl
@[simp] theorem State.modHp_boot (g : HpState → HpState) : (s.modHp g).boot = s.boot := rfl
@[simp] theorem State.modHp_bistPart (g : HpState → HpState) : (s.modHp g).bistPart = s.bistPart := rfl
@[simp] theorem State.modHp_cp (g : HpState → HpState) : (s.modHp g).cp = s.cp := rfl
@[simp] theorem State.modHp_fwd (g : HpState → HpState) : (s.modHp g).fwd = s.fwd := rfl
@[simp] theorem State.modHp_mac (g : HpState → HpState) : (s.modHp g).mac = s.mac := rfl
@[simp] theorem State.modHp_ciph (g : HpState → HpState) : (s.modHp g).ciph = s.ciph := rfl
@[simp] theorem State.modHp_hp (g : HpState → HpState) : (s.modHp g).hp = g s.hp := rfl
@[simp] theorem State.modHp_fl (g : HpState → HpState) : (s.modHp g).fl = s.fl := rfl
@[simp] theorem State.modHp_fuse (g : HpState → HpState) : (s.modHp g).fuse = s.fuse := rfl
@[simp] theorem State.modHp_rtc (g : HpState → HpState) : (s.modHp g).rtc = s.rtc := rfl
@[simp] theorem State.modHp_lio (g : HpState → HpState) : (s.modHp g).lio = s.lio := rfl
@[simp] theorem State.modHp_pwr (g : HpState → HpState) : (s.modHp g).pwr = s.pwr := rfl
@[simp] theorem State.modHp_upd (g : HpState → HpState) : (s.modHp g).upd = s.upd := rfl
@[simp] theorem State.modHp_bist (g : HpState → HpState) : (s.modHp g).bist = s.bist := rfl
@[simp] theorem State.modHp_dbg (g : HpState → HpState) : (s.modHp g).dbg = s.dbg := rfl
@[simp] theorem State.modMac_pending (g : MacState → MacState) : (s.modMac g).pending = s.pending := rfl
@[simp] theorem State.modMac_regs (g : MacState → MacState) : (s.modMac g).regs = s.regs := rfl
@[simp] theorem State.modMac_mem (g : MacState → MacState) : (s.modMac g).mem = s.mem := rfl
@[simp] theorem State.modMac_ramLoss (g : MacState → MacState) : (s.modMac g).ramLoss = s.ramLoss := rfl
@[simp] theorem State.modMac_latches (g : MacState → MacState) : (s.modMac g).latches = s.latches := rfl
@[simp] theorem State.modMac_holds (g : MacState → MacState) : (s.modMac g).holds = s.holds := rfl
@[simp] theorem State.modMac_busData (g : MacState → MacState) : (s.modMac g).busData = s.busData := rfl
@[simp] theorem State.modMac_taskq (g : MacState → MacState) : (s.modMac g).taskq = s.taskq := rfl
@[simp] theorem State.modMac_fired (g : MacState → MacState) : (s.modMac g).fired = s.fired := rfl
@[simp] theorem State.modMac_freeSeq (g : MacState → MacState) : (s.modMac g).freeSeq = s.freeSeq := rfl
@[simp] theorem State.modMac_rest (g : MacState → MacState) : (s.modMac g).rest = s.rest := rfl
@[simp] theorem State.modMac_whiskTest (g : MacState → MacState) : (s.modMac g).whiskTest = s.whiskTest := rfl
@[simp] theorem State.modMac_whiskHeld (g : MacState → MacState) : (s.modMac g).whiskHeld = s.whiskHeld := rfl
@[simp] theorem State.modMac_whiskAge (g : MacState → MacState) : (s.modMac g).whiskAge = s.whiskAge := rfl
@[simp] theorem State.modMac_cyc (g : MacState → MacState) : (s.modMac g).cyc = s.cyc := rfl
@[simp] theorem State.modMac_rr (g : MacState → MacState) : (s.modMac g).rr = s.rr := rfl
@[simp] theorem State.modMac_brn (g : MacState → MacState) : (s.modMac g).brn = s.brn := rfl
@[simp] theorem State.modMac_c3 (g : MacState → MacState) : (s.modMac g).c3 = s.c3 := rfl
@[simp] theorem State.modMac_tb (g : MacState → MacState) : (s.modMac g).tb = s.tb := rfl
@[simp] theorem State.modMac_mod (g : MacState → MacState) : (s.modMac g).mod = s.mod := rfl
@[simp] theorem State.modMac_fe (g : MacState → MacState) : (s.modMac g).fe = s.fe := rfl
@[simp] theorem State.modMac_boot (g : MacState → MacState) : (s.modMac g).boot = s.boot := rfl
@[simp] theorem State.modMac_bistPart (g : MacState → MacState) : (s.modMac g).bistPart = s.bistPart := rfl
@[simp] theorem State.modMac_cp (g : MacState → MacState) : (s.modMac g).cp = s.cp := rfl
@[simp] theorem State.modMac_fwd (g : MacState → MacState) : (s.modMac g).fwd = s.fwd := rfl
@[simp] theorem State.modMac_mac (g : MacState → MacState) : (s.modMac g).mac = g s.mac := rfl
@[simp] theorem State.modMac_ciph (g : MacState → MacState) : (s.modMac g).ciph = s.ciph := rfl
@[simp] theorem State.modMac_hp (g : MacState → MacState) : (s.modMac g).hp = s.hp := rfl
@[simp] theorem State.modMac_fl (g : MacState → MacState) : (s.modMac g).fl = s.fl := rfl
@[simp] theorem State.modMac_fuse (g : MacState → MacState) : (s.modMac g).fuse = s.fuse := rfl
@[simp] theorem State.modMac_rtc (g : MacState → MacState) : (s.modMac g).rtc = s.rtc := rfl
@[simp] theorem State.modMac_lio (g : MacState → MacState) : (s.modMac g).lio = s.lio := rfl
@[simp] theorem State.modMac_pwr (g : MacState → MacState) : (s.modMac g).pwr = s.pwr := rfl
@[simp] theorem State.modMac_upd (g : MacState → MacState) : (s.modMac g).upd = s.upd := rfl
@[simp] theorem State.modMac_bist (g : MacState → MacState) : (s.modMac g).bist = s.bist := rfl
@[simp] theorem State.modMac_dbg (g : MacState → MacState) : (s.modMac g).dbg = s.dbg := rfl
@[simp] theorem State.modPwr_pending (g : PwrState → PwrState) : (s.modPwr g).pending = s.pending := rfl
@[simp] theorem State.modPwr_regs (g : PwrState → PwrState) : (s.modPwr g).regs = s.regs := rfl
@[simp] theorem State.modPwr_mem (g : PwrState → PwrState) : (s.modPwr g).mem = s.mem := rfl
@[simp] theorem State.modPwr_ramLoss (g : PwrState → PwrState) : (s.modPwr g).ramLoss = s.ramLoss := rfl
@[simp] theorem State.modPwr_latches (g : PwrState → PwrState) : (s.modPwr g).latches = s.latches := rfl
@[simp] theorem State.modPwr_holds (g : PwrState → PwrState) : (s.modPwr g).holds = s.holds := rfl
@[simp] theorem State.modPwr_busData (g : PwrState → PwrState) : (s.modPwr g).busData = s.busData := rfl
@[simp] theorem State.modPwr_taskq (g : PwrState → PwrState) : (s.modPwr g).taskq = s.taskq := rfl
@[simp] theorem State.modPwr_fired (g : PwrState → PwrState) : (s.modPwr g).fired = s.fired := rfl
@[simp] theorem State.modPwr_freeSeq (g : PwrState → PwrState) : (s.modPwr g).freeSeq = s.freeSeq := rfl
@[simp] theorem State.modPwr_rest (g : PwrState → PwrState) : (s.modPwr g).rest = s.rest := rfl
@[simp] theorem State.modPwr_whiskTest (g : PwrState → PwrState) : (s.modPwr g).whiskTest = s.whiskTest := rfl
@[simp] theorem State.modPwr_whiskHeld (g : PwrState → PwrState) : (s.modPwr g).whiskHeld = s.whiskHeld := rfl
@[simp] theorem State.modPwr_whiskAge (g : PwrState → PwrState) : (s.modPwr g).whiskAge = s.whiskAge := rfl
@[simp] theorem State.modPwr_cyc (g : PwrState → PwrState) : (s.modPwr g).cyc = s.cyc := rfl
@[simp] theorem State.modPwr_rr (g : PwrState → PwrState) : (s.modPwr g).rr = s.rr := rfl
@[simp] theorem State.modPwr_brn (g : PwrState → PwrState) : (s.modPwr g).brn = s.brn := rfl
@[simp] theorem State.modPwr_c3 (g : PwrState → PwrState) : (s.modPwr g).c3 = s.c3 := rfl
@[simp] theorem State.modPwr_tb (g : PwrState → PwrState) : (s.modPwr g).tb = s.tb := rfl
@[simp] theorem State.modPwr_mod (g : PwrState → PwrState) : (s.modPwr g).mod = s.mod := rfl
@[simp] theorem State.modPwr_fe (g : PwrState → PwrState) : (s.modPwr g).fe = s.fe := rfl
@[simp] theorem State.modPwr_boot (g : PwrState → PwrState) : (s.modPwr g).boot = s.boot := rfl
@[simp] theorem State.modPwr_bistPart (g : PwrState → PwrState) : (s.modPwr g).bistPart = s.bistPart := rfl
@[simp] theorem State.modPwr_cp (g : PwrState → PwrState) : (s.modPwr g).cp = s.cp := rfl
@[simp] theorem State.modPwr_fwd (g : PwrState → PwrState) : (s.modPwr g).fwd = s.fwd := rfl
@[simp] theorem State.modPwr_mac (g : PwrState → PwrState) : (s.modPwr g).mac = s.mac := rfl
@[simp] theorem State.modPwr_ciph (g : PwrState → PwrState) : (s.modPwr g).ciph = s.ciph := rfl
@[simp] theorem State.modPwr_hp (g : PwrState → PwrState) : (s.modPwr g).hp = s.hp := rfl
@[simp] theorem State.modPwr_fl (g : PwrState → PwrState) : (s.modPwr g).fl = s.fl := rfl
@[simp] theorem State.modPwr_fuse (g : PwrState → PwrState) : (s.modPwr g).fuse = s.fuse := rfl
@[simp] theorem State.modPwr_rtc (g : PwrState → PwrState) : (s.modPwr g).rtc = s.rtc := rfl
@[simp] theorem State.modPwr_lio (g : PwrState → PwrState) : (s.modPwr g).lio = s.lio := rfl
@[simp] theorem State.modPwr_pwr (g : PwrState → PwrState) : (s.modPwr g).pwr = g s.pwr := rfl
@[simp] theorem State.modPwr_upd (g : PwrState → PwrState) : (s.modPwr g).upd = s.upd := rfl
@[simp] theorem State.modPwr_bist (g : PwrState → PwrState) : (s.modPwr g).bist = s.bist := rfl
@[simp] theorem State.modPwr_dbg (g : PwrState → PwrState) : (s.modPwr g).dbg = s.dbg := rfl
@[simp] theorem State.modRtc_pending (g : RtcState → RtcState) : (s.modRtc g).pending = s.pending := rfl
@[simp] theorem State.modRtc_regs (g : RtcState → RtcState) : (s.modRtc g).regs = s.regs := rfl
@[simp] theorem State.modRtc_mem (g : RtcState → RtcState) : (s.modRtc g).mem = s.mem := rfl
@[simp] theorem State.modRtc_ramLoss (g : RtcState → RtcState) : (s.modRtc g).ramLoss = s.ramLoss := rfl
@[simp] theorem State.modRtc_latches (g : RtcState → RtcState) : (s.modRtc g).latches = s.latches := rfl
@[simp] theorem State.modRtc_holds (g : RtcState → RtcState) : (s.modRtc g).holds = s.holds := rfl
@[simp] theorem State.modRtc_busData (g : RtcState → RtcState) : (s.modRtc g).busData = s.busData := rfl
@[simp] theorem State.modRtc_taskq (g : RtcState → RtcState) : (s.modRtc g).taskq = s.taskq := rfl
@[simp] theorem State.modRtc_fired (g : RtcState → RtcState) : (s.modRtc g).fired = s.fired := rfl
@[simp] theorem State.modRtc_freeSeq (g : RtcState → RtcState) : (s.modRtc g).freeSeq = s.freeSeq := rfl
@[simp] theorem State.modRtc_rest (g : RtcState → RtcState) : (s.modRtc g).rest = s.rest := rfl
@[simp] theorem State.modRtc_whiskTest (g : RtcState → RtcState) : (s.modRtc g).whiskTest = s.whiskTest := rfl
@[simp] theorem State.modRtc_whiskHeld (g : RtcState → RtcState) : (s.modRtc g).whiskHeld = s.whiskHeld := rfl
@[simp] theorem State.modRtc_whiskAge (g : RtcState → RtcState) : (s.modRtc g).whiskAge = s.whiskAge := rfl
@[simp] theorem State.modRtc_cyc (g : RtcState → RtcState) : (s.modRtc g).cyc = s.cyc := rfl
@[simp] theorem State.modRtc_rr (g : RtcState → RtcState) : (s.modRtc g).rr = s.rr := rfl
@[simp] theorem State.modRtc_brn (g : RtcState → RtcState) : (s.modRtc g).brn = s.brn := rfl
@[simp] theorem State.modRtc_c3 (g : RtcState → RtcState) : (s.modRtc g).c3 = s.c3 := rfl
@[simp] theorem State.modRtc_tb (g : RtcState → RtcState) : (s.modRtc g).tb = s.tb := rfl
@[simp] theorem State.modRtc_mod (g : RtcState → RtcState) : (s.modRtc g).mod = s.mod := rfl
@[simp] theorem State.modRtc_fe (g : RtcState → RtcState) : (s.modRtc g).fe = s.fe := rfl
@[simp] theorem State.modRtc_boot (g : RtcState → RtcState) : (s.modRtc g).boot = s.boot := rfl
@[simp] theorem State.modRtc_bistPart (g : RtcState → RtcState) : (s.modRtc g).bistPart = s.bistPart := rfl
@[simp] theorem State.modRtc_cp (g : RtcState → RtcState) : (s.modRtc g).cp = s.cp := rfl
@[simp] theorem State.modRtc_fwd (g : RtcState → RtcState) : (s.modRtc g).fwd = s.fwd := rfl
@[simp] theorem State.modRtc_mac (g : RtcState → RtcState) : (s.modRtc g).mac = s.mac := rfl
@[simp] theorem State.modRtc_ciph (g : RtcState → RtcState) : (s.modRtc g).ciph = s.ciph := rfl
@[simp] theorem State.modRtc_hp (g : RtcState → RtcState) : (s.modRtc g).hp = s.hp := rfl
@[simp] theorem State.modRtc_fl (g : RtcState → RtcState) : (s.modRtc g).fl = s.fl := rfl
@[simp] theorem State.modRtc_fuse (g : RtcState → RtcState) : (s.modRtc g).fuse = s.fuse := rfl
@[simp] theorem State.modRtc_rtc (g : RtcState → RtcState) : (s.modRtc g).rtc = g s.rtc := rfl
@[simp] theorem State.modRtc_lio (g : RtcState → RtcState) : (s.modRtc g).lio = s.lio := rfl
@[simp] theorem State.modRtc_pwr (g : RtcState → RtcState) : (s.modRtc g).pwr = s.pwr := rfl
@[simp] theorem State.modRtc_upd (g : RtcState → RtcState) : (s.modRtc g).upd = s.upd := rfl
@[simp] theorem State.modRtc_bist (g : RtcState → RtcState) : (s.modRtc g).bist = s.bist := rfl
@[simp] theorem State.modRtc_dbg (g : RtcState → RtcState) : (s.modRtc g).dbg = s.dbg := rfl
@[simp] theorem State.modLio_pending (g : LioState → LioState) : (s.modLio g).pending = s.pending := rfl
@[simp] theorem State.modLio_regs (g : LioState → LioState) : (s.modLio g).regs = s.regs := rfl
@[simp] theorem State.modLio_mem (g : LioState → LioState) : (s.modLio g).mem = s.mem := rfl
@[simp] theorem State.modLio_ramLoss (g : LioState → LioState) : (s.modLio g).ramLoss = s.ramLoss := rfl
@[simp] theorem State.modLio_latches (g : LioState → LioState) : (s.modLio g).latches = s.latches := rfl
@[simp] theorem State.modLio_holds (g : LioState → LioState) : (s.modLio g).holds = s.holds := rfl
@[simp] theorem State.modLio_busData (g : LioState → LioState) : (s.modLio g).busData = s.busData := rfl
@[simp] theorem State.modLio_taskq (g : LioState → LioState) : (s.modLio g).taskq = s.taskq := rfl
@[simp] theorem State.modLio_fired (g : LioState → LioState) : (s.modLio g).fired = s.fired := rfl
@[simp] theorem State.modLio_freeSeq (g : LioState → LioState) : (s.modLio g).freeSeq = s.freeSeq := rfl
@[simp] theorem State.modLio_rest (g : LioState → LioState) : (s.modLio g).rest = s.rest := rfl
@[simp] theorem State.modLio_whiskTest (g : LioState → LioState) : (s.modLio g).whiskTest = s.whiskTest := rfl
@[simp] theorem State.modLio_whiskHeld (g : LioState → LioState) : (s.modLio g).whiskHeld = s.whiskHeld := rfl
@[simp] theorem State.modLio_whiskAge (g : LioState → LioState) : (s.modLio g).whiskAge = s.whiskAge := rfl
@[simp] theorem State.modLio_cyc (g : LioState → LioState) : (s.modLio g).cyc = s.cyc := rfl
@[simp] theorem State.modLio_rr (g : LioState → LioState) : (s.modLio g).rr = s.rr := rfl
@[simp] theorem State.modLio_brn (g : LioState → LioState) : (s.modLio g).brn = s.brn := rfl
@[simp] theorem State.modLio_c3 (g : LioState → LioState) : (s.modLio g).c3 = s.c3 := rfl
@[simp] theorem State.modLio_tb (g : LioState → LioState) : (s.modLio g).tb = s.tb := rfl
@[simp] theorem State.modLio_mod (g : LioState → LioState) : (s.modLio g).mod = s.mod := rfl
@[simp] theorem State.modLio_fe (g : LioState → LioState) : (s.modLio g).fe = s.fe := rfl
@[simp] theorem State.modLio_boot (g : LioState → LioState) : (s.modLio g).boot = s.boot := rfl
@[simp] theorem State.modLio_bistPart (g : LioState → LioState) : (s.modLio g).bistPart = s.bistPart := rfl
@[simp] theorem State.modLio_cp (g : LioState → LioState) : (s.modLio g).cp = s.cp := rfl
@[simp] theorem State.modLio_fwd (g : LioState → LioState) : (s.modLio g).fwd = s.fwd := rfl
@[simp] theorem State.modLio_mac (g : LioState → LioState) : (s.modLio g).mac = s.mac := rfl
@[simp] theorem State.modLio_ciph (g : LioState → LioState) : (s.modLio g).ciph = s.ciph := rfl
@[simp] theorem State.modLio_hp (g : LioState → LioState) : (s.modLio g).hp = s.hp := rfl
@[simp] theorem State.modLio_fl (g : LioState → LioState) : (s.modLio g).fl = s.fl := rfl
@[simp] theorem State.modLio_fuse (g : LioState → LioState) : (s.modLio g).fuse = s.fuse := rfl
@[simp] theorem State.modLio_rtc (g : LioState → LioState) : (s.modLio g).rtc = s.rtc := rfl
@[simp] theorem State.modLio_lio (g : LioState → LioState) : (s.modLio g).lio = g s.lio := rfl
@[simp] theorem State.modLio_pwr (g : LioState → LioState) : (s.modLio g).pwr = s.pwr := rfl
@[simp] theorem State.modLio_upd (g : LioState → LioState) : (s.modLio g).upd = s.upd := rfl
@[simp] theorem State.modLio_bist (g : LioState → LioState) : (s.modLio g).bist = s.bist := rfl
@[simp] theorem State.modLio_dbg (g : LioState → LioState) : (s.modLio g).dbg = s.dbg := rfl
@[simp] theorem State.modUpd_pending (g : UpdState → UpdState) : (s.modUpd g).pending = s.pending := rfl
@[simp] theorem State.modUpd_regs (g : UpdState → UpdState) : (s.modUpd g).regs = s.regs := rfl
@[simp] theorem State.modUpd_mem (g : UpdState → UpdState) : (s.modUpd g).mem = s.mem := rfl
@[simp] theorem State.modUpd_ramLoss (g : UpdState → UpdState) : (s.modUpd g).ramLoss = s.ramLoss := rfl
@[simp] theorem State.modUpd_latches (g : UpdState → UpdState) : (s.modUpd g).latches = s.latches := rfl
@[simp] theorem State.modUpd_holds (g : UpdState → UpdState) : (s.modUpd g).holds = s.holds := rfl
@[simp] theorem State.modUpd_busData (g : UpdState → UpdState) : (s.modUpd g).busData = s.busData := rfl
@[simp] theorem State.modUpd_taskq (g : UpdState → UpdState) : (s.modUpd g).taskq = s.taskq := rfl
@[simp] theorem State.modUpd_fired (g : UpdState → UpdState) : (s.modUpd g).fired = s.fired := rfl
@[simp] theorem State.modUpd_freeSeq (g : UpdState → UpdState) : (s.modUpd g).freeSeq = s.freeSeq := rfl
@[simp] theorem State.modUpd_rest (g : UpdState → UpdState) : (s.modUpd g).rest = s.rest := rfl
@[simp] theorem State.modUpd_whiskTest (g : UpdState → UpdState) : (s.modUpd g).whiskTest = s.whiskTest := rfl
@[simp] theorem State.modUpd_whiskHeld (g : UpdState → UpdState) : (s.modUpd g).whiskHeld = s.whiskHeld := rfl
@[simp] theorem State.modUpd_whiskAge (g : UpdState → UpdState) : (s.modUpd g).whiskAge = s.whiskAge := rfl
@[simp] theorem State.modUpd_cyc (g : UpdState → UpdState) : (s.modUpd g).cyc = s.cyc := rfl
@[simp] theorem State.modUpd_rr (g : UpdState → UpdState) : (s.modUpd g).rr = s.rr := rfl
@[simp] theorem State.modUpd_brn (g : UpdState → UpdState) : (s.modUpd g).brn = s.brn := rfl
@[simp] theorem State.modUpd_c3 (g : UpdState → UpdState) : (s.modUpd g).c3 = s.c3 := rfl
@[simp] theorem State.modUpd_tb (g : UpdState → UpdState) : (s.modUpd g).tb = s.tb := rfl
@[simp] theorem State.modUpd_mod (g : UpdState → UpdState) : (s.modUpd g).mod = s.mod := rfl
@[simp] theorem State.modUpd_fe (g : UpdState → UpdState) : (s.modUpd g).fe = s.fe := rfl
@[simp] theorem State.modUpd_boot (g : UpdState → UpdState) : (s.modUpd g).boot = s.boot := rfl
@[simp] theorem State.modUpd_bistPart (g : UpdState → UpdState) : (s.modUpd g).bistPart = s.bistPart := rfl
@[simp] theorem State.modUpd_cp (g : UpdState → UpdState) : (s.modUpd g).cp = s.cp := rfl
@[simp] theorem State.modUpd_fwd (g : UpdState → UpdState) : (s.modUpd g).fwd = s.fwd := rfl
@[simp] theorem State.modUpd_mac (g : UpdState → UpdState) : (s.modUpd g).mac = s.mac := rfl
@[simp] theorem State.modUpd_ciph (g : UpdState → UpdState) : (s.modUpd g).ciph = s.ciph := rfl
@[simp] theorem State.modUpd_hp (g : UpdState → UpdState) : (s.modUpd g).hp = s.hp := rfl
@[simp] theorem State.modUpd_fl (g : UpdState → UpdState) : (s.modUpd g).fl = s.fl := rfl
@[simp] theorem State.modUpd_fuse (g : UpdState → UpdState) : (s.modUpd g).fuse = s.fuse := rfl
@[simp] theorem State.modUpd_rtc (g : UpdState → UpdState) : (s.modUpd g).rtc = s.rtc := rfl
@[simp] theorem State.modUpd_lio (g : UpdState → UpdState) : (s.modUpd g).lio = s.lio := rfl
@[simp] theorem State.modUpd_pwr (g : UpdState → UpdState) : (s.modUpd g).pwr = s.pwr := rfl
@[simp] theorem State.modUpd_upd (g : UpdState → UpdState) : (s.modUpd g).upd = g s.upd := rfl
@[simp] theorem State.modUpd_bist (g : UpdState → UpdState) : (s.modUpd g).bist = s.bist := rfl
@[simp] theorem State.modUpd_dbg (g : UpdState → UpdState) : (s.modUpd g).dbg = s.dbg := rfl
@[simp] theorem State.modCp_pending (p : Nat) (g : CpState → CpState) : (s.modCp p g).pending = s.pending := rfl
@[simp] theorem State.modCp_regs (p : Nat) (g : CpState → CpState) : (s.modCp p g).regs = s.regs := rfl
@[simp] theorem State.modCp_mem (p : Nat) (g : CpState → CpState) : (s.modCp p g).mem = s.mem := rfl
@[simp] theorem State.modCp_ramLoss (p : Nat) (g : CpState → CpState) : (s.modCp p g).ramLoss = s.ramLoss := rfl
@[simp] theorem State.modCp_latches (p : Nat) (g : CpState → CpState) : (s.modCp p g).latches = s.latches := rfl
@[simp] theorem State.modCp_holds (p : Nat) (g : CpState → CpState) : (s.modCp p g).holds = s.holds := rfl
@[simp] theorem State.modCp_busData (p : Nat) (g : CpState → CpState) : (s.modCp p g).busData = s.busData := rfl
@[simp] theorem State.modCp_taskq (p : Nat) (g : CpState → CpState) : (s.modCp p g).taskq = s.taskq := rfl
@[simp] theorem State.modCp_fired (p : Nat) (g : CpState → CpState) : (s.modCp p g).fired = s.fired := rfl
@[simp] theorem State.modCp_freeSeq (p : Nat) (g : CpState → CpState) : (s.modCp p g).freeSeq = s.freeSeq := rfl
@[simp] theorem State.modCp_rest (p : Nat) (g : CpState → CpState) : (s.modCp p g).rest = s.rest := rfl
@[simp] theorem State.modCp_whiskTest (p : Nat) (g : CpState → CpState) : (s.modCp p g).whiskTest = s.whiskTest := rfl
@[simp] theorem State.modCp_whiskHeld (p : Nat) (g : CpState → CpState) : (s.modCp p g).whiskHeld = s.whiskHeld := rfl
@[simp] theorem State.modCp_whiskAge (p : Nat) (g : CpState → CpState) : (s.modCp p g).whiskAge = s.whiskAge := rfl
@[simp] theorem State.modCp_cyc (p : Nat) (g : CpState → CpState) : (s.modCp p g).cyc = s.cyc := rfl
@[simp] theorem State.modCp_rr (p : Nat) (g : CpState → CpState) : (s.modCp p g).rr = s.rr := rfl
@[simp] theorem State.modCp_brn (p : Nat) (g : CpState → CpState) : (s.modCp p g).brn = s.brn := rfl
@[simp] theorem State.modCp_c3 (p : Nat) (g : CpState → CpState) : (s.modCp p g).c3 = s.c3 := rfl
@[simp] theorem State.modCp_tb (p : Nat) (g : CpState → CpState) : (s.modCp p g).tb = s.tb := rfl
@[simp] theorem State.modCp_mod (p : Nat) (g : CpState → CpState) : (s.modCp p g).mod = s.mod := rfl
@[simp] theorem State.modCp_fe (p : Nat) (g : CpState → CpState) : (s.modCp p g).fe = s.fe := rfl
@[simp] theorem State.modCp_boot (p : Nat) (g : CpState → CpState) : (s.modCp p g).boot = s.boot := rfl
@[simp] theorem State.modCp_bistPart (p : Nat) (g : CpState → CpState) : (s.modCp p g).bistPart = s.bistPart := rfl
@[simp] theorem State.modCp_cp (p : Nat) (g : CpState → CpState) : (s.modCp p g).cp = modAt {} s.cp p g := rfl
@[simp] theorem State.modCp_fwd (p : Nat) (g : CpState → CpState) : (s.modCp p g).fwd = s.fwd := rfl
@[simp] theorem State.modCp_mac (p : Nat) (g : CpState → CpState) : (s.modCp p g).mac = s.mac := rfl
@[simp] theorem State.modCp_ciph (p : Nat) (g : CpState → CpState) : (s.modCp p g).ciph = s.ciph := rfl
@[simp] theorem State.modCp_hp (p : Nat) (g : CpState → CpState) : (s.modCp p g).hp = s.hp := rfl
@[simp] theorem State.modCp_fl (p : Nat) (g : CpState → CpState) : (s.modCp p g).fl = s.fl := rfl
@[simp] theorem State.modCp_fuse (p : Nat) (g : CpState → CpState) : (s.modCp p g).fuse = s.fuse := rfl
@[simp] theorem State.modCp_rtc (p : Nat) (g : CpState → CpState) : (s.modCp p g).rtc = s.rtc := rfl
@[simp] theorem State.modCp_lio (p : Nat) (g : CpState → CpState) : (s.modCp p g).lio = s.lio := rfl
@[simp] theorem State.modCp_pwr (p : Nat) (g : CpState → CpState) : (s.modCp p g).pwr = s.pwr := rfl
@[simp] theorem State.modCp_upd (p : Nat) (g : CpState → CpState) : (s.modCp p g).upd = s.upd := rfl
@[simp] theorem State.modCp_bist (p : Nat) (g : CpState → CpState) : (s.modCp p g).bist = s.bist := rfl
@[simp] theorem State.modCp_dbg (p : Nat) (g : CpState → CpState) : (s.modCp p g).dbg = s.dbg := rfl

/-! ### Registers and memory under updates of other fields -/

@[simp] theorem State.wr_byte (f : Fld) (v : Nat) (x : Nat) : (s.wr f v).byte x = s.byte x := rfl
@[simp] theorem State.resetRange_byte (lo hi : Nat) (x : Nat) : (s.resetRange lo hi).byte x = s.byte x := rfl
@[simp] theorem State.setByte_rd (a : Nat) (v : Byte) (k : Fld) : (s.setByte a v).rd k = s.rd k := rfl
@[simp] theorem State.modBx_rd (b : Nat) (g : BurnerX → BurnerX) (k : Fld) : (s.modBx b g).rd k = s.rd k := rfl
@[simp] theorem State.modBx_byte (b : Nat) (g : BurnerX → BurnerX) (x : Nat) : (s.modBx b g).byte x = s.byte x := rfl
@[simp] theorem State.modBist_rd (g : BistState → BistState) (k : Fld) : (s.modBist g).rd k = s.rd k := rfl
@[simp] theorem State.modBist_byte (g : BistState → BistState) (x : Nat) : (s.modBist g).byte x = s.byte x := rfl
@[simp] theorem State.modCiph_rd (g : CiphState → CiphState) (k : Fld) : (s.modCiph g).rd k = s.rd k := rfl
@[simp] theorem State.modCiph_byte (g : CiphState → CiphState) (x : Nat) : (s.modCiph g).byte x = s.byte x := rfl
@[simp] theorem State.modDbg_rd (g : DbgState → DbgState) (k : Fld) : (s.modDbg g).rd k = s.rd k := rfl
@[simp] theorem State.modDbg_byte (g : DbgState → DbgState) (x : Nat) : (s.modDbg g).byte x = s.byte x := rfl
@[simp] theorem State.modFl_rd (g : FlState → FlState) (k : Fld) : (s.modFl g).rd k = s.rd k := rfl
@[simp] theorem State.modFl_byte (g : FlState → FlState) (x : Nat) : (s.modFl g).byte x = s.byte x := rfl
@[simp] theorem State.modFwd_rd (g : FwdState → FwdState) (k : Fld) : (s.modFwd g).rd k = s.rd k := rfl
@[simp] theorem State.modFwd_byte (g : FwdState → FwdState) (x : Nat) : (s.modFwd g).byte x = s.byte x := rfl
@[simp] theorem State.modHp_rd (g : HpState → HpState) (k : Fld) : (s.modHp g).rd k = s.rd k := rfl
@[simp] theorem State.modHp_byte (g : HpState → HpState) (x : Nat) : (s.modHp g).byte x = s.byte x := rfl
@[simp] theorem State.modMac_rd (g : MacState → MacState) (k : Fld) : (s.modMac g).rd k = s.rd k := rfl
@[simp] theorem State.modMac_byte (g : MacState → MacState) (x : Nat) : (s.modMac g).byte x = s.byte x := rfl
@[simp] theorem State.modPwr_rd (g : PwrState → PwrState) (k : Fld) : (s.modPwr g).rd k = s.rd k := rfl
@[simp] theorem State.modPwr_byte (g : PwrState → PwrState) (x : Nat) : (s.modPwr g).byte x = s.byte x := rfl
@[simp] theorem State.modRtc_rd (g : RtcState → RtcState) (k : Fld) : (s.modRtc g).rd k = s.rd k := rfl
@[simp] theorem State.modRtc_byte (g : RtcState → RtcState) (x : Nat) : (s.modRtc g).byte x = s.byte x := rfl
@[simp] theorem State.modLio_rd (g : LioState → LioState) (k : Fld) : (s.modLio g).rd k = s.rd k := rfl
@[simp] theorem State.modLio_byte (g : LioState → LioState) (x : Nat) : (s.modLio g).byte x = s.byte x := rfl
@[simp] theorem State.modUpd_rd (g : UpdState → UpdState) (k : Fld) : (s.modUpd g).rd k = s.rd k := rfl
@[simp] theorem State.modUpd_byte (g : UpdState → UpdState) (x : Nat) : (s.modUpd g).byte x = s.byte x := rfl
@[simp] theorem State.modCp_rd (p : Nat) (g : CpState → CpState) (k : Fld) : (s.modCp p g).rd k = s.rd k := rfl
@[simp] theorem State.modCp_byte (p : Nat) (g : CpState → CpState) (x : Nat) : (s.modCp p g).byte x = s.byte x := rfl

end Sys2Proof.Machine
end

