-- ==== Sys2Proof/Laws/Ops.lean ====
section
/-! SUPPORT. What the shared operations do, once each: the register file, memory and its canonical form, events, and what
surrounds a command. -/

namespace Sys2Proof.Machine

/-! ### Sorted association lists -/

theorem lookup_insert_self {α : Type} (l : List (Nat × α)) (a : Nat) (v : α) : lookup (insert l a v) a = some v := by
  induction l with
  | nil => simp [insert, lookup]
  | cons e t ih =>
    obtain ⟨k, x⟩ := e
    simp only [insert]
    split
    · simp [lookup]
    · split
      · simp [lookup]
      · next h => simp [lookup, Ne.symm h, ih]

theorem lookup_insert_ne {α : Type} (l : List (Nat × α)) {a b : Nat} (v : α) (h : b ≠ a) :
    lookup (insert l a v) b = lookup l b := by
  induction l with
  | nil => simp [insert, lookup, Ne.symm h]
  | cons e t ih =>
    obtain ⟨k, x⟩ := e
    simp only [insert]
    split
    · simp [lookup, Ne.symm h]
    · split
      · next h2 => subst h2; simp [lookup, Ne.symm h]
      · simp [lookup, ih]

theorem lookup_filter {α : Type} (l : List (Nat × α)) (p : Nat → Bool) (b : Nat) :
    lookup (l.filter fun e => p e.1) b = if p b then lookup l b else none := by
  induction l with
  | nil => simp [lookup]
  | cons e t ih =>
    obtain ⟨k, x⟩ := e
    by_cases hk : k = b
    · subst hk
      by_cases hp : p k <;> simp [lookup, hp, ih]
    · by_cases hp : p k <;> simp [lookup, hp, hk, ih]

theorem lookup_erase {α : Type} (l : List (Nat × α)) (a b : Nat) :
    lookup (erase l a) b = if b = a then none else lookup l b := by
  have := lookup_filter l (fun k => decide (k ≠ a)) b
  simp only [erase, this]
  by_cases h : b = a <;> simp [h]

theorem lookup_eraseRange {α : Type} (l : List (Nat × α)) (lo hi b : Nat) :
    lookup (eraseRange l lo hi) b = if b < lo ∨ hi ≤ b then lookup l b else none := by
  have := lookup_filter l (fun k => decide (k < lo) || decide (hi ≤ k)) b
  simp only [eraseRange, this]
  simp

/-- The keys of a list rise strictly above a bound. -/
def above {α : Type} (b : Nat) : List (Nat × α) → Prop
  | [] => True
  | e :: t => b < e.1 ∧ above e.1 t

theorem sortedKeys_cons {α : Type} (e : Nat × α) (t : List (Nat × α)) : sortedKeys (e :: t) = true ↔ above e.1 t := by
  induction t generalizing e with
  | nil => simp [sortedKeys, above]
  | cons f t ih => simp [sortedKeys, above, ih]

theorem above_mono {α : Type} {a b : Nat} {l : List (Nat × α)} (h : a ≤ b) (hl : above b l) : above a l := by
  cases l with
  | nil => trivial
  | cons e t => exact ⟨by have := hl.1; omega, hl.2⟩

theorem above_filter {α : Type} {b : Nat} {l : List (Nat × α)} (p : Nat × α → Bool) (h : above b l) :
    above b (l.filter p) := by
  induction l generalizing b with
  | nil => trivial
  | cons e t ih =>
    rw [List.filter_cons]
    split
    · exact ⟨h.1, ih h.2⟩
    · exact ih (above_mono (by have := h.1; omega) h.2)

theorem above_insert {α : Type} {b a : Nat} {l : List (Nat × α)} (v : α) (hb : b < a) (h : above b l) :
    above b (insert l a v) := by
  induction l generalizing b with
  | nil => exact ⟨hb, trivial⟩
  | cons e t ih =>
    obtain ⟨k, x⟩ := e
    simp only [insert]
    split
    · next hk => exact ⟨hb, hk, h.2⟩
    · split
      · next hk => subst hk; exact ⟨hb, h.2⟩
      · next h1 h2 => exact ⟨h.1, ih (by omega) h.2⟩

theorem sortedKeys_filter {α : Type} {l : List (Nat × α)} (p : Nat × α → Bool) (h : sortedKeys l = true) :
    sortedKeys (l.filter p) = true := by
  induction l with
  | nil => rfl
  | cons e t ih =>
    rw [sortedKeys_cons] at h
    rw [List.filter_cons]
    split
    · rw [sortedKeys_cons]; exact above_filter p h
    · apply ih
      cases t with
      | nil => rfl
      | cons f t => rw [sortedKeys_cons]; exact h.2

theorem sortedKeys_insert {α : Type} {l : List (Nat × α)} (a : Nat) (v : α) (h : sortedKeys l = true) :
    sortedKeys (insert l a v) = true := by
  cases l with
  | nil => rfl
  | cons e t =>
    obtain ⟨k, x⟩ := e
    rw [sortedKeys_cons] at h
    simp only [insert]
    split
    · next hk => rw [sortedKeys_cons]; exact ⟨hk, h⟩
    · split
      · next hk => subst hk; rw [sortedKeys_cons]; exact h
      · next h1 h2 => rw [sortedKeys_cons]; exact above_insert v (by omega) h

theorem mem_insert {α : Type} {l : List (Nat × α)} {a : Nat} {v : α} {e : Nat × α} (h : e ∈ insert l a v) :
    e = (a, v) ∨ e ∈ l := by
  induction l with
  | nil => simpa [insert] using h
  | cons f t ih =>
    obtain ⟨k, x⟩ := f
    simp only [insert] at h
    split at h
    · simpa using h
    · split at h
      · next hk =>
        rcases List.mem_cons.1 h with h | h
        · exact .inl h
        · exact .inr (List.mem_cons_of_mem _ h)
      · rcases List.mem_cons.1 h with h | h
        · exact .inr (by simp [h])
        · rcases ih h with h | h
          · exact .inl h
          · exact .inr (List.mem_cons_of_mem _ h)

/-! ### The register file -/

/-- A field holds no more than its width. -/
theorem State.rd_lt (s : State) (f : Fld) : s.rd f < 2 ^ f.w := Nat.mod_lt _ (Nat.two_pow_pos _)

@[simp] theorem State.rd_wr_self (s : State) (f : Fld) (v : Nat) : (s.wr f v).rd f = v % 2 ^ f.w := by
  simp [State.rd, State.wr, lookup_insert_self]

theorem State.rd_wr_bit (s : State) {f g : Fld} (v : Nat) (h : g.bit = f.bit) : (s.wr f v).rd g = v % 2 ^ f.w % 2 ^ g.w := by
  simp [State.rd, State.wr, h, lookup_insert_self]

theorem State.rd_wr_ne (s : State) {f g : Fld} (v : Nat) (h : g.bit ≠ f.bit) : (s.wr f v).rd g = s.rd g := by
  simp [State.rd, State.wr, lookup_insert_ne _ _ h]

/-! ### Lists read with a default -/

theorem getD_setAt {α : Type} (d : α) (l : List α) (i j : Nat) (v : α) :
    (setAt d l i v).getD j d = if j = i then v else l.getD j d := by
  unfold setAt
  by_cases hi : i < l.length
  · by_cases hj : j = i
    · subst hj; simp [List.getD, hi]
    · simp [List.getD, hi, hj, Ne.symm hj]
  · simp only [hi, if_false, List.getD, List.append_assoc]
    by_cases h1 : j < l.length
    · have : j ≠ i := by omega
      simp [List.getElem?_append_left, h1, this]
    · rw [List.getElem?_append_right (by omega)]
      by_cases h2 : j < i
      · have h3 : j - l.length < (List.replicate (i - l.length) d).length := by simp; omega
        have h4 : j ≠ i := by omega
        rw [List.getElem?_append_left h3]
        simp [h4, h1, show j - l.length < i - l.length by omega]
      · rw [List.getElem?_append_right (by simp; omega)]
        by_cases h4 : j = i
        · subst h4; simp
        · simp [h4, h1, show j - l.length - (i - l.length) ≠ 0 by omega]

theorem getD_modAt {α : Type} (d : α) (l : List α) (i j : Nat) (f : α → α) :
    (modAt d l i f).getD j d = if j = i then f (l.getD i d) else l.getD j d := getD_setAt d l i j _

theorem State.rd_resetRange (s : State) (lo hi : Nat) (f : Fld) :
    (s.resetRange lo hi).rd f = if f.bit < 8 * lo ∨ 8 * hi ≤ f.bit then s.rd f else f.rst % 2 ^ f.w := by
  simp only [State.rd, State.resetRange, lookup_eraseRange]
  split <;> simp

/-! ### Memory -/

theorem State.byte_setByte (s : State) (a b : Nat) (v : Byte) :
    (s.setByte a v).byte b = if b = a then v else s.byte b := by
  have hl : (s.setByte a v).losses b = s.losses b := rfl
  by_cases hd : memDef a = some v
  · by_cases h : b = a
    · subst h
      simp [State.byte, State.setByte, hd, lookup_erase]
    · simp only [State.byte, hl]
      simp [State.setByte, hd, lookup_erase, h]
  · by_cases h : b = a
    · subst h
      simp [State.byte, State.setByte, hd, lookup_insert_self]
    · simp only [State.byte, hl]
      simp [State.setByte, hd, lookup_insert_ne _ _ h, h]

theorem memWf_iff (s : State) : s.memWf = true ↔ sortedKeys s.mem = true ∧ ∀ c ∈ s.mem, memDef c.1 ≠ some c.2 := by
  simp [State.memWf]

theorem memWf_setByte {s : State} (a : Nat) (v : Byte) (h : s.memWf = true) : (s.setByte a v).memWf = true := by
  rw [memWf_iff] at h ⊢
  by_cases hd : memDef a = some v
  · simp only [State.setByte, hd, if_pos]
    exact ⟨sortedKeys_filter _ h.1, fun c hc => h.2 c (List.mem_filter.1 hc).1⟩
  · simp only [State.setByte, if_neg hd]
    refine ⟨sortedKeys_insert a v h.1, fun c hc => ?_⟩
    rcases mem_insert hc with rfl | hc
    · exact hd
    · exact h.2 c hc

theorem memWf_setBytes {s : State} (a : Nat) (l : List Byte) (h : s.memWf = true) : (s.setBytes a l).memWf = true := by
  induction l generalizing s a with
  | nil => exact h
  | cons v t ih => exact ih _ (memWf_setByte a v h)

theorem memWf_loseRam {s : State} (bank lo hi : Nat) (h : s.memWf = true) : (s.loseRam bank lo hi).memWf = true := by
  rw [memWf_iff] at h ⊢
  exact ⟨sortedKeys_filter _ h.1, fun c hc => h.2 c (List.mem_filter.1 hc).1⟩

/-- Any list of cells, put in canonical form, has it. -/
theorem canonMem_wf (m : List Host.Cell) :
    sortedKeys (canonMem m) = true ∧ ∀ c ∈ canonMem m, memDef c.1 ≠ some c.2 := by
  induction m with
  | nil => exact ⟨rfl, by simp [canonMem]⟩
  | cons e t ih =>
    have hc : canonMem (e :: t) =
        if memDef e.1 = some e.2 then erase (canonMem t) e.1 else insert (canonMem t) e.1 e.2 := rfl
    rw [hc]
    split
    · exact ⟨sortedKeys_filter _ ih.1, fun c hc => ih.2 c (List.mem_filter.1 hc).1⟩
    · next hd =>
      refine ⟨sortedKeys_insert _ _ ih.1, fun c hc => ?_⟩
      rcases mem_insert hc with rfl | hc
      · exact hd
      · exact ih.2 c hc

theorem lookup_canonMem (m : List Host.Cell) (a : Nat) :
    lookup (canonMem m) a = match lookup m a with
      | some v => if memDef a = some v then none else some v
      | none => none := by
  induction m with
  | nil => rfl
  | cons e t ih =>
    obtain ⟨k, v⟩ := e
    have hc : canonMem ((k, v) :: t) = if memDef k = some v then erase (canonMem t) k else insert (canonMem t) k v := rfl
    rw [hc]
    by_cases hk : k = a
    · subst hk
      by_cases hd : memDef k = some v
      · simp [hd, lookup, lookup_erase]
      · simp [hd, lookup, lookup_insert_self]
    · by_cases hd : memDef k = some v
      · simp only [hd, if_pos, lookup_erase, lookup, if_neg hk, if_neg (Ne.symm hk), ih]
      · simp only [hd, lookup, if_neg hk, ih, lookup_insert_ne _ _ (Ne.symm hk), if_false]

/-! ### What surrounds a command -/

theorem tidy_memWf (s : State) : (tidy s).memWf = true := by
  unfold tidy
  split
  · assumption
  · rw [memWf_iff]; exact canonMem_wf s.mem

theorem tidy_of_wf {s : State} (h : s.memWf = true) : tidy s = s := by simp [tidy, h]

@[simp] theorem tidy_byte (s : State) (a : Nat) : (tidy s).byte a = s.byte a := by
  unfold tidy
  split
  · rfl
  · show State.byte { s with mem := canonMem s.mem } a = _
    have hl : State.losses { s with mem := canonMem s.mem } a = s.losses a := rfl
    simp only [State.byte, hl, lookup_canonMem]
    cases lookup s.mem a with
    | none => rfl
    | some v =>
      by_cases hd : memDef a = some v
      · simp [hd]
      · simp [hd]

@[simp] theorem tidy_rd (s : State) (f : Fld) : (tidy s).rd f = s.rd f := by unfold tidy; split <;> rfl
@[simp] theorem tidy_fired (s : State) : (tidy s).fired = s.fired := by unfold tidy; split <;> rfl
@[simp] theorem tidy_taskq (s : State) : (tidy s).taskq = s.taskq := by unfold tidy; split <;> rfl
@[simp] theorem tidy_whiskHeld (s : State) : (tidy s).whiskHeld = s.whiskHeld := by unfold tidy; split <;> rfl
@[simp] theorem tidy_whiskAge (s : State) : (tidy s).whiskAge = s.whiskAge := by unfold tidy; split <;> rfl
@[simp] theorem tidy_pwr (s : State) : (tidy s).pwr = s.pwr := by unfold tidy; split <;> rfl
theorem tidy_part (s : State) (p : Part) : p.same s (tidy s) := by
  unfold tidy
  split <;> cases p <;> rfl

theorem after_inv (s : State) (f : State → State) : (after s f).Inv := tidy_memWf _
@[simp] theorem after_pending (s : State) (f : State → State) : (after s f).pending = s.pending := rfl
@[simp] theorem after_rd (s : State) (f : State → State) (k : Fld) : (after s f).rd k = (f (settle s)).rd k :=
  tidy_rd _ k
@[simp] theorem after_byte (s : State) (f : State → State) (a : Nat) : (after s f).byte a = (f (settle s)).byte a :=
  tidy_byte _ a
@[simp] theorem after_fired (s : State) (f : State → State) : (after s f).fired = (f (settle s)).fired := tidy_fired _

/-- Settling a quiet state only forgets what the last command showed. -/
theorem settle_quiet {s : State} (h : s.quiet = true) : settle s = forget s := by
  simp [settle, h]

/-! ### Frames -/

theorem Part.same_refl (u : State) (p : Part) : p.same u u := by cases p <;> rfl

theorem Part.same_trans {u v t : State} {p : Part} (h1 : p.same u v) (h2 : p.same v t) : p.same u t := by
  cases p <;> simp only [Part.same] at * <;> first
    | exact h2.trans h1
    | (have ha := congrArg PwrState.wdt h1
       have hb := congrArg PwrState.counted h1
       have hc := congrArg PwrState.first h1
       have hd := congrArg PwrState.wdt h2
       have he := congrArg PwrState.counted h2
       have hf := congrArg PwrState.first h2
       cases hu : u.pwr; cases ht : t.pwr; cases hv : v.pwr
       simp_all)

theorem Frame.refl (u : State) : Frame [] [] [] u u :=
  ⟨by simp, fun _ _ _ => rfl, fun _ => rfl, fun p _ => Part.same_refl u p, fun _ => ⟨rfl, rfl, rfl, rfl⟩⟩

/-- Frames compose. -/
theorem Frame.trans {k1 k2 : List Fld} {p1 p2 : List Part} {e1 e2 : List Nat} {u v t : State}
    (h1 : Frame k1 p1 e1 u v) (h2 : Frame k2 p2 e2 v t) : Frame (k1 ++ k2) (p1 ++ p2) (e1 ++ e2) u t where
  fired := by rw [h2.fired, h1.fired, List.append_assoc]
  regs f hk he := by
    rw [h2.regs f (fun k hk' => hk k (List.mem_append_right _ hk')) (he.imp_right fun h => (List.append_eq_nil_iff.1 h).2),
      h1.regs f (fun k hk' => hk k (List.mem_append_left _ hk')) (he.imp_right fun h => (List.append_eq_nil_iff.1 h).1)]
  mem a := (h2.mem a).trans (h1.mem a)
  parts p hp :=
    Part.same_trans (h1.parts p fun h => hp (List.mem_append_left _ h)) (h2.parts p fun h => hp (List.mem_append_right _ h))
  quiet he := by
    obtain ⟨ha, hb⟩ := List.append_eq_nil_iff.1 he
    obtain ⟨x1, x2, x3, x4⟩ := h1.quiet ha
    obtain ⟨y1, y2, y3, y4⟩ := h2.quiet hb
    exact ⟨y1.trans x1, y2.trans x2, y3.trans x3, y4.trans x4⟩

/-- A frame may name more than has changed. -/
theorem Frame.weaken {k k' : List Fld} {p p' : List Part} {e : List Nat} {u t : State} (h : Frame k p e u t)
    (hk : ∀ x ∈ k, x ∈ k') (hp : ∀ x ∈ p, x ∈ p') : Frame k' p' e u t :=
  ⟨h.fired, fun f hf he => h.regs f (fun x hx => hf x (hk x hx)) he, h.mem, fun q hq => h.parts q fun hx => hq (hp q hx),
    h.quiet⟩

theorem Frame.wr (u : State) (f : Fld) (v : Nat) : Frame [f] [] [] u (u.wr f v) :=
  ⟨by simp, fun g hg _ => State.rd_wr_ne u v (hg f (by simp)), fun _ => rfl, fun p _ => by cases p <;> rfl,
    fun _ => ⟨rfl, rfl, rfl, rfl⟩⟩

/-- The frame of a command's effect is the frame of the command. -/
theorem Frame.after {k : List Fld} {p : List Part} {e : List Nat} {s : State} {f : State → State}
    (h : Frame k p e (settle s) (f (settle s))) : Frame k p e (settle s) (after s f) where
  fired := by rw [after_fired]; exact h.fired
  regs g hg he := by rw [after_rd]; exact h.regs g hg he
  mem a := by rw [after_byte]; exact h.mem a
  parts q hq := Part.same_trans (h.parts q hq) (by
    have := tidy_part (f (settle s)) q
    cases q <;> exact this)
  quiet he := by
    obtain ⟨a, b, d, c⟩ := h.quiet he
    refine ⟨(tidy_taskq _).trans a, (tidy_whiskHeld _).trans b, (tidy_whiskAge _).trans d, ?_⟩
    show (tidy (f (settle s))).pwr.wake = _
    rw [tidy_pwr]; exact c

/-! ### Events (R122 to R136) -/

/-- What an event can change. -/
structure EventOnly (u t : State) : Prop where
  fired : t.fired = u.fired
  regs : ∀ f : Fld, eventBit f.bit = false → t.rd f = u.rd f
  mem : ∀ a, t.byte a = u.byte a
  parts : ∀ p, Part.same u t p
  pending : t.pending = u.pending

theorem EventOnly.refl (u : State) : EventOnly u u :=
  ⟨rfl, fun _ _ => rfl, fun _ => rfl, fun p => Part.same_refl u p, rfl⟩

theorem EventOnly.trans {u v t : State} (h1 : EventOnly u v) (h2 : EventOnly v t) : EventOnly u t :=
  ⟨h2.fired.trans h1.fired, fun f h => (h2.regs f h).trans (h1.regs f h), fun a => (h2.mem a).trans (h1.mem a),
    fun p => Part.same_trans (h1.parts p) (h2.parts p), h2.pending.trans h1.pending⟩

theorem EventOnly.wr (u : State) {f : Fld} (v : Nat) (h : eventBit f.bit = true) : EventOnly u (u.wr f v) :=
  ⟨rfl, fun g hg => State.rd_wr_ne u v (by intro e; rw [e, h] at hg; cases hg), fun _ => rfl,
    fun p => by cases p <;> rfl, rfl⟩

theorem EventOnly.foldl {α : Type} (g : State → α → State) (l : List α) (u : State)
    (h : ∀ s, ∀ x ∈ l, EventOnly s (g s x)) : EventOnly u (l.foldl g u) := by
  induction l generalizing u with
  | nil => exact .refl u
  | cons x t ih => exact (h u x (by simp)).trans (ih _ fun s y hy => h s y (by simp [hy]))

theorem withheld_only (u : State) : EventOnly u (withheld u) :=
  (EventOnly.wr u 1 (by decide)).trans (EventOnly.wr _ _ (by decide))

theorem markWake_only (u : State) : EventOnly u (markWake u) :=
  ⟨rfl, fun _ _ => rfl, fun _ => rfl, fun p => by cases p <;> rfl, rfl⟩

theorem noteWake_only (u : State) : EventOnly u (noteWake u) := by
  unfold noteWake
  split
  · exact .refl u
  · exact markWake_only u

theorem noteFiring_only (f : Firing) (u : State) : EventOnly u (noteFiring f u) := by
  unfold noteFiring
  split
  · exact markWake_only u
  · exact .refl u

theorem eventBit_ovr : ∀ c < 64, eventBit (F.WHISK_OVR c).bit = true := by decide
theorem eventBit_wpend : ∀ n < 16, eventBit (F.BRN_WPEND_PEND n).bit = true := by decide

theorem channelFlag_only {c : Nat} (hc : c < 64) (u : State) : EventOnly u (channelFlag c u) := by
  unfold channelFlag
  split
  · exact (EventOnly.wr u _ (by decide)).trans (EventOnly.wr _ _ (eventBit_ovr c hc))
  · exact EventOnly.wr u _ (by decide)

theorem channelWake_only {n : Nat} (c : Nat) (hn : n < 16) (u : State) : EventOnly u (channelWake c n u) := by
  unfold channelWake
  split
  · exact .refl u
  · exact (EventOnly.wr u _ (eventBit_wpend n hn)).trans (noteWake_only _)

theorem channelTask_only (t : Nat) (u : State) : EventOnly u (channelTask t u) := by
  unfold channelTask
  split
  · exact .refl u
  · split
    · exact (EventOnly.wr u 1 (by decide)).trans (EventOnly.wr _ _ (by decide))
    · exact ⟨rfl, fun _ _ => rfl, fun _ => rfl, fun p => by cases p <;> rfl, rfl⟩

theorem groupFired_only (c : Nat) (u : State) : EventOnly u (groupFired c u) :=
  ⟨rfl, fun _ _ => rfl, fun _ => rfl, fun p => by cases p <;> rfl, rfl⟩

theorem holdFiring_only (f : Firing) (u : State) : EventOnly u (holdFiring f u) :=
  ⟨rfl, fun _ _ => rfl, fun _ => rfl, fun p => by cases p <;> rfl, rfl⟩

/-- Delivering a firing changes no more than events reach. -/
theorem deliver_only {f : Firing} (hc : f.chan < 64) (hw : ∀ n ∈ f.wakes, n < 16) (u : State) : EventOnly u (deliver f u) :=
  (channelFlag_only hc u).trans ((EventOnly.foldl _ _ _ fun s n hn => channelWake_only f.chan (hw n hn) s).trans
    (EventOnly.foldl _ _ _ fun s t _ => channelTask_only t s))

theorem firing_wakes_lt (u : State) (c : Nat) : ∀ n ∈ (u.firing c).wakes, n < 16 := by
  intro n hn
  simp only [State.firing, bitsSet, List.mem_filter, List.mem_range] at hn
  exact hn.1.1

theorem channelFire_only {c : Nat} (hc : c < 64) (u : State) : EventOnly u (channelFire c u) := by
  unfold channelFire
  split
  · exact .refl u
  · dsimp only
    have h := ((EventOnly.foldl (fun s _ => withheld s) (List.range (u.withheldOf c)) u fun s _ _ => withheld_only s).trans
      (noteFiring_only (u.firing c) _)).trans (groupFired_only c _)
    split
    · exact h.trans ((holdFiring_only _ _).trans (EventOnly.wr _ _ (by decide)))
    · exact h.trans (deliver_only hc (firing_wakes_lt u c) _)

/-- The events a source adds to those that occurred: none in Rest, from a block that does not run there (R134). -/
def State.firedOf (u : State) (n : Nat) : List Nat := if u.inRest && !srcInRest n then [] else [n]

theorem fireAs_only (secure : Bool) (n : Nat) (u : State) :
    EventOnly { u with fired := u.fired ++ u.firedOf n } (fireAs secure n u) := by
  unfold fireAs State.firedOf
  by_cases h : (u.inRest && !srcInRest n) = true
  · simp only [h, if_true, List.append_nil]; exact .refl u
  simp only [h]
  change EventOnly { u with fired := u.fired ++ [n] } _
  refine EventOnly.trans ?_ (EventOnly.foldl _ _ _ fun s c hc => channelFire_only ?_ s)
  · split
    · exact withheld_only _
    · exact .refl _
  · simp only [State.channelsOf, List.mem_filter, List.mem_range] at hc
    exact hc.1.1

/-- An event is recorded, and reaches no more than events can (R122, R124). -/
theorem fire_only (n : Nat) (u : State) : EventOnly { u with fired := u.fired ++ u.firedOf n } (fire n u) :=
  fireAs_only _ n u

/-- In Rest an event of a block that does not run there does not occur (R134). -/
theorem fire_none {n : Nat} {u : State} (h : (u.inRest && !srcInRest n) = true) : fire n u = u := by
  simp [fire, fireAs, h]

theorem State.firedOf_awake {u : State} (h : u.inRest = false) (n : Nat) : u.firedOf n = [n] := by simp [firedOf, h]
theorem State.firedOf_rest {n : Nat} (h : srcInRest n = true) (u : State) : u.firedOf n = [n] := by simp [firedOf, h]

@[simp] theorem fire_fired (n : Nat) (u : State) : (fire n u).fired = u.fired ++ u.firedOf n := (fire_only n u).fired
@[simp] theorem fire_byte (n : Nat) (u : State) (a : Nat) : (fire n u).byte a = u.byte a := (fire_only n u).mem a
theorem fire_rd (n : Nat) (u : State) {f : Fld} (h : eventBit f.bit = false) : (fire n u).rd f = u.rd f :=
  (fire_only n u).regs f h
theorem fire_part (n : Nat) (u : State) (p : Part) : p.same u (fire n u) := by
  have := (fire_only n u).parts p
  cases p <;> exact this

theorem Frame.fire (n : Nat) (u : State) : Frame [] [] (u.firedOf n) u (fire n u) :=
 by
  by_cases h : (u.inRest && !srcInRest n) = true
  · rw [fire_none h, State.firedOf, if_pos h]
    exact ⟨by simp, fun _ _ _ => rfl, fun _ => rfl, fun p _ => Part.same_refl u p, fun _ => ⟨rfl, rfl, rfl, rfl⟩⟩
  · have hf : u.firedOf n = [n] := if_neg h
    exact ⟨fire_fired n u, fun f _ he => fire_rd n u (he.resolve_right (by simp [hf])), fire_byte n u,
      fun p _ => fire_part n u p, fun e => by simp [hf] at e⟩

/-! ### Commands -/

theorem completes_run {i : Instr} {s : State} {P : State → Prop} (f : State → State) (h : exec i s = run s f)
    (hp : P (after s f)) : Completes i s P := ⟨after s f, h, rfl, after_inv s f, hp⟩

theorem runCore_eq {s : State} (f : State → State) (h : (settle s).coreUp = true) :
    runCore s f = .next (after s f) := by
  simp [runCore, run, after, h]

theorem runAon_eq {s : State} (f : State → State) (h : (settle s).aonUp = true) :
    runAon s f = .next (after s f) := by
  simp [runAon, run, after, whenAon, h]

theorem runPwr_eq {s : State} (f : State → State) (h : (settle s).boot.aonDown = false) :
    runPwr s f = .next (after s f) := by
  simp [runPwr, run, after, whenPowered, h]

end Sys2Proof.Machine
end

