-- ==== Sys2Proof/WellFormed.lean ====
section
/-! DEFINITION. Which commands the outside world can form: operands that fit their width and their accessor's unit (R39), and
measured or received values of the size that the spec gives them. The machine answers every command; an ill-formed one says
nothing about the hardware. -/

namespace Sys2Proof

/-- The bytes of a width. -/
def Width.bytes : Width → Nat
  | .w8 => 1
  | .w16 => 2
  | .w32 => 4

/-- An accessor's unit: burners access bytes, the host port 16-bit units, the debug port any (R39, R420, R463). -/
def unitFits (acc : Fin 18) (w : Width) : Bool :=
  if acc.val < 16 then w == .w8 else if acc.val = 16 then w == .w16 else true

/-- A unit stands at a multiple of its size (R39). -/
def aligned (addr : BitVec 24) (w : Width) : Bool := addr.toNat % w.bytes == 0

/-- A value fits its width. -/
def valueFits (v : BitVec 32) (w : Width) : Bool := v.toNat < 2 ^ (8 * w.bytes)

/-- A read of a unit. -/
def readFits (acc : Fin 18) (addr : BitVec 24) (w : Width) : Bool := unitFits acc w && aligned addr w

/-- A write of a unit. -/
def writeFits (acc : Fin 18) (addr : BitVec 24) (w : Width) (v : BitVec 32) : Bool := readFits acc addr w && valueFits v w

/-- A register of a Sweune word that the coprocessor commands name stands in 0 to 15 by its type; a radio payload holds at
most 255 bytes (R141), a spreading order is 5 to 12 (R140). -/
def orderFits (k : BitVec 4) : Bool := 5 ≤ k.toNat && k.toNat ≤ 12

/-- What ends a received frame: at least one block, or the loss of signal or block lock (R210). -/
def endingFits : CpEnding → Bool
  | .blocks l => !l.isEmpty
  | .loss => true

/-- The echo canceller has 160 taps (R223). -/
def tapsFit (taps : List (BitVec 16)) : Bool := taps.length == 160

/-- A frame that writes has no read slots, one that reads no data words, and one cut off before its header's end neither
(R413, R417). -/
def writeFrameFits (f : HostFrame) : Bool := f.slots.isEmpty && (f.whole || f.words.isEmpty)

/-- A frame that reads. -/
def readFrameFits (f : HostFrame) : Bool := f.words.isEmpty && ((f.whole && f.turn) || f.slots.isEmpty)

/-- A slot has 16 blocks of 128 pages (R435, R452). -/
def installFits : InstallEnding → Bool
  | .page p => p.toNat < 2048
  | _ => true

/-- The command is well formed. -/
def Instr.wf : Instr → Bool
  | .regWrite acc addr w v => writeFits acc addr w v
  | .llReadLow acc addr w => readFits acc addr w
  | .llReadHigh acc addr w => readFits acc addr w
  | .llWriteLow acc addr w v => writeFits acc addr w v
  | .llWriteHigh acc addr w v => writeFits acc addr w v
  | .fwdTdataRead acc w => unitFits acc w
  | .captureRead acc _ _ w => unitFits acc w
  | .preambleDetect lanes ks snrs => ks.all orderFits && lanes.length == ks.length && lanes.length == snrs.length
  | .networkMark _ _ _ _ _ ago => ago.toNat ≤ 65
  | .headerDecode _ _ shifts => shifts.length == 18
  | .payloadEnd _ _ shifts => shifts.length ≤ 832
  | .cpFrameStart _ blks => !blks.isEmpty
  | .cpFrameEnd _ e => endingFits e
  | .cpRefl _ taps => tapsFit taps
  | .probeEnd _ taps => tapsFit taps
  | .recoveryPart frame => frame.length ≤ 255
  | .hostWrite f => writeFrameFits f
  | .hostBcastWrite f => writeFrameFits f
  | .hostRead f => readFrameFits f
  | .hostStatusRead f => readFrameFits f
  | .hpMasterAbort rx => rx.length ≤ 64
  | .masterDone rx => rx.length ≤ 64
  | .selectFault rx => rx.length ≤ 64
  | .installEnd e => installFits e
  | _ => true

end Sys2Proof
end

