-- ==== Sys2Proof/Tests/Slice0.lean ====
section
/-! SUPPORT. Tests: ill-formed commands are refused, the manual's worked examples and tables come out, and every statement that
has hypotheses has a state and operands that meet them. Expected values are the manual's own, or computed by hand from its
tables. -/

namespace Sys2Proof.Tests

open Sys2Proof Sys2Proof.Machine

set_option Elab.async false

/-- The state after reset with some fields at other values. -/
def given (fs : List (Fld × Nat)) : State := fs.foldl (fun s p => s.wr p.1 p.2) State.reset

/-- The state that a command answers. -/
def did (i : Instr) (s : State) : State :=
  match Machine.exec i s with
  | .next t => t
  | _ => s

/-- The events that a command has fired. -/
def events (i : Instr) (s : State) : List Nat := (did i s).fired

/-- Burner 0 of a state, with another hidden state. -/
def withBx (x : BurnerX) (s : State) : State := { s with brn := [x] ++ s.brn.drop 1 }

/-! ### WellFormed: each check refuses an ill-formed command -/

theorem test_wf_unit_burner : (Instr.regWrite 3 0x500000 .w16 0).wf = false := by decide +kernel
theorem test_wf_unit_host : (Instr.fwdTdataRead 16 .w8).wf = false := by decide +kernel
theorem test_wf_aligned : (Instr.llReadLow 17 0x504042 .w32).wf = false := by decide +kernel
theorem test_wf_value : (Instr.regWrite 3 0x500000 .w8 0x100).wf = false := by decide +kernel
theorem test_wf_order : (Instr.preambleDetect [0] [4] [0]).wf = false := by decide +kernel
theorem test_wf_payload : (Instr.payloadEnd 0 0 (List.replicate 833 0)).wf = false := by decide +kernel
theorem test_wf_start_block : (Instr.cpFrameStart 0 []).wf = false := by decide +kernel
theorem test_wf_ending : (Instr.cpFrameEnd 0 (.blocks [])).wf = false := by decide +kernel
theorem test_wf_taps : (Instr.cpRefl 0 [0]).wf = false := by decide +kernel
theorem test_wf_write_frame : (Instr.hostWrite ⟨true, 0, 0, [1], [true], true, true, 0⟩).wf = false := by decide +kernel
theorem test_wf_read_frame : (Instr.hostRead ⟨true, 0, 0, [1], [], true, true, 0⟩).wf = false := by decide +kernel
theorem test_wf_cut_frame : (Instr.hostWrite ⟨false, 0, 0, [1], [], true, true, 0⟩).wf = false := by decide +kernel
theorem test_wf_turnaround : (Instr.hostRead ⟨true, 0, 0, [], [true], true, false, 0⟩).wf = false := by decide +kernel
theorem test_wf_master : (Instr.masterDone (List.replicate 65 0)).wf = false := by decide +kernel
theorem test_wf_install : (Instr.installEnd (.page 2048)).wf = false := by decide +kernel
theorem test_wf_recovery : (Instr.recoveryPart (List.replicate 256 0)).wf = false := by decide +kernel
theorem test_wf_good : (Instr.regWrite 3 0x501026 .w8 0x7F).wf = true := by decide +kernel

/-! ### The manual's worked examples and check values -/

/-- The check values of R118, over the nine ASCII bytes "123456789" after CRCINIT: CBF4_3926h with CRCFIN. -/
theorem test_crc32 : crc32 [0x31, 0x32, 0x33, 0x34, 0x35, 0x36, 0x37, 0x38, 0x39] = 0xCBF43926 := by decide +kernel
/-- The last of the nine bytes of the 16-bit check value: 29B1h (R118); before it the state is that of "12345678", A12Bh. -/
theorem test_feed : ((did (.c1Feed 0 4) (withBx { c1cfg := 1, c1s := 0xA12B } (given [(F.BRN_B 0 4, 0x39)]))).bx 0).c1s = 0x29B1 := by
  decide +kernel

/-- The emulated MAC of R117's example: X = 5,000, Y = −200, A = 100,000 give −900,000, FF_FFF2_4460h modulo 2^40; OVF stays. -/
theorem test_mac : let x := (did (.c0Mac 0 0) (withBx { c0x := 0x1388, c0y := 0xFF38, c0a := 100000 } State.reset)).bx 0
    x.c0a = 0xFFFFF24460 ∧ x.c0stat = 0 := by decide +kernel

/-- The same word with C0 retired by self-test: ADVERB with the word in EINFO (R113). -/
theorem test_mac_retired : let t := did (.c0Mac 0 0) (given [(F.BIST_RET_PART, 2 ^ 18), (F.BRN_PC_PC 0, 0x2A7)])
    t.rd (F.BRN_EPC_EPC 0) = 0x2A7 ∧ t.rd (F.BRN_ECAUSE_CAUSE 0) = 3 ∧ t.rd (F.BRN_EINFO_WORD 0) = 0x700800 := by decide +kernel

/-- The loop of the summing example: BPL at 0107h with offset −5 goes to 0103h (R96), and DEC B6 from 0 sets N, leaving C. -/
theorem test_branch_back : (did (.br 0 ⟨5, -5⟩) (given [(F.BRN_PC_PC 0, 0x107)])).pc 0 = 0x103 := by decide +kernel
theorem test_dec_end : let t := did (.dec 0 ⟨0, 6, 0⟩) (given [(F.BRN_FLAGS_TVCNZ 0, 4)])
    t.breg 0 6 = 0xFF ∧ t.flags 0 = ⟨false, true, true, false, false⟩ := by decide +kernel

/-- Both halves of a clause read the old values (R99): an exchange by two moves. -/
theorem test_clause_swap : let t := did (.clause 0 ⟨0, ⟨0, 1, 2⟩, ⟨0, 2, 1⟩⟩) (given [(F.BRN_B 0 1, 7), (F.BRN_B 0 2, 9)])
    t.breg 0 1 = 9 ∧ t.breg 0 2 = 7 := by decide +kernel
/-- CALLR P6 reads P6 before it is written (R110). -/
theorem test_callr_p6 : let t := did (.callr 0 6) (given [(F.BRN_B 0 12, 0x34), (F.BRN_B 0 13, 0x12), (F.BRN_PC_PC 0, 0x20)])
    t.pc 0 = 0x1234 ∧ t.preg 0 6 = 0x21 := by decide +kernel

/-- The words of the summing example, of the exchange, of the retired C0's MAC and of NOP (R95, R103, R111, R117); a reserved class, and
the SYS functions from 0Fh on, spell nothing (R97). -/
theorem test_words :
    [0x084000, 0x890130, 0x190201, 0x040035, 0x046060, 0x257FFB, 0x809021, 0x700800, 0, 0x300000, 0x00F000].map (decodeWord 4) =
      [some (.ldp 4 ⟨0, 0x4000⟩), some (.clause 4 ⟨0, ⟨1, 2, 0⟩, ⟨1, 3, 0⟩⟩), some (.ldb 4 ⟨4, 0, 1, 1⟩), some (.adc 4 ⟨0, 3, 5⟩),
        some (.dec 4 ⟨0, 6, 0⟩), some (.br 4 ⟨5, -5⟩), some (.clause 4 ⟨0, ⟨0, 1, 2⟩, ⟨0, 2, 1⟩⟩), some (.c0Mac 4 0), some (.nop 4 0),
        none, none] := by decide +kernel

/-- Cycle 6 of the arbitration example: burner 6 would win and its mark is set, burner 9 is eligible too: 6 is passed over, 9 issues, and
rr[1] becomes 10 (R73, R74). -/
def tollgate : State :=
  let s := given [(F.BRN_STAT_STATE 6, stRun), (F.BRN_STAT_STATE 9, stRun), (F.BRN_CFG_PRIO 6, 1), (F.BRN_CFG_PRIO 9, 1)]
  setYield 6 true { s with rr := [3, 6, 0, 0] }
theorem test_passed_over : let el := fun b => b == 6 || b == 9
    tollgate.arbitrate el = some 9 ∧ ((issueMark 9 tollgate).bx 6).yield = false ∧ (issueMark 9 tollgate).rr = [3, 10, 0, 0] := by decide +kernel

/-- Sorrel Street: SEEK, OFS 5602h, U = 20 × 64 / 16; a crossing at 0012_5A40h:9A10h steps back to 0012_5A40h:5602h, GRID. -/
def sorrel : State := given [(F.TB_CFG_ZCEN, 1), (F.SYS_CLK_XORDY, 1), (F.TB_STAT_STATE, tbSeek), (F.TB_STAT_ZCOK, 1),
  (F.TB_OFS_OFS, 0x5602), (F.TB_OFS_VAL, 1), (F.TB_DRIFT_PPM, 20), (F.TB_SYNCAGE_AGE, 64), (F.TB_NOW_MCN, 0x125A40),
  (F.TB_NOW_FRAC, 0x9A10)]
theorem test_unc : sorrel.tbUnc = 0x50 := by decide +kernel
theorem test_grid_entry : let t := did (.zcCandidate 0x125A409A10 1000 20000000) sorrel
    t.now = 0x125A405602 ∧ t.rd F.TB_STAT_STATE = tbGrid ∧ 34 ∈ t.fired ∧ 35 ∈ t.fired := by decide +kernel

/-- Pestle Street: a firing of channel 5 while its flag is set overruns (R125). -/
theorem test_overrun : let t := did (.whiskFire 0 0x20) (given [(F.WHISK_FLAG_FLAG, 0x20)])
    t.rd F.WHISK_FLAG_FLAG = 0x20 ∧ t.rd F.WHISK_OVRF_OVR = 0x20 ∧ t.rd (F.WHISK_OVR 5) = 1 := by decide +kernel

/-- Whetstone Lane: charge 133,152 µs in sub-band 0 of 36,000 ms, power index 27 clamped to BATMAX = 22 on the battery (R190). -/
def whetstone : State :=
  let s := given [(F.FE_TXCFG_RAMP, 7), (F.FE_TXCFG_MAXIDX, 27), (F.FE_TXCFG_BATMAX, 22), (F.FE_SBLO_EN 0, 1), (F.FE_SBLO_KHZ 0, 868000),
    (F.FE_SBHI_KHZ 0, 868600), (F.FE_SBLIM_LIMIT 0, 36000), (F.PWR_STAT_ONBAT, 1), (F.FE_PWRTAB_VALID 22, 1), (F.FE_STAT_STATE, feRx),
    (F.FE_STAT_LOCK, 1), (F.FE_STAT_RXREQ, 1), (F.SYS_CLK_XORDY, 1), (F.FE_CTL_EN, 1), (F.MOD_CTL_EN, 1)]
  let report : TxReq := ⟨.data, 7, 1, 0, 0, 12, 0x2C5, ofInt (-4000) 16, 27, List.replicate 40 0, none⟩
  { s with fe := { s.fe with req := some report, buckets := [35700000 :: List.replicate 32 0] ++ s.fe.buckets.drop 1 } }
theorem test_admitted : let t := did .txAdmit whetstone
    t.sbUsed 0 = 35833152 ∧ t.rd F.FE_TXSTAT_IDX = 22 ∧ t.rd F.FE_PWRCLAMP = 1 ∧ t.fe_st = feRampup := by decide +kernel
/-- A third report is refused under REASON 8: with 35,966,304 µs used, the charge does not fit. -/
theorem test_third_refused :
    let t := did .txAdmit { whetstone with fe := { whetstone.fe with buckets := [35966304 :: List.replicate 32 0] ++ whetstone.fe.buckets.drop 1 } }
    t.rd F.FE_TXREF_REASON = 8 ∧ t.rd F.FE_SBEXH_EXH = 1 ∧ t.rd (F.FE_SBREF 0) = 1 ∧ 94 ∈ t.fired := by decide +kernel

/-- Ladle Yard: lane 0 at K7 with MOD_NID = 2C5h. -/
def ladle (x : Slot) : State :=
  let s := given [(F.MOD_CTL_EN, 1), (F.LANE_CFG_EN 0, 1), (F.LANE_CTL_SRCH 0, 1), (F.LANE_CFG_ORD 0, 0xFC), (F.LANE_CFG_BW 0, 1), (F.MOD_NID_NID, 0x2C5),
    (F.FE_STAT_STATE, 3), (F.FE_STAT_LOCK, 1), (F.FE_STAT_RXREQ, 1), (F.FE_CTL_EN, 1), (F.SYS_CLK_XORDY, 1), (F.MOD_CTL_LOPULL, 1)]
  { s with mod := { s.mod with slots := [x] ++ s.mod.slots.drop 1 } }
/-- The carrier 2,400 Hz high pulls the LO by 1,258 steps (R161). -/
theorem test_pull : (did (.frameMark 0 0 2400) (ladle { st := .sync, k := 7 })).rd F.MOD_PULL_STEPS = 1258 := by decide +kernel
/-- The network mark 88, 20 is 22, 5 at K7, which is 2C5h: DET, source 96 (R143, R156). -/
theorem test_mark : let t := did (.networkMark 0 0 88 20 0 0) (ladle { st := .mark, k := 7 })
    (t.slot 0 0).st = .hdr ∧ (t.slot 0 0).nid = 0x2C5 ∧ 96 ∈ t.fired := by decide +kernel
/-- The header 28_0077h as its 18 symbols at K7, one of them a chip late, is good and valid: PAY and source 97 (R143, R145). -/
theorem test_header : let t := did (.headerDecode 0 0 [76, 16, 25, 24, 28, 8, 120, 64, 92, 48, 64, 108, 12, 104, 44, 24, 52, 100]) (ladle { st := .hdr, k := 7, nid := 0x2C5 })
    (t.slot 0 0).st = .pay ∧ 97 ∈ t.fired := by decide +kernel

/-- Tureen Yard: the card of sub-ID 5 holds a report of class 2; the status read returns E500h, HF_RXHEAD A02Ch (R414, R421). -/
def tureen : State :=
  let s := given [(F.HP_STAT_HID, 5), (F.HP_CFG_RXEN, 1)]
  { s with hp := { s.hp with rx := [⟨2, List.replicate 44 0⟩] } }
theorem test_status : (did (.hostStatusRead ⟨true, 5, 0, [], [true], true, true, 0⟩) tureen).hp.sent = [0xE500] := by decide +kernel
theorem test_rxhead : (did (.hostRead ⟨true, 5, 0x020, [], [true], true, true, 0⟩) tureen).hp.sent = [0xE500, 0xA02C] := by decide +kernel

/-! ### Witnesses: for each statement with hypotheses, a state and operands that meet them, at the boundaries of its clauses -/

/-- The state in which a command finds the block. -/
def found (fs : List (Fld × Nat)) : State := settle (given fs)

/-- Burner 0 runs right after reset, in the secure world, and its first word can be fetched (R93). -/
theorem test_ready : (settle State.reset).ready 0 = true := by decide +kernel

/-- StepRunsFront has no hypothesis; a step on the queue [NOP] is NOP. -/
theorem test_step_front : step { State.reset with pending := [.nop 0 0] } = exec (.nop 0 0) State.reset := rfl
theorem test_meets_IdleStep : State.reset.pending = [] ∧ (settle State.reset).on F.RTC_STAT_XKRDY = false ∧
    (given [(F.RTC_STAT_XKRDY, 1)]).pending = [] ∧ (found [(F.RTC_STAT_XKRDY, 1)]).on F.RTC_STAT_XKRDY = true ∧
    (settle State.reset).ownWord = none ∧ (found [(F.RTC_STAT_XKRDY, 1)]).ownWord = none := by decide +kernel
/-- Burner 1 runs a word of SRAM: a NOP, and one of a reserved class. -/
def sram (w : Nat) : State := (given [(F.BRN_STAT_STATE 1, stRun), (F.BRN_CFG_WORLD 1, 1), (F.BRN_CBASE_BASE 1, 0x400000)]).setLe 0x400000 3 w
theorem test_meets_IdleStep_word : (settle (sram 0)).ownWord = some (1, 0) ∧ decodeWord 1 0 = some (.nop 1 0) := by decide +kernel
theorem test_meets_IdleStep_undefined : (settle (sram 0x300000)).ownWord = some (1, 0x300000) ∧ decodeWord 1 0x300000 = none ∧
    (settle (sram 0x300000)).ready 1 = true := by decide +kernel
theorem test_meets_StepKeepsInv : State.reset.Inv := by decide +kernel
theorem test_meets_RegWriteByte : let u := settle State.reset
    ((0 : Fin 18).val < 16 ∧ u.coreUp = true ∧ u.accSecure 0 = true) := by decide +kernel
/-- Accessors 0 and 15 are both ends of the range of burners. -/
theorem test_meets_RegWriteByte_last : let u := found [(F.BRN_CFG_WORLD 15, 1)]
    (15 : Fin 18).val < 16 ∧ u.coreUp = true ∧ u.accSecure 15 = true := by decide +kernel
/-- A register that a write reaches and no more, by a burner and by the host; a staged one with its active copy; burner 15's bytes and
flags, the maps, their lock and the power block's guarded registers, by a secure and by an open accessor. -/
theorem test_meets_RegWriteByte_admits : let u := found [(F.HP_PERM_OPEN, 1), (F.HP_PERM_WORLD, 1)]
    u.admits 0 0x500010 1 true ∧ u.admits 16 0x500010 2 true ∧ ((regAt 0x500010).any fun x => plainReg x.2) = true ∧
      ((regAt 0x504018).any fun x => plainReg x.2 && !undefinedAt 0x504818 1) = true ∧ undefinedAt 0x500810 1 = false ∧
      u.admits 0 0x500810 1 true := by
  unfold State.admits State.makes
  decide +kernel
theorem test_meets_RegWriteByte_guarded : let u := settle State.reset
    ∀ a ∈ [brnByteAddr 15 16, brnByteAddr 15 15, 0x503508, 0x503506, 0x501016], u.admits 0 a 1 true := by
  unfold State.admits State.makes
  decide +kernel
/-- Accesses that are refused: by the maps, by the host's list, at an undefined offset, of a killed port, and by an open accessor's right. -/
theorem test_meets_RegWriteByte_refused : let u := settle State.reset
    let w := found [(F.BRN_SECBLK_BLK, 0)]
    u.makes 1 0x500010 1 ∧ u.closedTo 1 0x500010 = true ∧ u.makes 16 0x500010 2 ∧ u.closedTo 16 0x500010 = false ∧
      (found [(F.HP_PERM_OPEN, 0)]).hostAllow 0x500010 true = false ∧ undefinedAt 0x500010 2 = false ∧ undefinedAt 0x5007EE 2 = true ∧
      (found [(F.DBG_STAT_KILLED, 1)]).on F.DBG_STAT_KILLED = true ∧ w.admits 1 0x501002 1 true ∧ w.accSecure 1 = false := by
  unfold State.admits State.makes
  decide +kernel

/-- LlAccess: a latch of TB_CMP0, one of another register, and a holding copy with every lower unit written. -/
theorem test_meets_LlAccess :
    let u := settle { State.reset with latches := [⟨0x504, 0, cmpBase 0, 0xFFFFFFFFFFFF⟩], holds := [⟨0x504, 0, cmpBase 0, 0x123456789A, 2 ^ 40 - 1⟩] }
    let w := settle { State.reset with latches := [⟨0x504, 0, cmpBase 1, 5⟩] }
    u.coreUp = true ∧ u.accSecure 0 = true ∧ (u.latchOf 0x504 0).map (·.reg) = some (cmpBase 0) ∧
      (w.latchOf 0x504 0).map (·.reg) ≠ some (cmpBase 0) ∧ (w.holdOf 0x504 0).all (fun l => l.reg == cmpBase 0) = true ∧
      u.holdOf 0x504 0 = some ⟨0x504, 0, cmpBase 0, 0x123456789A, 2 ^ 40 - 1⟩ := by decide +kernel
/-- A holding copy that serves the other comparator, where a lower unit and the highest are written; a host access of a whole latch. -/
theorem test_meets_LlAccess_others :
    let u := settle { State.reset with holds := [⟨0x504, 0, cmpBase 1, 0xFF, 0xFF⟩] }
    u.coreUp = true ∧ u.admits 0 (cmpByte 0 0).toNat 1 true ∧ u.admits 0 (cmpByte 0 5).toNat 1 true ∧
      ((u.holdOf 0x504 0).any fun l => l.reg != cmpBase 0) = true ∧ (u.holdOf 0x502 0).all (fun l => l.reg != 0x502400) = true ∧
      (found [(F.HP_PERM_OPEN, 1), (F.HP_PERM_WORLD, 1)]).admits 16 (cmpByte 1 4).toNat 2 true ∧ u.accSecure 0 = true := by
  unfold State.admits State.makes
  decide +kernel
theorem test_meets_CommitArm : (settle State.reset).coreUp = true := by decide +kernel
theorem test_meets_CommitWhole : (settle State.reset).coreUp = true ∧ (settle State.reset).aonUp = true := by decide +kernel
theorem test_meets_ClockCommands : (found [(F.SYS_CLK_SRC, 1), (F.SYS_CLK_PLLLOCK, 1)]).coreUp = true ∧
    (found [(F.SYS_CLK_SRC, 1), (F.SYS_CLK_PLLLOCK, 1)]).aonUp = true := by decide +kernel
theorem test_meets_Xo32Loss : (found [(F.SYS_CLK_XORDY, 1)]).aonUp = true ∧ (found [(F.SYS_CLK_XORDY, 1)]).on F.SYS_CLK_XORDY = true := by
  decide +kernel
theorem test_meets_CycleBoundary : (found [(F.TB_SWCTL_MODE, 1)]).aonUp = true ∧ (found [(F.TB_SWCTL_MODE, 1)]).annDue 1 = true := by
  decide +kernel
/-- A step backward of one fraction, and one to the very instant. -/
theorem test_meets_TimebaseCommands : let u := found [(F.TB_NOW_FRAC, 1)]
    u.coreUp = true ∧ later48 0 u.now = false ∧ later48 1 u.now = false ∧ later48 2 u.now = true := by decide +kernel
/-- A step forward over both comparators and a boundary; relays that wait for a drive instant, and for a contact, that a step passes. -/
theorem test_meets_TimebaseCommands_passed :
    let u := found [(cmpEn 0, 1), (F.TB_CMP_FRAC 0, 0x4000), (cmpEn 1, 1), (F.TB_CMP_MCN 1, 1)]
    let s := given [(F.TB_STAT_STATE, tbGrid), (F.TB_OFS_VAL, 1)]
    let w := { s with lio := { s.lio with rly := [{ req := some (true, .waits true) }, { req := some (true, .driven 0x8000) }] } }
    u.coreUp = true ∧ u.tbRetired = false ∧ later48 0x14000 u.now = true ∧ (later48 (u.cmpVal 0) u.now && !later48 (u.cmpVal 0) 0x14000) = true ∧
      (later48 (u.cmpVal 1) u.now && !later48 (u.cmpVal 1) 0x14000) = true ∧ w.taskq = [] ∧ w.rest = .running ∧
      (w.rly 0).req = some (true, .waits true) ∧ w.angleOk = true ∧ between48 (w.nextDrive 0 0) 0 0x30000 = true ∧
      (w.rly 1).req = some (true, .driven 0x8000) ∧ between48 0x8000 0 0x30000 = true := by decide +kernel
theorem test_meets_ZeroCrossings : (settle sorrel).aonUp = true ∧ (settle sorrel).zcSampled = true ∧
    (settle sorrel).rd F.TB_STAT_STATE = tbSeek := by decide +kernel
/-- A comparator one fraction ahead of network time, and one at the last fraction of the last cycle. -/
theorem test_meets_TbCmpFire : let u := found [(cmpEn 0, 1), (F.TB_CMP_FRAC 0, 1)]
    let w := found [(cmpEn 1, 1), (F.TB_CMP_FRAC 1, 0xFFFF), (F.TB_CMP_MCN 1, 0xFFFFFFFF), (F.TB_NOW_MCN, 0xFFFFFFFF)]
    (u.aonUp = true ∧ u.tbRetired = false ∧ u.on (cmpEn 0) = true ∧ u.cmpVal 0 / 2 ^ 16 = u.now / 2 ^ 16 ∧ u.now < u.cmpVal 0 ∧
      u.cmpVal 0 < 2 ^ 48) ∧
    (w.aonUp = true ∧ w.tbRetired = false ∧ w.on (cmpEn 1) = true ∧ w.cmpVal 1 / 2 ^ 16 = w.now / 2 ^ 16 ∧ w.now < w.cmpVal 1 ∧
      w.cmpVal 1 < 2 ^ 48) := by decide +kernel

/-- WordIssue: an OFF burner; a word past CLIM; one gated; one at an address that holds nothing to execute; one in SRAM. -/
theorem test_meets_WordIssue_off : issuer (.nop 3 0) = some 3 ∧ (settle State.reset).issues 3 = false := by decide +kernel
theorem test_meets_WordIssue_clim : let u := found [(F.BRN_CLIM_LAST 0, 4), (F.BRN_PC_PC 0, 5)]
    u.coreUp = true ∧ u.issues 0 = true ∧ u.pwr.first = false ∧ u.rd (F.BRN_CLIM_LAST 0) < u.pc 0 := by decide +kernel
theorem test_meets_WordIssue_gated : let u := found [(F.BRN_STAT_STATE 1, stRun), (F.BRN_CBASE_BASE 1, 0x400000)]
    u.coreUp = true ∧ u.issues 1 = true ∧ u.pwr.first = false ∧ u.pc 1 ≤ u.rd (F.BRN_CLIM_LAST 1) ∧
      (u.closedTo 1 (u.wordAddr 1) || u.closedTo 1 (u.wordAddr 1 + 2)) = true := by decide +kernel
theorem test_meets_WordIssue_none : let u := found [(F.BRN_CBASE_BASE 0, 0x4A0000)]
    u.coreUp = true ∧ u.issues 0 = true ∧ u.pwr.first = false ∧ u.pc 0 ≤ u.rd (F.BRN_CLIM_LAST 0) ∧
      (u.closedTo 0 (u.wordAddr 0) || u.closedTo 0 (u.wordAddr 0 + 2)) = false ∧
      (u.execAt (u.wordAddr 0) && u.execAt (u.wordAddr 0 + 2)) = false ∧ 0x400000 ≤ u.wordAddr 0 := by decide +kernel
/-- The first word after Rest, with a C3 operation that Rest ended. -/
theorem test_meets_WordIssue_first : let s := given []
    let u := settle { s with pwr := { s.pwr with first := true }, c3 := { s.c3 with ended := true } }
    u.coreUp = true ∧ u.issues 0 = true ∧ u.pwr.first = true ∧ u.c3.ended = true := by decide +kernel

/-! The words' statements ask that the burner is ready; their clauses at boundary operands follow. -/

theorem test_meets_ClauseWord : (settle State.reset).ready 0 = true := test_ready
theorem test_meets_ByteAddSub : (found [(F.BRN_B 0 0, 0xFF), (F.BRN_FLAGS_TVCNZ 0, 4)]).ready 0 = true := by decide +kernel
theorem test_meets_ByteLogicShift : (found [(F.BRN_B 0 0, 0x80)]).ready 0 = true := by decide +kernel
theorem test_meets_PointerWords : (found [(F.BRN_B 0 14, 0xFF), (F.BRN_B 0 15, 0xFF)]).ready 0 = true := by decide +kernel
theorem test_meets_TransferWords : (found [(F.BRN_PC_PC 0, 0xFFFF), (F.BRN_CLIM_LAST 0, 0xFFFF), (F.BRN_CBASE_BASE 0, 0)]).ready 0 = true := by decide +kernel
theorem test_meets_SystemWords : (found [(F.BRN_STAT_EXC 0, 1)]).ready 0 = true ∧ (found [(F.BRN_STAT_EXC 0, 1)]).on (F.BRN_STAT_EXC 0) = true := by
  decide +kernel
theorem test_meets_WaitWords : let u := found [(F.BRN_WPEND_PEND 0, 2 ^ 63)]
    u.ready 0 = true ∧ u.coreUp = true ∧ bitOf (u.rd (F.BRN_WPEND_PEND 0)) 63 = true ∧ bitOf (u.rd (F.BRN_WPEND_PEND 0)) 0 = false := by decide +kernel
/-- LoadStore and AtomWords: window 0 enabled and writable over the first and the last byte of SRAM, of the context RAM and of the frame
buffer; a register that takes a byte and shows it; the first places that take no store and give no load. -/
theorem test_meets_LoadStore : let u := found [(F.BRN_W_EN 0 0, 1), (F.BRN_W_WE 0 0, 1), (F.BRN_W_BASE 0 0, 0x100)]
    u.ready 0 = true ∧ (u.fetched 0).on (F.BRN_W_EN 0 0) = true ∧ windowAddr 0 0 (u.fetched 0) = 0x400000 ∧ (u.fetched 0).ramOk 0 0x400000 = true ∧
      (u.fetched 0).ramOk 0 0x47FFFF = true ∧ (u.fetched 0).ramOk 0 0x480000 = true ∧ (u.fetched 0).ramOk 0 0x487FFF = true ∧
      (u.fetched 0).ramOk 0 0x488000 = false ∧ (u.fetched 0).ramOk 0 0x4AFFFF = true ∧ (u.fetched 0).ramOk 0 0x4B0000 = false ∧
      ((regAt 0x500010).any fun q => plainReg q.2 && shownReg q.2 && !q.1.ll) = true ∧ undefinedAt 0x5007EF 1 = true ∧
      (u.fetched 0).noStore 0x3FFFFF = true ∧ (u.fetched 0).noLoad 0x3FFFFF = false ∧ (u.fetched 0).noLoad 0x488000 = true ∧
      (u.fetched 0).noStore 0x488000 = true ∧ (u.fetched 0).noLoad 0x600000 = false ∧ (u.fetched 0).noStore 0x600000 = true := by decide +kernel
theorem test_meets_AtomWords : let u := found [(F.BRN_W_EN 0 3, 1), (F.BRN_W_WE 0 3, 1), (F.BRN_W_BASE 0 3, 0x11F), (F.BRN_B 0 14, 0xFF), (F.BRN_B 0 15, 0xFF)]
    u.ready 0 = true ∧ (u.fetched 0).preg 0 7 = 0xFFFF ∧ windowAddr 0 0xFFFF (u.fetched 0) = 0x47FFFF ∧ (u.fetched 0).ramOk 0 0x47FFFF = true := by
  decide +kernel
/-- The coprocessors are present, with registers at the ends of their maps (R117, R118, R120). -/
theorem test_meets_CoprocessorAccess : let v := (settle State.reset).fetched 0
    (settle State.reset).ready 0 = true ∧ v.cpresent = 15 ∧ (v.cpByte 0 0 9).isSome = true ∧ (v.cpByte 0 0 10).isSome = false ∧
      (v.cpByte 0 1 0x17).isSome = true ∧ (v.cpByte 0 3 0x201).isSome = true ∧ (v.cpByte 0 3 0x202).isSome = false := by decide +kernel
theorem test_meets_CoprocessorArithmetic : let u := settle (withBx { c0a := 2 ^ 40 - 1 } State.reset)
    u.ready 0 = true ∧ ((u.fetched 0).bx 0).c0a < 2 ^ 40 := by decide +kernel
/-- BigNumbers: a C3 that runs an operation of burner 0, held at CSYNC, and one that is idle. -/
theorem test_meets_BigNumbers : let c : C3State := { State.reset.c3 with busy := true, op := some ⟨0, 1, 2, 3⟩ }
    let u := settle (withBx { csync := some 3 } { State.reset with c3 := c })
    (settle State.reset).ready 0 = true ∧ (settle State.reset).c3.busy = false ∧
      u.coreUp = true ∧ u.c3.busy = true ∧ u.c3.op = some ⟨0, 1, 2, 3⟩ ∧ (u.bx u.c3.issuer).csync = some 3 ∧
      u.on (F.BRN_STAT_PARKREQ 0) = false := by decide +kernel
theorem test_meets_BurnerControl : (settle State.reset).coreUp = true ∧ (settle State.reset).bstate 15 = stOff ∧
    (settle State.reset).bstate 0 = stRun := by decide +kernel
theorem test_meets_BurnerGroups : (found [(F.BRN_STAT_STATE 15, stParked)]).coreUp = true ∧
    (found [(F.BRN_STAT_STATE 15, stParked)]).bstate 15 = stParked := by decide +kernel
theorem test_meets_WhiskCommands : (settle State.reset).coreUp = true ∧ (settle State.reset).accSecure 0 = true ∧
    (settle State.reset).accSecure 3 = false := by decide +kernel
/-- Channels 0 and 63 select source 16, the one of burner 0. -/
def sigs : State := given [(F.WHISK_CFG_EN 0, 1), (F.WHISK_CFG_SRC 0, 16), (F.WHISK_CFG_SEC 0, 1),
  (F.WHISK_CFG_EN 63, 1), (F.WHISK_CFG_SRC 63, 16), (F.WHISK_CFG_SEC 63, 1)]
theorem test_meets_EventFiresChannels : let v := (settle sigs).fetched 0
    let selects := (List.range 64).filter fun c => v.on (F.WHISK_CFG_EN c) && v.rd (F.WHISK_CFG_SRC c) == 16
    (settle sigs).ready 0 = true ∧ v.on (F.BRN_STAT_PARKREQ 0) = false ∧ selects = [0, 63] ∧
      selects.filter (fun c => v.on (F.WHISK_CFG_SEC c) || v.rd (F.BRN_CFG_WORLD 0) == 0) = selects := by decide +kernel
/-- Channel 63, open, selects source 16 of the secure burner 0: it is withheld. The blocks have nothing left to do. -/
theorem test_meets_EventFiresChannels_open : let u := settle (sigs.clr (F.WHISK_CFG_SEC 63))
    let v := u.fetched 0
    u.ready 0 = true ∧ v.on (F.BRN_CFG_WORLD 0) = true ∧ v.on (F.WHISK_CFG_EN 63) = true ∧ v.rd (F.WHISK_CFG_SRC 63) = 16 ∧
      v.on (F.WHISK_CFG_SEC 63) = false ∧ State.reset.Inv ∧ State.reset.quiet = true ∧ State.reset.coreUp = true ∧
      (found [(F.SYS_CLK_PLLEN, 1), (F.SYS_CLK_XORDY, 1)]).on F.SYS_CLK_PLLLOCK = false ∧ (settle State.reset).on F.FWD_CTL_EN = false := by
  decide +kernel

/-! ### Witnesses: radio and column -/

theorem test_meets_ModemSlots : let u := settle (ladle { st := .sync, k := 12 })
    u.coreUp = true ∧ (u.slot 0 0).st = .sync ∧ (settle (ladle {})).coreUp = true ∧ (settle (ladle {})).laneHeld 0 = false := by decide +kernel
/-- Lane 0 finds preambles of two orders where one place is left. -/
theorem test_meets_ModemSlots_compete : let u := settle ((ladle {}).wr F.MOD_CFG_MAXDEM 1)
    u.coreUp = true ∧ u.laneReady 0 = true ∧ u.laneHeld 0 = false ∧ bitOf (u.rd (F.LANE_CFG_ORD 0)) 2 = true ∧
      bitOf (u.rd (F.LANE_CFG_ORD 0)) 3 = true ∧ (u.slot 0 0).st = .idle ∧ (u.slot 0 1).st = .idle ∧ u.demCount + 1 = u.rd F.MOD_CFG_MAXDEM := by
  decide +kernel
/-- Of two preambles found in one symbol period the stronger takes the one place that is left, whichever is named first (R155). -/
theorem test_compete : let t := did (.preambleDetect [0, 0] [7, 8] [4, 9]) ((ladle {}).wr F.MOD_CFG_MAXDEM 1)
    (t.slot 0 0).k = 8 ∧ (t.slot 0 1).st = .idle ∧ t.rd F.DEMOD_FULL = 1 := by decide +kernel
theorem test_meets_ModemReceptions : let u := settle (ladle { st := .pay, k := 7, hdr := 0xFF0077 })
    u.coreUp = true ∧ (u.slot 0 0).st = .pay ∧ (u.slot 0 0).hdr / 2 ^ 16 % 256 = 255 ∧ payloadCount 7 0 255 = 592 ∧
      headerOf 7 (4 :: List.replicate 17 0) = none := by decide +kernel
theorem test_meets_RadioStates : (settle whetstone).coreUp = true ∧ (settle whetstone).fe.report = none ∧ (settle whetstone).fe_st = feRx := by
  decide +kernel
theorem test_meets_RadioAdmission : (settle whetstone).coreUp = true ∧ (settle whetstone).fe.report = none ∧
    (settle whetstone).fe.req.isSome = true ∧ (settle State.reset).fe.req = none ∧ (settle State.reset).fe.report = none := by decide +kernel
/-- A transmission that ramps down. -/
def rampdown : State :=
  let s := given [(F.FE_STAT_STATE, feRampdn), (F.SYS_CLK_XORDY, 1), (F.FE_CTL_EN, 1), (F.FE_STAT_LOCK, 1)]
  { s with fe := { s.fe with tx := some { req := ⟨.data, 7, 1, 0, 0, 12, 0, 0, 5, [1], none⟩, charge := 133152, sbs := [(0, 0), (7, 32)] } } }
theorem test_meets_RadioTransmission : let u := settle rampdown
    u.coreUp = true ∧ u.fe.report = none ∧ u.fe.tx.isSome = true ∧ u.fe_st = feRampdn ∧ u.fe.dcAfterTx = false := by decide +kernel
theorem test_meets_RadioPeriods : (settle whetstone).coreUp = true ∧ (settle whetstone).fe.report = none ∧
    (settle whetstone).aonUp = true := by decide +kernel
/-- Port A in training with the far end's INFO known, and in DATA with a frame begun. -/
def port (x : CpState) (st : Nat) : State :=
  let s := given [(F.CP_STAT_STATE 0, st), (F.CP_CTL_EN 0, 1), (F.SYS_CLK_XORDY, 1)]
  { s with cp := [x] ++ s.cp.drop 1 }
/-- Griddle Lane and Hob Street: a frame of 100 bytes is START, 11 data blocks and TERM5, 13 blocks in all (R207, R209). -/
theorem test_blocks : (frameBlocks (withFcs (List.replicate 96 0))).map (fun k => (k.hdr, if k.hdr = 2 then k.word % 256 else 0)) =
    (2, 0x78) :: List.replicate 11 (1, 0) ++ [(2, 0x85)] := by decide +kernel
theorem test_meets_ColumnTraining : let u := settle ((port { far := some 0x44B, rxSync := true } cpTrain).wr (F.CP_STAT_STAGE 0) 4)
    let b : Machine.Block := ⟨3, 2 ^ 64 - 1⟩
    u.coreUp = true ∧ u.cpSt 0 = cpTrain ∧ u.rd (F.CP_STAT_STAGE 0) = 4 ∧ (u.cpx 0).far = some 0x44B ∧ (u.cpx 0).rxSync = true ∧
      b.hdr < 4 ∧ b.word < 2 ^ 64 ∧ 2 ^ 23 - 1 < 2 ^ 23 ∧ (settle (port { rxSync := true } cpListen)).cpSt 0 = cpListen := by decide +kernel
theorem test_meets_ColumnLink : let u := settle (port { rx := some (List.replicate 7 0), rxSync := true } cpData)
    let w := settle (port { rxSync := true } cpData)
    u.coreUp = true ∧ u.cpSt 0 = cpData ∧ (u.cpx 0).rx = some (List.replicate 7 0) ∧ u.cpUp 0 = true ∧ u.on (F.CP_STAT_RSON 0) = false ∧
      w.cpUp 0 = true ∧ (w.cpx 0).rx = none ∧ (List.replicate 6 (0 : Byte)).length = 6 := by decide +kernel

/-! ### Witnesses: MAC, forwarding, cipher -/

/-- A frame waits in the receive queue. -/
def heard (payload : List Byte) : State :=
  let s := given [(F.MAC_CTL_EN, 1)]
  { s with mod := { s.mod with rxq := [⟨0, 0, 7, 1, 0, 0, 0x2C5, 0, 0, 0, 0, payload⟩] } }
theorem test_meets_MacReception : (settle State.reset).coreUp = true ∧ (settle State.reset).mod.rxq = [] ∧
    (settle (heard (List.replicate 20 0))).coreUp = true ∧ (settle (heard (List.replicate 20 0))).mod.rxq.length = 1 := by decide +kernel
/-- A radio frame under way. -/
def sending (phase : TxPhase) : State :=
  let s := given [(F.MAC_CTL_EN, 1)]
  let x : MacTx := {
    q := ⟨1, 0, 5, some 511, 44, false, false, false, [], none⟩, frame := [1, 2], slv := 0, fcnt := 9, ar := true, sched := false, k := 7, bw := 1,
    rate := 0, npre := 8, ofs := 0, idx := 3, lane := some 7, phase := phase
    }
  { s with mac := { s.mac with tx := some x } }
theorem test_meets_MacAttempts : (settle State.reset).coreUp = true ∧ (settle State.reset).mac.tx = none ∧
    (settle (sending .await)).coreUp = true ∧ (settle (sending .await)).mac.tx.isSome = true := by decide +kernel
theorem test_meets_MacSchedules : (settle State.reset).aonUp = true ∧ (settle State.reset).coreUp = true := by decide +kernel
/-- A frame of class 7 queued for LOCAL. -/
def queued : State :=
  let s := given [(F.FWD_CTL_EN, 1)]
  let f : FwdFrame := { num := 3, cells := [0], len := 44 }
  let e : QEnt := { num := 3, port := 4, cls := 7, ctx := some 5, len := 44 }
  { s with fwd := { s.fwd with frames := [f], queue := [e] } }
theorem test_meets_ForwardTraffic : let u := settle queued
    u.coreUp = true ∧ u.on (cmtPend 0x50D) = false ∧ (u.frame 3).isSome = true ∧ u.fwd.queue.map (·.ctx) = [some 5] := by decide +kernel
theorem test_meets_ForwardAccess : let u := settle { State.reset with fwd := { State.reset.fwd with frames := [{ num := 3, cells := [0], len := 44 }] } }
    u.coreUp = true ∧ unitOk 0 0x50D020 1 = true ∧ u.accSecure 0 = true ∧ unitOk 0 0x50D020 2 = false ∧
      (u.fwd.frames.find? fun f => f.num == 3).any (fun f => f.uses == 0 && f.port == 4) = true := by decide +kernel
theorem test_meets_CipherCommands : (settle State.reset).ready 0 = true ∧ ((settle State.reset).fetched 0).ciph.op = none := by decide +kernel
/-- A C2 command that runs, on an empty message at the end of SRAM. -/
def ciphers : State := { State.reset with ciph := { State.reset.ciph with op := some ⟨15, 13, 0x3FF, true⟩ } }
theorem test_meets_LarderCommands : let u := settle ciphers
    u.coreUp = true ∧ (settle State.reset).ciph.op = none ∧ u.ciph.op = some ⟨15, 13, 0x3FF, true⟩ ∧ (u.c2Set 15).par.length = 48 ∧
      (u.c2Set 15).mlen ≤ 16 ∧ u.aonUp = true := by decide +kernel

/-! ### Witnesses: flash, power, clock, timers, host, update -/

/-- An erase in its stamp, a program under way. -/
def erasing (st : Nat) (op : FlOp) : State :=
  let s := given [(F.FL_STAT_STATE, st), (F.FL_STAT_BUSY, 1)]
  { s with fl := { s.fl with op := some op } }
theorem test_meets_FlashController : let u := settle (erasing 5 (.word 0x540000 7))
    let w := settle (erasing 2 (.erase 0))
    u.coreUp = true ∧ u.fl.op = some (.word 0x540000 7) ∧ u.rd F.FL_STAT_STATE = 5 ∧ w.coreUp = true ∧ w.fl.op = some (.erase 0) ∧
      w.rd F.FL_STAT_STATE = 2 ∧ (settle State.reset).fl.op = none := by decide +kernel
theorem test_meets_Resets : (settle State.reset).coreUp = true ∧ (settle State.reset).aonUp = true := by decide +kernel
/-- RestCycle: no burner is held at CSYNC; an entry with a burner asleep closes; and one that a wake cause aborts. -/
theorem test_meets_RestCycle :
    let s := { given [(F.BRN_STAT_STATE 0, stSleep), (F.PWR_RESTCTL_EN, 1)] with rest := .closing }
    (settle State.reset).coreUp = true ∧ (settle State.reset).aonUp = true ∧ s.rest = .closing ∧
      { s with rest := .running }.quiet = true ∧ ∀ b, b < 16 → ((settle s).bx b).csync = none := by decide +kernel
/-- The last second before the calendar's wrap, and the clock without a stable crystal. -/
def midnight : State := given [(F.RTC_STAT_XKRDY, 1), (F.RTC_CAL_YEAR, 999), (F.RTC_CAL_MONTH, 12), (F.RTC_CAL_DAY, 31), (F.RTC_CAL_HOUR, 23),
  (F.RTC_CAL_MIN, 59), (F.RTC_CAL_SEC, 59)]
theorem test_meets_RealTimeClock : let u := settle midnight
    u.rtc.vbk = true ∧ u.on F.RTC_STAT_XKRDY = true ∧ u.rtc.pend = [] ∧ u.cal.ok = true ∧ (settle State.reset).rtc.vbk = true := by decide +kernel
/-- The wrap from 2999-12-31 23:59:59 to 2000-01-01 00:00:00, a Saturday (R370). -/
theorem test_calendar_wrap : let t := did .secondBoundary midnight
    t.cal = ⟨0, 1, 1, 0, 0, 0⟩ ∧ t.rd F.RTC_CAL_WDAY = 6 ∧ t.on F.RTC_STAT_WRAP = true := by decide +kernel
/-- A 16-bit write of RTC_PWRON that a burner makes byte by byte: the low byte alone waits on (R372). -/
theorem test_rtc_halves : let t := did .rtcWriteApply (did (.regWrite 0 0x505070 .w8 2) (given [(F.RTC_STAT_XKRDY, 1)]))
    let w := did .rtcWriteApply (did (.regWrite 0 0x505071 .w8 0) t)
    t.rtc.pend.length = 1 ∧ t.rd F.RTC_PWRON_SRC = 0 ∧ w.rtc.pend = [] ∧ w.rd F.RTC_PWRON_SRC = 2 := by decide +kernel
theorem test_meets_TimerCommands : (settle State.reset).coreUp = true ∧ (settle State.reset).aonUp = true ∧ (settle State.reset).accSecure 0 = true := by decide +kernel
theorem test_meets_LanternIo : let u := found [(F.LIO_CTL_EN, 1)]
    u.coreUp = true ∧ u.on F.LIO_COMMIT_PEND = false ∧ u.aonUp = true ∧ (2 : BitVec 2).toNat = 2 ^ (1 : Fin 2).val ∧
      (1 : BitVec 2).toNat = 2 ^ (0 : Fin 2).val := by decide +kernel
/-- Period 0 starts at angle 0; where a step went back over a start that has fired, it fires no second time (R55, R398). -/
theorem test_dim_once : let s := given [(F.LIO_CTL_EN, 1), (F.LIO_DIMOUT_EN, 1), (F.LIO_DIMCFG_MODE, 1)]
    (events .dimPeriod s).contains 82 = true ∧
      (events .dimPeriod { s with lio := { s.lio with dimDone := some 0x10000 } }).contains 82 = false := by decide +kernel
/-- HostFrames: a burst that ends at the window's last word but one; an unlisted word before a listed one; the apertures' ends; a
pointer at the last word that its prefetches leave in SRAM; with the pointer fixed, one in SRAM that the maps close to a host in the
open world, and one that no unit answers. -/
theorem test_meets_HostFrames : let u := found [(F.HP_IPTR_PTR, 0x47FFFA), (F.HP_PERM_OPEN, 1), (F.HP_PERM_WORLD, 1)]
    (u.winValue 0).isSome = true ∧ winAssigned 0x020 = true ∧ winAssigned 0x03F = false ∧ winAssigned 0x040 = true ∧
      (u.winValue 0x040).isSome = true ∧ 0x47FFFA + 6 ≤ 0x480000 ∧ u.accSecure 16 = true ∧ u.on F.HP_PERM_OPEN = true ∧
      u.rd F.BIST_MEMRET_BANK = 0 ∧ u.ciph.op = none ∧ u.bist.seg = false ∧ u.hp.taken = false ∧ u.ioOff = false := by decide +kernel
theorem test_meets_HostFrames_refused : let v := found [(F.HP_PERM_WORLD, 0), (F.HP_IPTR_INC, 0), (F.HP_IPTR_PTR, 0x400000)]
    let w := found [(F.HP_PERM_OPEN, 1), (F.HP_IPTR_INC, 0), (F.HP_IPTR_PTR, 0x5F0000)]
    v.on F.HP_IPTR_INC = false ∧ v.verdict 16 (v.rd F.HP_IPTR_PTR) 2 false 0 = .security ∧
      w.on F.HP_IPTR_INC = false ∧ w.verdict 16 (w.rd F.HP_IPTR_PTR) 2 false 0 = .bus := by decide +kernel
theorem test_meets_CompatFrames : let u := settle { tureen with hp := { tureen.hp with cprev := some 0 } }
    u.winValue 0 ≠ none ∧ u.winValue 1 ≠ none ∧ u.hp.taken = false ∧ u.hp.rx.head?.isSome = true ∧ u.hp.cprev.isSome = true := by decide +kernel
theorem test_meets_HostMaster : (found [(F.HP_STAT_MASTER, 1)]).coreUp = true ∧ (found [(F.HP_STAT_MASTER, 1)]).on F.HP_STAT_MASTER = true := by
  decide +kernel
theorem test_meets_UpdateCommands : (found [(F.UPD_STAT_INSTALLING, 1)]).coreUp = true ∧
    (found [(F.UPD_STAT_INSTALLING, 1)]).on F.UPD_STAT_INSTALLING = true := by decide +kernel

/-- A part of a recovery blob: index 0 of 1, and the release of a reset with room in the journal. -/
theorem test_meets_StartUp : let u := found [(F.PWR_STAT_HOLD, 1)]
    u.coreUp = true ∧ u.on F.PWR_STAT_HOLD = true ∧ bitOf (u.rd F.BIST_RET_PART) 19 = false ∧ u.boot.wait = none ∧ u.bootSeqLeft = true := by
  decide +kernel
theorem test_meets_SelfTest : let u := settle { State.reset with bistPart := some 16 }
    u.coreUp = true ∧ u.bistPart = some 16 ∧ (settle State.reset).bistPart = none ∧ u.bist.next.getD 16 0 < 8 := by decide +kernel
/-- What a slice holds: an adverb, which completes at its end with PC moved on (R42, R114), and a write of a port's EN (R226). -/
def sliced (p : Nat) : State := { State.reset with bistPart := some p }
theorem test_meets_SelfTest_adverb : let u := settle (did (.c0Mul 0 0) (sliced 18))
    u.coreUp = true ∧ u.bistPart = some 18 ∧ u.bist.adverbs = [(0, .cx 0 1 0)] ∧ u.inAdverb 0 = true ∧ u.pc 0 = 0 := by decide +kernel
theorem test_adverb_ends : let t := did (.bistSliceEnd true 0) (did (.c0Mul 0 0) (sliced 18))
    t.pc 0 = 1 ∧ t.bist.adverbs = [] := by decide +kernel
theorem test_meets_SelfTest_port : let u := settle (did (.cpEnable 0) (sliced 8))
    u.bistPart = some 8 ∧ (u.cpx 0).enHeld = some true ∧ u.on (F.CP_CTL_EN 0) = false := by decide +kernel
theorem test_meets_DebugPort : let u := found [(F.DBG_STAT_LEVEL, 2)]
    let w := settle State.reset
    u.rd F.DBG_STAT_LEVEL = 2 ∧ u.coreUp = true ∧ w.rd F.DBG_STAT_LEVEL = 0 ∧ (0x4FFFFF : Nat) / 0x1000 ≠ 0x513 ∧
      (found [(F.DBG_STAT_LEVEL, 1)]).rd F.DBG_STAT_LEVEL = 1 := by decide +kernel

end Sys2Proof.Tests
end

section
/-! PROOF. O23: a store into BIST_HOLD by a burner that parks at its word boundary. -/

namespace Sys2Proof.Machine

/-- Burner 0 with its parking requested (R81), about to store through window 0 into BIST_HOLD (P0 holds 2302h over 510000h), while a
slice of the Whisk tests group 0, whose channel 0 selects burner 0's event (R136). -/
def parkingAtHold : State :=
  { [(F.BRN_STAT_PARKREQ 0, 1), (F.BRN_W_BASE 0 0, 0x144), (F.BRN_B 0 0, 0x02), (F.BRN_B 0 1, 0x23), (F.WHISK_CFG_EN 0, 1),
      (F.WHISK_CFG_SRC 0, 16)].foldl (fun s p => s.wr p.1 p.2) State.reset with bistPart := some 16, whiskTest := some 0 }

/-- STB of B0 at P0, without an update of the pointer. -/
def storeAtP0 : MemF := ⟨0, 0, 0, 0⟩

/-- The register map's row of BIST_HOLD: one counter, which a write of any value clears (R44). -/
def holdRow : RegDesc := ⟨0x512302, 16, 1, 0, false, [⟨0, 16, .cnt, false, 0⟩]⟩

theorem parkingAtHold_ready : (settle parkingAtHold).ready 0 = true := by decide +kernel

/-- The store clears BIST_HOLD; the burner then parks at its word boundary, and the held firing of its event counts there (R136). -/
theorem parkingAtHold_counts {t : State} (h : exec (.stb 0 storeAtP0) parkingAtHold = .next t) : t.rd F.BIST_HOLD = 1 := by
  have hrun : (match exec (.stb 0 storeAtP0) parkingAtHold with | .next t => t.rd F.BIST_HOLD | _ => 0) = 1 := by decide +kernel
  rwa [h] at hrun

/-- Refutes O23: a store that clears BIST_HOLD, at whose end the burner parks while its event's channel is under test, leaves BIST_HOLD at 1,
not at 0: the held firing of that event counts in the register that the store has just cleared (R42, R81, R136). -/
theorem not_loadStore : ¬ Obligations.LoadStore := by
  unfold Obligations.LoadStore
  intro h
  obtain ⟨t, hrun, -, -, hstb⟩ := (h 0 storeAtP0 parkingAtHold parkingAtHold_ready).2
  rw [IfLegal, if_pos (by decide), if_pos (by decide +kernel)] at hstb
  obtain ⟨-, -, -, -, hreg, -⟩ := hstb
  have hcleared := ((hreg (holdRow, 0x512302) (by decide +kernel)).1 _ (List.mem_singleton_self _)).2.2 rfl
  rw [if_pos (by decide +kernel)] at hcleared
  exact absurd ((parkingAtHold_counts hrun).symm.trans hcleared) (by decide)

end Sys2Proof.Machine
end

section
/-! PROOF. O58: the release of a reset that finds the device in Rest. -/

namespace Sys2Proof.Machine

/-! ### What a release fires, step by step -/

@[simp] theorem columnPart_fired (p : Nat) (s : State) : (columnPart p s).fired = s.fired := by
  unfold columnPart linkSend
  dsimp only
  split
  · rfl
  · split <;> rfl

@[simp] theorem columnPart_rest (p : Nat) (s : State) : (columnPart p s).rest = s.rest := by
  unfold columnPart linkSend
  dsimp only
  split
  · rfl
  · split <;> rfl

/-- HOLD's event comes in Rest too (R134, R357). -/
theorem enterHold_fired (s : State) : (enterHold s).fired = s.fired ++ [12] := by
  simp only [enterHold, fire_fired, State.firedOf_rest (show srcInRest 12 = true from rfl), List.foldl_cons, List.foldl_nil]
  split <;> split <;> simp

theorem enterHold_rest (s : State) : (enterHold s).rest = s.rest := by
  have hfire : ∀ t : State, (fire 12 t).rest = t.rest := fun t => fire_part 12 t .rest
  simp only [enterHold, hfire, List.foldl_cons, List.foldl_nil]
  split <;> split <;> simp

@[simp] theorem updReopen_fired (s : State) : (updReopen s).fired = s.fired := by
  unfold updReopen
  dsimp only
  split <;> rfl

@[simp] theorem updReopen_rest (s : State) : (updReopen s).rest = s.rest := by
  unfold updReopen
  dsimp only
  split <;> rfl

@[simp] theorem updReopen_upd (s : State) : (updReopen s).upd = s.upd := by
  unfold updReopen
  dsimp only
  split <;> rfl

/-- Without an abandoned install the update block's release fires what its reads of the fine area fire, and no more (R450, R453). -/
theorem updRelease_fired {s0 s : State} (hs : (List.range 24).foldl (fun s i => flScan (bjAddr i 0) 0x800 s) s0 = s)
    (hcut : s.upd.cut = false) : (updRelease s0).fired = s.fired ∧ (updRelease s0).rest = s.rest := by
  simp only [updRelease, hs]
  split <;> simp [updView, hcut]

/-- With no record to restore and no erasure pending the Larder only becomes ready (R315). -/
theorem larRestore_of_no_records {s : State} (herasing : s.on F.LAR_STAT_ERASING = false) (hnone : s.records = []) :
    larRestore s = larSync (s.set1 F.LAR_STAT_READY) := by
  have hslots : ∀ l : List Nat, l.foldl (fun s k => restoreSlot k s) s = s := by
    intro l
    induction l with
    | nil => rfl
    | cons k l ih => simpa [restoreSlot, State.newest, hnone] using ih
  simp [larRestore, herasing, hnone, hslots]

/-- In Rest a pipeline that fails its test shows in no event but HOLD's (R134, R462). -/
theorem bootStages_fired_of_rest {r : Release} {s : State} (hpipe : r.pipeOk = false) (hrest : s.rest = .asleep) :
    (bootStages r s).fired = s.fired ++ [12] := by
  have hbist : fire 191 (s.setBit F.BIST_RET_PART 19) = s.setBit F.BIST_RET_PART 19 := fire_none (by simp [State.inRest, hrest, srcInRest])
  have hpark : ∀ t : State, t.rest = .asleep → (park 0 t).fired = t.fired := fun t ht => by
    rw [park, fire_none]
    · rfl
    · simp [State.inRest, brnLeave, State.setBstate, ht, srcInRest]
  simp only [bootStages, hpipe, hbist, Bool.not_false, if_true]
  rw [hpark _ (by rw [enterHold_rest]; exact hrest), enterHold_fired]
  rfl

theorem resetRelease_fired {r : Release} {s : State} (h : s.boot.started = false) : (resetRelease r s).fired =
    (bootStages r (releaseHw r { s with boot := { s.boot with held := false, aonDown := false, started := true } })).fired := by
  rw [resetRelease, if_pos (by simp [h])]

/-! ### A release in Rest -/

/-- The state after commands in turn. -/
def afterAll (l : List Instr) (s : State) : State := l.foldl (fun s i => match exec i s with | .next t => t | _ => s) s

/-- Commands from State.reset on: the die's upper limit is out of reach, Rest is permitted, burner 0 sleeps, and the device goes to Rest
(R316, R359 to R362). Its start-up has not run yet, and nothing in the model releases a reset only where Rest has ended. -/
@[irreducible] def asleepUnstarted : State :=
  afterAll [.regWrite 0 0x50E00B .w8 0x7F, .regWrite 0 0x501008 .w8 1, .sleep 0 5, .restAttempt, .restIsolation, .restPowerdown] State.reset

/-- A release at which the pipeline test fails, at 25 °C (R462). -/
def pipeFails : Release where
  lamp := false
  hid := 0
  hmode := false
  onBat := false
  mainOk := true
  nviLow := false
  vbatLow := false
  vddioLow := false
  temp := 50
  pipeOk := false
  memFail := 0
  rtcCal := true
  pwrCal := true
  gainCal := true

/-- That state as its release finds it, the reset no longer asserted. -/
def released : State :=
  let u := settle asleepUnstarted
  { u with boot := { u.boot with held := false, aonDown := false, started := true } }

/-- What the hardware has done of that release before the Larder's restoration. -/
def scanned : State :=
  let s1 := hpStraps pipeFails.hid.toNat pipeFails.hmode ((fuseLoad released).wrB F.PWR_STRAP_LAMPSAFE pipeFails.lamp)
  journalScan (tempSample pipeFails.temp.toNat ((bootSupplies pipeFails s1).wr F.TB_INC_INC s1.tbNominal))

theorem scanned_empty : scanned.on F.LAR_STAT_ERASING = false ∧ scanned.records = [] := by decide +kernel

/-- The fine area is blank, so that its scan has nothing to report. -/
theorem scanned_read : let s := (List.range 24).foldl (fun s i => flScan (bjAddr i 0) 0x800 s) (larSync (larSync (scanned.set1 F.LAR_STAT_READY)))
    s.upd.cut = false ∧ s.fired = [] ∧ s.rest = .asleep := by decide +kernel

theorem released_hw : (releaseHw pipeFails released).fired = [] ∧ (releaseHw pipeFails released).rest = .asleep := by
  have haon : released.boot.aon = true := by decide +kernel
  obtain ⟨herasing, hnone⟩ := scanned_empty
  obtain ⟨hcut, hfired, hrest⟩ := scanned_read
  obtain ⟨hf, hr⟩ := updRelease_fired rfl hcut
  rw [releaseHw, haon, if_pos rfl, if_pos rfl]
  change (updRelease (larSync (larRestore scanned))).fired = [] ∧ (updRelease (larSync (larRestore scanned))).rest = .asleep
  rw [larRestore_of_no_records herasing hnone]
  exact ⟨hf.trans hfired, hr.trans hrest⟩

theorem release_fired : (resetRelease pipeFails (settle asleepUnstarted)).fired = [12] := by
  obtain ⟨hf, hr⟩ := released_hw
  rw [resetRelease_fired (by decide +kernel)]
  exact (bootStages_fired_of_rest rfl hr).trans (by rw [hf]; rfl)

/-- Refutes O58: in Rest no block of the core domain has an event (R134), so that a release in Rest at which the pipeline test fails fires
HOLD's event 12 alone, neither 191 of the retirement nor 16 of burner 0's parking. -/
theorem not_startUp : ¬ Obligations.StartUp := by
  unfold Obligations.StartUp
  intro h
  obtain ⟨t, hrun, -, -, hclauses⟩ := (h pipeFails [] asleepUnstarted).1
  have ht : after asleepUnstarted (resetRelease pipeFails) = t := Host.Outcome.next.inj hrun
  rw [if_neg (by decide +kernel)] at hclauses
  obtain ⟨-, -, -, -, -, -, -, -, -, -, -, -, -, -, -, -, -, -, -, -, -, -, -, -, hpipe, -⟩ := hclauses
  have h191 : Fires 191 (settle asleepUnstarted) t := (hpipe rfl).2.1
  rw [Fires, ← ht, after_fired, release_fired] at h191
  exact absurd (List.mem_of_mem_drop h191) (by decide)

end Sys2Proof.Machine
end

section
/-! PROOF. What a write of a register does to its fields, bit by bit, and what it leaves alone (R14, R15, R44). -/

namespace Sys2Proof.Machine

/-! ### Bits -/

theorem add_eq_or_of_and_eq_zero {a b : Nat} (h : a &&& b = 0) : a + b = a ||| b := by
  have ha : a < 2 ^ (a + b) := Nat.lt_of_le_of_lt (Nat.le_add_right a b) Nat.lt_two_pow_self
  have hb : b < 2 ^ (a + b) := Nat.lt_of_le_of_lt (Nat.le_add_left b a) Nat.lt_two_pow_self
  have hdisj : BitVec.ofNat (a + b) a &&& BitVec.ofNat (a + b) b = 0#(a + b) := by
    apply BitVec.eq_of_toNat_eq
    simp [Nat.mod_eq_of_lt ha, Nat.mod_eq_of_lt hb, h]
  have hsum := congrArg BitVec.toNat (BitVec.add_eq_or_of_and_eq_zero _ _ hdisj)
  simpa [Nat.mod_eq_of_lt ha, Nat.mod_eq_of_lt hb, Nat.mod_eq_of_lt (Nat.lt_two_pow_self (n := a + b))] using hsum

/-- The bits of a value outside a mask. -/
theorem clearMask_eq_xor (x m : Nat) : clearMask x m = x ^^^ (x &&& m) := by
  have hdisj : (x &&& m) &&& (x ^^^ (x &&& m)) = 0 := by
    apply Nat.eq_of_testBit_eq
    intro i
    simp only [Nat.testBit_and, Nat.testBit_xor, Nat.zero_testBit]
    cases x.testBit i <;> cases m.testBit i <;> rfl
  have hor : (x &&& m) ||| (x ^^^ (x &&& m)) = x := by
    apply Nat.eq_of_testBit_eq
    intro i
    simp only [Nat.testBit_or, Nat.testBit_and, Nat.testBit_xor]
    cases x.testBit i <;> cases m.testBit i <;> rfl
  have hsum := add_eq_or_of_and_eq_zero hdisj
  rw [hor] at hsum
  unfold clearMask
  omega

@[simp] theorem testBit_clearMask (x m i : Nat) : (clearMask x m).testBit i = (x.testBit i && !m.testBit i) := by
  rw [clearMask_eq_xor, Nat.testBit_xor, Nat.testBit_and]
  cases x.testBit i <;> cases m.testBit i <;> rfl

/-- A value with the bits under a mask replaced. -/
@[simp] theorem testBit_clearMask_add_and (x m v i : Nat) :
    (clearMask x m + (v &&& m)).testBit i = if m.testBit i then v.testBit i else x.testBit i := by
  have hdisj : clearMask x m &&& (v &&& m) = 0 := by
    apply Nat.eq_of_testBit_eq
    intro j
    simp only [Nat.testBit_and, testBit_clearMask, Nat.zero_testBit]
    cases m.testBit j <;> simp
  rw [add_eq_or_of_and_eq_zero hdisj, Nat.testBit_or, Nat.testBit_and, testBit_clearMask]
  cases m.testBit i <;> simp

theorem testBit_bitsOf (v lo w i : Nat) : (bitsOf v lo w).testBit i = (decide (i < w) && v.testBit (lo + i)) := by
  rw [bitsOf, Nat.testBit_mod_two_pow, Nat.testBit_div_two_pow]
  congr 2
  omega

/-- No bit of a part of a value is set. -/
theorem bitsOf_eq_zero_iff (v lo w : Nat) : bitsOf v lo w = 0 ↔ ∀ i, i < w → v.testBit (lo + i) = false := by
  constructor
  · intro h i hi
    have hbit := testBit_bitsOf v lo w i
    simpa [h, hi] using hbit
  · intro h
    apply Nat.eq_of_testBit_eq
    intro i
    rw [testBit_bitsOf, Nat.zero_testBit]
    by_cases hi : i < w <;> simp [hi, h]

/-- The bits of a field's own place are all in the mask of the register. -/
theorem testBit_fieldMask {fields : List FldDesc} {f : FldDesc} (hf : f ∈ fields) {i : Nat} (hi : i < f.w) :
    (fieldMask fields).testBit (f.lo + i) = true := by
  have hmono : ∀ (l : List FldDesc) (m j : Nat), m.testBit j = true →
      (l.foldl (fun m f => m ||| (2 ^ f.w - 1) <<< f.lo) m).testBit j = true := by
    intro l
    induction l with
    | nil => exact fun m j h => h
    | cons g l ih => exact fun m j h => ih _ _ (by simp [h])
  have hall : ∀ (l : List FldDesc) (m : Nat), f ∈ l →
      (l.foldl (fun m f => m ||| (2 ^ f.w - 1) <<< f.lo) m).testBit (f.lo + i) = true := by
    intro l
    induction l with
    | nil => exact fun m h => absurd h (by simp)
    | cons g l ih =>
      intro m h
      rcases List.mem_cons.1 h with rfl | h
      · have hown : (m ||| (2 ^ f.w - 1) <<< f.lo).testBit (f.lo + i) = true := by
          rw [Nat.testBit_or, Nat.testBit_shiftLeft, Nat.testBit_two_pow_sub_one]
          simp [hi]
        exact hmono l _ _ hown
      · exact ih _ h
  exact hall fields 0 hf

/-! ### Frames -/

/-- A frame with nothing in it: every field reads as before. -/
theorem Frame.rd_eq {x t : State} (h : Frame [] [] [] x t) (f : Fld) : t.rd f = x.rd f := h.regs f (by simp) (.inr rfl)

/-- Canonical memory and the queue apart, a command leaves what its effect is. -/
theorem frame_after (s : State) (f : State → State) : Frame [] [] [] (f (settle s)) (after s f) where
  fired := by simp
  regs g _ _ := after_rd s f g
  mem a := after_byte s f a
  parts p _ := by
    have h := tidy_part (f (settle s)) p
    cases p <;> exact h
  quiet _ := ⟨tidy_taskq _, tidy_whiskHeld _, tidy_whiskAge _, congrArg PwrState.wake (tidy_pwr _)⟩

/-- Frames compose with one in which nothing happens. -/
theorem Frame.trans_nil {k : List Fld} {p : List Part} {e : List Nat} {u x t : State} (h : Frame k p e u x) (ht : Frame [] [] [] x t) :
    Frame k p e u t := by
  simpa using h.trans ht

/-- A frame names fields by their places alone. -/
theorem Frame.of_bits {k k' : List Fld} {p : List Part} {e : List Nat} {u t : State} (h : Frame k p e u t)
    (hk : ∀ x ∈ k, ∃ y ∈ k', x.bit = y.bit) : Frame k' p e u t :=
  ⟨h.fired, fun f hf he => h.regs f (fun x hx => by obtain ⟨y, hy, hb⟩ := hk x hx; rw [hb]; exact hf y hy) he, h.mem, h.parts, h.quiet⟩

/-! ### A write meets the fields of a register -/

/-- FldTakes in the terms of `mergeFld`. -/
theorem fldTakes_iff {base val mask : Nat} {f : FldDesc} {u t : State} : FldTakes base val mask f u t ↔
    (f.acc = .rw → ∀ i, i < f.w →
      (t.rd (f.fld base)).testBit i = if mask.testBit (f.lo + i) then val.testBit (f.lo + i) else (u.rd (f.fld base)).testBit i) ∧
    (f.acc = .w1c → ∀ i, i < f.w →
      (t.rd (f.fld base)).testBit i = ((u.rd (f.fld base)).testBit i && !(mask.testBit (f.lo + i) && val.testBit (f.lo + i)))) ∧
    (f.acc = .cnt → t.rd (f.fld base) = if (List.range f.w).any fun i => mask.testBit (f.lo + i) then 0 else u.rd (f.fld base)) :=
  Iff.rfl

theorem FldTakes.congr {base val mask : Nat} {f : FldDesc} {u u' x t : State} (h : FldTakes base val mask f u x)
    (hu : u.rd (f.fld base) = u'.rd (f.fld base)) (ht : t.rd (f.fld base) = x.rd (f.fld base)) : FldTakes base val mask f u' t := by
  rw [fldTakes_iff] at h ⊢
  rwa [ht, ← hu]

/-- A write meets a field by its access code. -/
theorem mergeFld_takes {fields : List FldDesc} {f : FldDesc} (hf : f ∈ fields) (base val written : Nat) (s : State) :
    FldTakes base val written f s (mergeFld base val (written &&& fieldMask fields) f s) := by
  have hmask : ∀ i, i < f.w → (bitsOf (written &&& fieldMask fields) f.lo f.w).testBit i = written.testBit (f.lo + i) := by
    intro i hi
    simp [testBit_bitsOf, hi, testBit_fieldMask hf hi]
  have hval : ∀ i, i < f.w → (bitsOf val f.lo f.w).testBit i = val.testBit (f.lo + i) := fun i hi => by simp [testBit_bitsOf, hi]
  rw [fldTakes_iff]
  refine ⟨fun hacc i hi => ?_, fun hacc i hi => ?_, fun hacc => ?_⟩ <;> simp only [mergeFld, hacc]
  · split
    · next hm => simp [← hmask i hi, hm]
    · rw [State.rd_wr_self, Nat.testBit_mod_two_pow, testBit_clearMask_add_and, hmask i hi, hval i hi]
      simp [FldDesc.fld, Fld.at, hi]
  · have hbit : (bitsOf val f.lo f.w &&& bitsOf (written &&& fieldMask fields) f.lo f.w).testBit i =
        (written.testBit (f.lo + i) && val.testBit (f.lo + i)) := by
      rw [Nat.testBit_and, hmask i hi, hval i hi, Bool.and_comm]
    split
    · next hz => simp [← hbit, hz]
    · rw [State.rd_wr_self, Nat.testBit_mod_two_pow, testBit_clearMask, hbit]
      simp [FldDesc.fld, Fld.at, hi]
  · have hany : bitsOf (written &&& fieldMask fields) f.lo f.w = 0 ↔ (List.range f.w).any (fun i => written.testBit (f.lo + i)) = false := by
      rw [bitsOf_eq_zero_iff]
      simp only [List.any_eq_false, List.mem_range, Bool.not_eq_true, Nat.testBit_and]
      exact forall₂_congr fun i hi => by rw [testBit_fieldMask hf hi, Bool.and_true]
    by_cases hm : bitsOf (written &&& fieldMask fields) f.lo f.w = 0
    · simp [hm, hany.1 hm]
    · simp [hm, show (List.range f.w).any (fun i => written.testBit (f.lo + i)) = true by simpa using mt hany.2 hm]

/-- A write reaches no field but the one it meets. -/
theorem mergeFld_rd_ne {base val mask : Nat} {f : FldDesc} {g : Fld} (h : g.bit ≠ (f.fld base).bit) (s : State) :
    (mergeFld base val mask f s).rd g = s.rd g := by
  unfold mergeFld
  dsimp only
  split
  · split
    · rfl
    · exact State.rd_wr_ne s _ h
  · split
    · rfl
    · exact State.rd_wr_ne s _ h
  · split
    · rfl
    · exact State.rd_wr_ne s _ h
  · rfl
  · rfl

/-- The fields that a write can change: neither read-only nor write-only ones. -/
def FldDesc.takes (f : FldDesc) : Bool := f.acc != .ro && f.acc != .wo

theorem mergeFld_frame (base val mask : Nat) (f : FldDesc) (s : State) :
    Frame (([f].filter FldDesc.takes).map (·.fld base)) [] [] s (mergeFld base val mask f s) := by
  have hstay : ∀ k : List Fld, Frame k [] [] s s := fun k => (Frame.refl s).weaken (by simp) (by simp)
  have hwr : ∀ (c : Prop) [Decidable c] (v : Nat), Frame [f.fld base] [] [] s (if c then s else s.wr (f.fld base) v) := by
    intro c _ v
    split
    · exact hstay _
    · exact Frame.wr s _ _
  cases hacc : f.acc <;> simp only [mergeFld, hacc]
  case rw => simpa [FldDesc.takes, hacc] using hwr _ _
  case w1c => simpa [FldDesc.takes, hacc] using hwr _ _
  case cnt => simpa [FldDesc.takes, hacc] using hwr _ 0
  case ro => exact hstay _
  case wo => exact hstay _

/-- A write of a register leaves everything alone but the fields that take it (R14, R15). -/
theorem mergeReg_frame (fields : List FldDesc) (base val mask : Nat) (s : State) :
    Frame ((fields.filter FldDesc.takes).map (·.fld base)) [] [] s (mergeReg fields base val mask s) := by
  induction fields generalizing s with
  | nil => exact Frame.refl s
  | cons f l ih =>
    have h := (mergeFld_frame base val mask f s).trans (ih (mergeFld base val mask f s))
    rwa [← List.map_append, ← List.filter_append] at h

/-- Each field of a register takes the bits that were written, the fields standing at different places (R14, R44). -/
theorem mergeReg_takes {fields : List FldDesc} (hplaces : (fields.map (·.lo)).Nodup) {f : FldDesc} (hf : f ∈ fields) (base val written : Nat)
    (s : State) : FldTakes base val written f s (mergeReg fields base val (written &&& fieldMask fields) s) := by
  have hrest : ∀ (l : List FldDesc) (m : Nat) (t : State), (∀ g ∈ l, g.lo ≠ f.lo) →
      (mergeReg l base val m t).rd (f.fld base) = t.rd (f.fld base) := by
    intro l m
    induction l with
    | nil => exact fun t _ => rfl
    | cons g l ih =>
      intro t h
      refine (ih _ fun x hx => h x (List.mem_cons_of_mem _ hx)).trans (mergeFld_rd_ne ?_ t)
      have := h g (List.mem_cons_self)
      simp only [FldDesc.fld, Fld.at]
      omega
  obtain ⟨l₁, l₂, rfl⟩ := List.append_of_mem hf
  have hne : (∀ g ∈ l₁, g.lo ≠ f.lo) ∧ ∀ g ∈ l₂, g.lo ≠ f.lo := by
    simp only [List.map_append, List.map_cons, List.nodup_append, List.nodup_cons, List.mem_map, List.mem_cons] at hplaces
    obtain ⟨-, ⟨h2, -⟩, h1⟩ := hplaces
    exact ⟨fun g hg => h1 _ ⟨g, hg, rfl⟩ _ (.inl rfl), fun g hg e => h2 ⟨g, hg, e⟩⟩
  generalize hm : written &&& fieldMask (l₁ ++ f :: l₂) = m
  have hsplit : mergeReg (l₁ ++ f :: l₂) base val m s = mergeReg l₂ base val m (mergeFld base val m f (mergeReg l₁ base val m s)) := by
    simp [mergeReg, List.foldl_append]
  have htakes := mergeFld_takes hf base val written (mergeReg l₁ base val m s)
  rw [hm] at htakes
  rw [hsplit]
  exact htakes.congr (hrest l₁ m s hne.1) (hrest l₂ m _ hne.2)

/-- An RW field all of whose bits are written reads what was written there. -/
theorem FldTakes.rd_eq {base val mask : Nat} {f : FldDesc} {u t : State} (h : FldTakes base val mask f u t) (hacc : f.acc = .rw)
    (hall : ∀ i, i < f.w → mask.testBit (f.lo + i) = true) : t.rd (f.fld base) = bitsOf val f.lo f.w := by
  apply Nat.eq_of_testBit_eq
  intro i
  rw [testBit_bitsOf]
  by_cases hi : i < f.w
  · rw [(fldTakes_iff.1 h).1 hacc i hi, if_pos (hall i hi)]
    simp [hi]
  · have hlt := t.rd_lt (f.fld base)
    have hle : 2 ^ f.w ≤ 2 ^ i := Nat.pow_le_pow_right (by omega) (by omega)
    simp only [hi, decide_false, Bool.false_and]
    exact Nat.testBit_lt_two_pow (Nat.lt_of_lt_of_le hlt hle)

end Sys2Proof.Machine
end

section
/-! PROOF. The register map: where a register stands, and that a write of one that no block acts on only reaches its fields (R13 to R17). -/

namespace Sys2Proof.Machine

/-! ### The register map -/

/-- The pages of the register blocks. -/
def regPages : List Nat := List.range' 0x500 20

theorem mem_regPages {a : Nat} (hlo : 0x500000 ≤ a) (hhi : a < 0x514000) : a / 0x1000 ∈ regPages := by
  simp only [regPages, List.mem_range'_1]
  omega

theorem map_places_differ : ∀ p ∈ regPages, ∀ r ∈ RegMap.block p, (r.fields.map (·.lo)).Nodup := by decide +kernel
theorem map_fields_wide : ∀ p ∈ regPages, ∀ r ∈ RegMap.block p, ∀ f ∈ r.fields, 0 < f.w := by decide +kernel
theorem map_within_page : ∀ p ∈ regPages, ∀ r ∈ RegMap.block p, ∀ i < max 1 r.count,
    (r.addr + i * r.stride) % 0x1000 + r.width / 8 ≤ 0x1000 := by decide +kernel

theorem baseAt_eq_some {r : RegDesc} {a b : Nat} (h : r.baseAt a = some b) :
    b ≤ a ∧ a < b + r.width / 8 ∧ ∃ i < max 1 r.count, b = r.addr + i * r.stride := by
  unfold RegDesc.baseAt at h
  by_cases hlo : a < r.addr
  · simp [hlo] at h
  · rw [if_neg hlo] at h
    dsimp only at h
    generalize hi : (if r.count ≤ 1 then 0 else (a - r.addr) / r.stride) = i at h
    have hle : i * r.stride ≤ a - r.addr := by
      rw [← hi]
      split
      · omega
      · exact Nat.div_mul_le_self (a - r.addr) r.stride
    split at h
    · next hin =>
      cases h
      exact ⟨by omega, hin.2, i, hin.1, rfl⟩
    · cases h

/-- The register that stands at an address is one of its block's map. -/
theorem regAt_eq_some {a : Nat} {x : RegDesc × Nat} (h : regAt a = some x) :
    x.1 ∈ RegMap.block (a / 0x1000) ∧ x.1.baseAt a = some x.2 := by
  have hfold : ∀ (l : List RegDesc) (o : Option (RegDesc × Nat)),
      l.foldl (fun found r => match found with
        | some x => some x
        | none => (r.baseAt a).map fun b => (r, b)) o = some x →
      o = some x ∨ x.1 ∈ l ∧ x.1.baseAt a = some x.2 := by
    intro l
    induction l with
    | nil => exact fun o h => .inl h
    | cons r l ih =>
      intro o h
      rcases ih _ h with h | ⟨hm, hb⟩
      · cases o with
        | some y => exact .inl h
        | none =>
          obtain ⟨b, hb, rfl⟩ := Option.map_eq_some_iff.1 h
          exact .inr ⟨List.mem_cons_self, hb⟩
      · exact .inr ⟨List.mem_cons_of_mem _ hm, hb⟩
  exact (hfold _ none h).resolve_left (by simp)

/-- What is known of the register at an address. -/
structure StandsAt (r : RegDesc) (base a : Nat) : Prop where
  le : base ≤ a
  lt : a < base + r.width / 8
  page : base / 0x1000 = a / 0x1000
  places : (r.fields.map (·.lo)).Nodup
  wide : ∀ f ∈ r.fields, 0 < f.w

theorem regAt_stands {a : Nat} {x : RegDesc × Nat} (hlo : 0x500000 ≤ a) (hhi : a < 0x514000) (h : regAt a = some x) :
    StandsAt x.1 x.2 a := by
  obtain ⟨hmem, hbase⟩ := regAt_eq_some h
  obtain ⟨hle, hlt, i, hi, hb⟩ := baseAt_eq_some hbase
  have hp := mem_regPages hlo hhi
  have hin := map_within_page _ hp _ hmem i hi
  rw [← hb] at hin
  exact ⟨hle, hlt, by omega, map_places_differ _ hp _ hmem, map_fields_wide _ hp _ hmem⟩

/-- An access meets no register exactly where no byte of it is defined (R17, R26). -/
theorem undefinedAt_eq {a n : Nat} (hlo : 0x500000 ≤ a) (hhi : a < 0x514000) (hn : 0 < n) : undefinedAt a n = (regHit a n).isNone := by
  unfold undefinedAt regHit
  split
  · simp
  · next hact =>
    cases hx : regAt (a - 0x800) with
    | none => rfl
    | some x =>
      have hst := regAt_stands (by omega) (by omega) hx
      obtain ⟨r, b⟩ := x
      have hbytes : ((List.range n).any fun i => staged8 r.fields (a - 0x800 - b + i)) =
          r.fields.any fun f => f.st && decide (f.lo < 8 * (a - 0x800 - b + n)) && decide (8 * (a - 0x800 - b) < f.lo + f.w) := by
        rw [Bool.eq_iff_iff]
        simp only [staged8, List.any_eq_true, List.mem_range, Bool.and_eq_true, decide_eq_true_eq]
        constructor
        · rintro ⟨i, hi, f, hf, ⟨hs, h1⟩, h2⟩
          exact ⟨f, hf, ⟨hs, by omega⟩, by omega⟩
        · rintro ⟨f, hf, ⟨hs, h1⟩, h2⟩
          have hw := hst.wide f hf
          by_cases hlow : f.lo < 8 * (a - 0x800 - b) + 8
          · exact ⟨0, hn, f, hf, ⟨hs, by omega⟩, by omega⟩
          · exact ⟨f.lo / 8 - (a - 0x800 - b), by omega, f, hf, ⟨hs, by omega⟩, by omega⟩
      dsimp only
      rw [hbytes]
      split <;> simp_all

theorem region_regs {a : Nat} (hlo : 0x500000 ≤ a) (hhi : a < 0x514000) : region a = .regs (a / 0x1000) := by
  unfold region
  rw [if_neg (by omega), if_neg (by omega), if_neg (by omega), if_neg (by omega), if_pos ⟨hlo, hhi⟩]

/-! ### Registers that no block acts on -/

/-- A register whose write only reaches its fields stands outside each range of those that do more. -/
theorem plainReg_outside {base : Nat} (h : plainReg base = true) :
    base % 0x1000 ≠ 0x7F0 ∧ ∀ r ∈ actingRegs, base < r.1 ∨ r.2 ≤ base := by
  simp only [plainReg, Bool.and_eq_true, bne_iff_ne, ne_eq, Bool.not_eq_true', List.any_eq_false, decide_eq_true_eq] at h
  exact ⟨h.1, fun r hr => by have := h.2 r hr; omega⟩

section Plain
variable {base : Nat} (h : plainReg base = true) (acc : Nat) (fields : List FldDesc) (val mask : Nat) (s : State)
include h

theorem sysWrite_plain : sysWrite fields base val mask s = mergeReg fields base val mask s := by
  have hclk := (plainReg_outside h).2 (0x500020, 0x500021) (by decide)
  rw [sysWrite, if_neg (by dsimp only at hclk; omega)]

theorem pwrWrite_plain (hb : base / 0x1000 = 0x501) : pwrWrite acc fields base val mask s = mergeReg fields base val mask s := by
  obtain ⟨-, hout⟩ := plainReg_outside h
  simp only [actingRegs, List.forall_mem_cons] at hout
  unfold pwrWrite
  split
  case h_7 => rfl
  all_goals omega

theorem tbWrite_plain (hb : base / 0x1000 = 0x504) : tbWrite fields base val mask s = mergeReg fields base val mask s := by
  obtain ⟨-, hout⟩ := plainReg_outside h
  simp only [actingRegs, List.forall_mem_cons] at hout
  unfold tbWrite
  split
  case h_5 => rfl
  all_goals omega

theorem lioWrite_plain (hb : base / 0x1000 = 0x507) : lioWrite fields base val mask s = mergeReg fields base val mask s := by
  obtain ⟨-, hout⟩ := plainReg_outside h
  simp only [actingRegs, List.forall_mem_cons] at hout
  unfold lioWrite
  dsimp only
  rw [if_neg (by omega), if_neg (by omega), if_neg (by omega), if_neg (by omega)]

theorem feWrite_plain (hb : base / 0x1000 = 0x508) : feWrite fields base val mask s = mergeReg fields base val mask s := by
  obtain ⟨-, hout⟩ := plainReg_outside h
  simp only [actingRegs, List.forall_mem_cons] at hout
  unfold feWrite
  split
  case h_4 => exact if_neg (by omega)
  all_goals omega

theorem cpWrite_plain (p : Nat) (hb : base / 0x1000 = 0x50A ∨ base / 0x1000 = 0x50B) :
    cpWrite p fields base val mask s = mergeReg fields base val mask s := by
  obtain ⟨-, hout⟩ := plainReg_outside h
  simp only [actingRegs, List.forall_mem_cons] at hout
  unfold cpWrite
  split
  case h_3 => rfl
  all_goals omega

theorem macWrite_plain : macWrite fields base val mask s = mergeReg fields base val mask s := by
  have hctl := (plainReg_outside h).2 (0x50C000, 0x50C001) (by decide)
  rw [macWrite, if_neg (by dsimp only at hctl; omega)]

theorem fwdWrite_plain (hb : base / 0x1000 = 0x50D) : fwdWrite fields base val mask s = mergeReg fields base val mask s := by
  obtain ⟨-, hout⟩ := plainReg_outside h
  simp only [actingRegs, List.forall_mem_cons] at hout
  unfold fwdWrite
  split
  case h_8 => rfl
  all_goals omega

theorem flWrite_plain (hb : base / 0x1000 = 0x50F) : flWrite acc fields base val mask s = mergeReg fields base val mask s := by
  obtain ⟨-, hout⟩ := plainReg_outside h
  simp only [actingRegs, List.forall_mem_cons] at hout
  have hopen : flLocked (base - 0x50F000) = false := by
    simp only [flLocked, Bool.or_eq_false_iff, Bool.and_eq_false_iff, beq_eq_false_iff_ne, decide_eq_false_iff_not]
    omega
  unfold flWrite
  simp only [hopen]
  rw [if_neg (by omega), if_neg (by simp)]

theorem hpWrite_plain (hb : base / 0x1000 = 0x510) : hpWrite acc fields base val mask s = mergeReg fields base val mask s := by
  obtain ⟨-, hout⟩ := plainReg_outside h
  simp only [actingRegs, List.forall_mem_cons] at hout
  unfold hpWrite
  dsimp only
  rw [if_neg (by omega), if_neg (by omega), if_neg (by omega), if_neg (by omega)]

theorem bistWrite_plain : bistWrite fields base val mask s = mergeReg fields base val mask s := by
  have hctl := (plainReg_outside h).2 (0x511000, 0x512001) (by decide)
  have hne : base ≠ 0x512000 := by
    dsimp only at hctl
    omega
  simp [bistWrite, hne]

/-- The write of a register that no block acts on only reaches its fields. -/
theorem regStore_plain (hlo : 0x500000 ≤ base) (hhi : base < 0x514000) :
    regStore acc fields base val mask s = mergeReg fields base val (mask &&& fieldMask fields) s := by
  obtain ⟨hcmt, hout⟩ := plainReg_outside h
  simp only [actingRegs, List.forall_mem_cons] at hout
  unfold regStore
  dsimp only
  rw [if_neg hcmt]
  split
  case h_1 => exact sysWrite_plain h fields val _ s
  case h_2 hb => exact pwrWrite_plain h acc fields val _ s hb
  case h_5 hb => exact tbWrite_plain h fields val _ s hb
  case h_8 hb => exact lioWrite_plain h fields val _ s hb
  case h_9 hb => exact feWrite_plain h fields val _ s hb
  case h_11 hb => exact cpWrite_plain h fields val _ s 0 (.inl hb)
  case h_12 hb => exact cpWrite_plain h fields val _ s 1 (.inr hb)
  case h_13 => exact macWrite_plain h fields val _ s
  case h_14 hb => exact fwdWrite_plain h fields val _ s hb
  case h_16 hb => exact flWrite_plain h acc fields val _ s hb
  case h_17 hb => exact hpWrite_plain h acc fields val _ s hb
  case h_19 => exact bistWrite_plain h fields val _ s
  case h_21 =>
    clear hout
    simp only [imp_false] at *
    omega
  all_goals omega

end Plain

end Sys2Proof.Machine
end

section
/-! PROOF. One write of a unit by an accessor: its verdict, what refuses it, and the register that it meets (R26, R39, R84, R420, R467). -/

namespace Sys2Proof.Machine

/-! ### The command -/

theorem atRegister_regs {acc a : Nat} (hacc : acc < 18) (hlo : 0x500000 ≤ a) (hhi : a < 0x514000) : atRegister acc a = true := by
  have hown : 0x500000 ≤ ownAddr acc a ∧ ownAddr acc a < 0x514000 := by
    unfold ownAddr
    split
    · next h =>
      simp only [inAlias, Bool.and_eq_true, decide_eq_true_eq] at h
      omega
    · exact ⟨hlo, hhi⟩
  simp [atRegister, region_regs hown.1 hown.2]

/-- REG_WRITE at an address of the register blocks is the access; canonical memory and the queue apart, it leaves what the access leaves. -/
theorem completes_regWrite {acc : Fin 18} {addr : BitVec 24} {w : Width} {v : BitVec 32} {s : State} {P : State → Prop}
    (hcore : (settle s).coreUp = true) (hlo : 0x500000 ≤ addr.toNat) (hhi : addr.toNat < 0x514000)
    (h : ∀ t, Frame [] [] [] (accessWrite acc addr.toNat (widthBytes w) v.toNat (settle s)) t → P t) :
    Completes (.regWrite acc addr w v) s P := by
  refine completes_run _ rfl (h _ ?_)
  have heffect : (if (settle s).coreUp then
      (if atRegister acc addr.toNat then accessWrite acc addr.toNat (widthBytes w) v.toNat (settle s) else settle s) else settle s) =
      accessWrite acc addr.toNat (widthBytes w) v.toNat (settle s) := by rw [if_pos hcore, if_pos (atRegister_regs acc.isLt hlo hhi)]
  rw [← heffect]
  exact frame_after s _

/-! ### The verdict -/

/-- The security maps close one end of an access (R84). -/
def State.shut (u : State) (acc a n : Nat) : Bool := u.closedTo acc a || u.closedTo acc (a + n - 1)

theorem portDead_of_makes {u : State} {acc a n : Nat} (h : u.makes acc a n) : u.portDead acc = false := by
  unfold State.portDead
  by_cases hacc : acc = 17
  · simp [(h.2.2 hacc).1]
  · simp [hacc]

theorem unitOk_of_makes {u : State} {acc a n : Nat} (h : u.makes acc a n) : unitOk acc a n = true := by
  unfold unitOk
  split
  · next hacc => simp [h.1 hacc]
  · split
    · next hacc => simp [h.2.1 hacc]
    · rfl

/-- An access of the register blocks that is made: the maps come first, then whether something stands there (R26, R84). -/
theorem verdict_regs {u : State} {acc a n : Nat} (hmakes : u.makes acc a n) (hlo : 0x500000 ≤ a) (hhi : a < 0x514000)
    (hself : inAlias a = true → 16 ≤ acc) (v : Nat) :
    u.verdict acc a n true v =
      if u.shut acc a n then .security else if inAlias a || (regHit a n).isNone then .bus else .ok := by
  have hopen : (inAlias a && decide (acc < 16)) = false := by
    cases hin : inAlias a
    · rfl
    · simpa using hself hin
  have hlevel : (acc == 17 && u.rd F.DBG_STAT_LEVEL == 0) = false := by
    by_cases hacc : acc = 17
    · simpa [hacc] using (hmakes.2.2 hacc).2
    · simp [hacc]
  have hgated : u.gated acc a n true v = u.shut acc a n := by
    unfold State.gated State.shut
    rw [if_neg (by simpa using hlevel), if_neg (by simpa using hopen)]
  have hown : ownAddr acc a = a := if_neg (by simpa using hopen)
  have halias : (inAlias a && decide (16 ≤ acc)) = inAlias a := by
    cases hin : inAlias a
    · rfl
    · simpa using hself hin
  have hspan : spanOk (if true then u.writableAt else u.readableAt) a n = (regHit a n).isSome := by
    simp [spanOk, State.writableAt, region_regs hlo hhi]
  unfold State.verdict
  rw [hgated, hown, halias, hspan]
  cases inAlias a <;> cases regHit a n <;> rfl

/-! ### What comes of an access -/

/-- A killed debug port makes no access (R467). -/
theorem accessWrite_killed {u : State} (h : u.on F.DBG_STAT_KILLED = true) (a n v : Nat) : accessWrite 17 a n v u = u := by
  simp [accessWrite, State.portDead, h]

section Access
variable {u : State} {acc a n : Nat} (hacc : acc < 18) (hmakes : u.makes acc a n) (hlo : 0x500000 ≤ a) (hhi : a < 0x514000) (v : Nat)
include hacc hmakes hlo hhi

/-- An access that the maps close has no effect, but that the host's is denied (R84, R420). -/
theorem accessWrite_shut (hself : inAlias a = true → 16 ≤ acc) (hshut : u.shut acc a n = true) :
    accessWrite acc a n v u = if acc = 16 then hostDeny u else u := by
  have hverdict := fun v => (verdict_regs hmakes hlo hhi hself v).trans (if_pos hshut)
  unfold accessWrite
  rw [if_neg (by simp [unitOk_of_makes hmakes, portDead_of_makes hmakes])]
  split
  · next h16 =>
    subst h16
    obtain ⟨rfl, -⟩ := hmakes.2.1 rfl
    simp [hostWrite16, hverdict]
  · simp [busWrite, hverdict, dbgRefuse]

/-- An access of an undefined offset has no effect, but that the host's and the debug port's is recorded (R26). -/
theorem accessWrite_unmapped (hself : inAlias a = true → 16 ≤ acc) (hshut : u.shut acc a n = false)
    (hnone : (inAlias a || (regHit a n).isNone) = true) :
    accessWrite acc a n v u = if acc < 16 then u else accErr F.SYS_ACCERR_UNMAPPED acc u := by
  have hverdict : ∀ v, u.verdict acc a n true v = .bus := fun v => by rw [verdict_regs hmakes hlo hhi hself v, hshut, if_pos hnone]; rfl
  unfold accessWrite
  rw [if_neg (by simp [unitOk_of_makes hmakes, portDead_of_makes hmakes])]
  split
  · next h16 =>
    subst h16
    obtain ⟨rfl, -⟩ := hmakes.2.1 rfl
    simp [hostWrite16, hverdict]
  · by_cases h17 : acc = 17
    · subst h17
      simp [busWrite, hverdict, dbgRefuse]
    · simp [busWrite, hverdict, h17, show acc < 16 by omega]

/-- The host's access that its allow list refuses is denied (R420). -/
theorem accessWrite_refused (hself : inAlias a = false) (hshut : u.shut acc a n = false) (hsome : (regHit a n).isNone = false)
    (h16 : acc = 16) (hallow : u.hostAllow a true = false) : accessWrite acc a n v u = hostDeny u := by
  have hverdict : ∀ v, u.verdict acc a n true v = .ok := fun v => by
    rw [verdict_regs hmakes hlo hhi (by simp [hself]) v, hshut, hself, hsome]; rfl
  subst h16
  obtain ⟨rfl, -⟩ := hmakes.2.1 rfl
  unfold accessWrite
  rw [if_neg (by simp [unitOk_of_makes hmakes, portDead_of_makes hmakes])]
  simp [hostWrite16, hverdict, hallow]

omit hacc hmakes hlo hhi in
/-- A unit takes its own bytes of a value alone (R39). -/
theorem hitWriteUnit_mod (h : RegHit) (o : Nat) : hitWriteUnit acc h o n (v % 2 ^ (8 * n)) u = hitWriteUnit acc h o n v u := by
  have hmod : v % 2 ^ (8 * n) % 2 ^ (8 * unitLen (h.desc.width / 8) o n) = v % 2 ^ (8 * unitLen (h.desc.width / 8) o n) :=
    Nat.mod_mod_of_dvd v (Nat.pow_dvd_pow 2 (Nat.mul_le_mul_left 8 (Nat.min_le_left _ _)))
  simp only [hitWriteUnit, hmod]

/-- An access that nothing stands against writes its unit of the register that stands there (R39). -/
theorem accessWrite_admits (hself : inAlias a = false) (hshut : u.shut acc a n = false) {h : RegHit} (hhit : regHit a n = some h)
    (hallow : acc = 16 → u.hostAllow a true = true) : accessWrite acc a n v u = hitWriteUnit acc h (a - h.tag) n v u := by
  have hverdict : ∀ v, u.verdict acc a n true v = .ok := fun v => by
    rw [verdict_regs hmakes hlo hhi (by simp [hself]) v, hshut, hself, hhit]; rfl
  have hown : ownAddr acc a = a := if_neg (by simp [hself])
  have hbus : ∀ v, busWrite acc a n v u = (.ok 0, hitWriteUnit acc h (a - h.tag) n v u) := fun v => by
    simp only [busWrite, hverdict, hown, writeAt, region_regs hlo hhi, hhit]
  unfold accessWrite
  rw [if_neg (by simp [unitOk_of_makes hmakes, portDead_of_makes hmakes])]
  split
  · next h16 =>
    subst h16
    obtain ⟨rfl, -⟩ := hmakes.2.1 rfl
    simp [hostWrite16, hverdict, hallow, hbus]
  · simp [hbus, hitWriteUnit_mod, dbgRefuse]

end Access

/-! ### The unit of a register -/

/-- A register that stands at an address below 800h is what a unit there meets (R13). -/
theorem regHit_low {a : Nat} (h : a % 0x1000 < 0x800) (n : Nat) : regHit a n = (regAt a).map fun x => ⟨x.1, x.2, false⟩ := if_pos h

/-- No write reaches an active copy (R17). -/
theorem regHit_high {a n : Nat} (h : 0x800 ≤ a % 0x1000) {x : RegHit} (hx : regHit a n = some x) : x.act = true := by
  unfold regHit at hx
  rw [if_neg (by omega)] at hx
  split at hx
  · split at hx
    · cases hx
      rfl
    · cases hx
  · cases hx

theorem hitWriteUnit_active {h : RegHit} (hact : h.act = true) (acc o n v : Nat) (u : State) : hitWriteUnit acc h o n v u = u := by
  simp [hitWriteUnit, hact]

/-- A unit of a register that takes no latch, or covers it whole, stores its bits (R39, R40). -/
theorem hitWriteUnit_stores {r : RegDesc} {base o n : Nat} (hw : r.writable = true) (hll : r.ll = false ∨ (o = 0 ∧ r.width ≤ 8 * n))
    (acc v : Nat) (u : State) :
    hitWriteUnit acc ⟨r, base, false⟩ o n v u =
      regStore acc r.fields base (v % 2 ^ (8 * unitLen (r.width / 8) o n) * 2 ^ (8 * o))
        ((2 ^ (8 * unitLen (r.width / 8) o n) - 1) * 2 ^ (8 * o)) u := by
  have hun : unlatched ⟨r, base, false⟩ o n = true := by
    simp only [unlatched, Bool.or_eq_true, Bool.not_eq_true', Bool.and_eq_true, beq_iff_eq, decide_eq_true_eq]
    exact hll.imp_right fun h => ⟨h.1, by omega⟩
  simp [hitWriteUnit, hw, hun]

/-- A register that is read-only throughout takes no write (R14). -/
theorem hitWriteUnit_readOnly {h : RegHit} (hw : h.desc.writable = false) (acc o n v : Nat) (u : State) :
    hitWriteUnit acc h o n v u = u := by
  simp [hitWriteUnit, hw]

end Sys2Proof.Machine
end

section
/-! PROOF. O5: REG_WRITE by any accessor. -/

namespace Sys2Proof.Machine

/-! ### What a refusal records -/

/-- Of a register its fields take the bits that were written, and nothing else changes (R14). -/
def RegDesc.Written (r : RegDesc) (base val mask : Nat) (u t : State) : Prop :=
  (∀ f ∈ r.fields, FldTakes base val mask f u t) ∧ Frame (r.taking base) [] [] u t

theorem RegDesc.Written.trans {r : RegDesc} {base val mask : Nat} {u x t : State} (h : r.Written base val mask u x)
    (ht : Frame [] [] [] x t) : r.Written base val mask u t :=
  ⟨fun f hf => (h.1 f hf).congr rfl (ht.rd_eq _), h.2.trans_nil ht⟩

/-- Above the bits that are written a value may be anything. -/
theorem FldTakes.of_lowByte {base v : Nat} {f : FldDesc} {u t : State} (h : FldTakes base (v % 256) 255 f u t) : FldTakes base v 255 f u t := by
  have hlow : ∀ i, Nat.testBit 255 i = true → (v % 256).testBit i = v.testBit i := by
    intro i hi
    rw [show 255 = 2 ^ 8 - 1 from rfl, Nat.testBit_two_pow_sub_one] at hi
    rw [show 256 = 2 ^ 8 from rfl, Nat.testBit_mod_two_pow, hi, Bool.true_and]
  rw [fldTakes_iff] at h ⊢
  obtain ⟨hrw, hw1c, hcnt⟩ := h
  refine ⟨fun hacc i hi => ?_, fun hacc i hi => ?_, hcnt⟩
  · rw [hrw hacc i hi]
    split
    · next hm => exact hlow _ hm
    · rfl
  · rw [hw1c hacc i hi]
    cases hm : Nat.testBit 255 (f.lo + i)
    · rfl
    · rw [hlow _ hm]

/-- What a denied access leaves: the host's is recorded and counted, another's has no effect (R84, R420). -/
def Denied (acc : Nat) (u t : State) : Prop :=
  if acc = 16 then t.rd F.HP_ERR_DENY = 1 ∧ Counts F.HP_DENIES u t ∧ Frame [F.HP_ERR_DENY, F.HP_DENIES] [] [] u t
  else Frame [] [] [] u t

theorem hostDeny_recorded {acc : Nat} {u t : State} (ht : Frame [] [] [] (if acc = 16 then hostDeny u else u) t) : Denied acc u t := by
  unfold Denied
  by_cases h16 : acc = 16
  · simp only [h16, if_true] at ht ⊢
    have hcounted : (u.wr F.HP_ERR_DENY 1).rd F.HP_DENIES = u.rd F.HP_DENIES := State.rd_wr_ne u 1 (by decide)
    have hlt := u.rd_lt F.HP_DENIES
    refine ⟨?_, ?_, ((Frame.wr u F.HP_ERR_DENY 1).trans (Frame.wr _ F.HP_DENIES _)).trans_nil ht⟩
    · rw [ht.rd_eq, hostDeny, State.set1_eq, State.inc_eq, State.rd_wr_ne _ _ (by decide), State.rd_wr_self]
      rfl
    · rw [Counts, ht.rd_eq, hostDeny, State.set1_eq, State.inc_eq, State.rd_wr_self, hcounted]
      exact Nat.mod_eq_of_lt (by omega)
  · simpa only [h16, if_false] using ht

/-- An access of an undefined offset: the host's and the debug port's is recorded with event 2, a burner's has no effect (R26). -/
theorem unmapped_recorded {acc : Nat} (hacc : acc < 18) {u t : State} (hcore : u.coreUp = true)
    (ht : Frame [] [] [] (if acc < 16 then u else accErr F.SYS_ACCERR_UNMAPPED acc u) t) :
    if acc < 16 then Frame [] [] [] u t
    else t.rd F.SYS_ACCERR_UNMAPPED = 1 ∧ t.rd F.SYS_ACCERR_ACCESSOR = acc ∧
      Frame [F.SYS_ACCERR_UNMAPPED, F.SYS_ACCERR_ACCESSOR] [] [2] u t := by
  by_cases h16 : acc < 16
  · simpa only [h16, if_true] using ht
  · simp only [h16, if_false] at ht ⊢
    have hawake : ((u.wr F.SYS_ACCERR_UNMAPPED 1).wr F.SYS_ACCERR_ACCESSOR acc).inRest = false := by
      have : u.inRest = false := by simp_all [State.coreUp]
      exact this
    have hfire := Frame.fire 2 ((u.wr F.SYS_ACCERR_UNMAPPED 1).wr F.SYS_ACCERR_ACCESSOR acc)
    rw [State.firedOf_awake hawake] at hfire
    refine ⟨?_, ?_, (((Frame.wr u _ 1).trans (Frame.wr _ _ acc)).trans hfire).trans_nil ht⟩
    · rw [ht.rd_eq, accErr, State.set1_eq, fire_rd _ _ (by decide), State.rd_wr_ne _ _ (by decide), State.rd_wr_self]
      rfl
    · rw [ht.rd_eq, accErr, State.set1_eq, fire_rd _ _ (by decide), State.rd_wr_self]
      exact Nat.mod_eq_of_lt (Nat.lt_trans hacc (by decide))

/-- A refused write of a guarded register is recorded (R82, R85). -/
theorem brnErr_recorded {acc : Nat} (hacc : acc < 18) {u t : State} (ht : Frame [] [] [] (brnErr acc u) t) : WriteErr acc u t := by
  refine ⟨?_, ?_, ((Frame.wr u F.BRN_ERR_WERR 1).trans (Frame.wr _ F.BRN_ERR_ACCESSOR acc)).trans_nil ht⟩
  · rw [ht.rd_eq, brnErr, State.set1_eq, State.rd_wr_ne _ _ (by decide), State.rd_wr_self]
    rfl
  · rw [ht.rd_eq, brnErr, State.rd_wr_self]
    exact Nat.mod_eq_of_lt (Nat.lt_trans hacc (by decide))

/-! ### Registers whose write only reaches their fields -/

theorem widthBytes_pos (w : Width) : 0 < widthBytes w := by cases w <;> decide

theorem mergeReg_written {r : RegDesc} (hplaces : (r.fields.map (·.lo)).Nodup) (base val mask : Nat) (u : State) :
    r.Written base val mask u (mergeReg r.fields base val (mask &&& fieldMask r.fields) u) :=
  ⟨fun _ hf => mergeReg_takes hplaces hf base val mask u, mergeReg_frame r.fields base val _ u⟩

/-- A write of a register leaves everything alone but its fields. -/
theorem mergeReg_frame_fields (fields : List FldDesc) (base val mask : Nat) (u : State) :
    Frame (fields.map (·.fld base)) [] [] u (mergeReg fields base val mask u) :=
  (mergeReg_frame fields base val mask u).weaken (fun _ hx => List.map_subset _ List.filter_sublist.subset hx) (by simp)

theorem readOnly_written {r : RegDesc} (hw : r.writable = false) (base val mask : Nat) (u : State) : r.Written base val mask u u := by
  have hro : ∀ f ∈ r.fields, f.acc = .ro := by simpa [RegDesc.writable] using hw
  exact ⟨fun f hf => by simp [fldTakes_iff, hro f hf], (Frame.refl u).weaken (by simp) (by simp)⟩

/-- A unit of a register that no block acts on: each field takes the bits that were written by its access code (R14, R39). -/
theorem hitWriteUnit_written {r : RegDesc} {base a n : Nat} (hst : StandsAt r base a) (hlo : 0x500000 ≤ a) (hhi : a < 0x514000)
    (hplain : plainReg base = true) (hll : r.ll = false ∨ (a = base ∧ r.width ≤ 8 * n)) (acc v : Nat) (u : State) :
    r.Written base (v % 2 ^ (8 * min n (r.width / 8 - (a - base))) * 2 ^ (8 * (a - base)))
      ((2 ^ (8 * min n (r.width / 8 - (a - base))) - 1) * 2 ^ (8 * (a - base))) u
      (hitWriteUnit acc ⟨r, base, false⟩ (a - base) n v u) := by
  have hpage := hst.page
  cases hw : r.writable
  case false =>
    rw [hitWriteUnit_readOnly hw]
    exact readOnly_written hw _ _ _ u
  case true =>
    rw [hitWriteUnit_stores hw (hll.imp_right fun h => ⟨by omega, h.2⟩), regStore_plain hplain _ _ _ _ _ (by omega) (by omega)]
    exact mergeReg_written hst.places _ _ _ u

/-! ### Registers of one byte -/

/-- A register of one byte stands at an address, and a write can act on it. -/
structure ByteReg (a : Nat) (fields : List FldDesc) : Prop where
  lo : 0x500000 ≤ a
  hi : a < 0x514000
  low : a % 0x1000 < 0x800
  own : inAlias a = false
  at_ : (regAt a).map (fun x => (x.1.width, x.1.ll, x.1.fields, x.2)) = some (8, false, fields, a)
  acts : (fields.any fun f => f.acc != .ro) = true
  places : (fields.map (·.lo)).Nodup
  within : ∀ f ∈ fields, f.lo + f.w ≤ 8

/-- A write of any width that is admitted at a register of one byte stores the value's low byte (R39). -/
theorem ByteReg.completes {a : Nat} {fields : List FldDesc} (hreg : ByteReg a fields) {acc : Fin 18} {w : Width} {v : BitVec 32} {s : State}
    {P : State → Prop} (hcore : (settle s).coreUp = true) (hmay : (settle s).admits acc a (widthBytes w) true)
    (h : ∀ t, Frame [] [] [] (regStore acc fields a (v.toNat % 256) 255 (settle s)) t → P t) :
    Completes (.regWrite acc (BitVec.ofNat 24 a) w v) s P := by
  have haddr : (BitVec.ofNat 24 a).toNat = a := Nat.mod_eq_of_lt (Nat.lt_trans hreg.hi (by decide))
  obtain ⟨⟨r, base⟩, hat, hr⟩ := Option.map_eq_some_iff.1 hreg.at_
  simp only [Prod.mk.injEq] at hr
  obtain ⟨hwidth, hll, rfl, rfl⟩ := hr
  obtain ⟨hmakes, hfirst, hlast, hallow⟩ := hmay
  have hlen : unitLen (r.width / 8) 0 (widthBytes w) = 1 := by cases w <;> simp [unitLen, widthBytes, hwidth]
  refine completes_regWrite hcore (by rw [haddr]; exact hreg.lo) (by rw [haddr]; exact hreg.hi) fun t ht => h t ?_
  rw [haddr, accessWrite_admits acc.isLt hmakes hreg.lo hreg.hi _ hreg.own (by simp [State.shut, hfirst, hlast])
    (by rw [regHit_low hreg.low, hat]; rfl) hallow] at ht
  simp only [RegHit.tag, Bool.false_eq_true, if_false, Nat.sub_self] at ht
  rw [hitWriteUnit_stores hreg.acts (.inl hll), hlen, Nat.mul_zero, Nat.pow_zero, Nat.mul_one, Nat.mul_one, Nat.mul_one] at ht
  exact ht

section ByteReg
variable {a : Nat} {fields : List FldDesc} (hreg : ByteReg a fields) {f : FldDesc} (hf : f ∈ fields)
include hreg hf

/-- The bits of a field of a register of one byte are all written. -/
theorem ByteReg.testBit_written (v : Nat) {i : Nat} (hi : i < f.w) :
    (v % 256 &&& (255 &&& fieldMask fields)).testBit (f.lo + i) = v.testBit (f.lo + i) := by
  have h8 : f.lo + i < 8 := by have := hreg.within f hf; omega
  rw [Nat.testBit_and, Nat.testBit_and, testBit_fieldMask hf hi, show 256 = 2 ^ 8 from rfl, show 255 = 2 ^ 8 - 1 from rfl,
    Nat.testBit_mod_two_pow, Nat.testBit_two_pow_sub_one]
  simp [h8]

theorem ByteReg.bitsOf_written (v : Nat) : bitsOf (v % 256 &&& (255 &&& fieldMask fields)) f.lo f.w = bitsOf v f.lo f.w := by
  apply Nat.eq_of_testBit_eq
  intro i
  rw [testBit_bitsOf, testBit_bitsOf]
  by_cases hi : i < f.w
  · rw [hreg.testBit_written hf v hi]
  · simp [hi]

/-- An RW field of a register of one byte takes its bits of what was written. -/
theorem ByteReg.mergeReg_rd (hrw : f.acc = .rw) (v : Nat) (u : State) :
    (mergeReg fields a (v % 256) (255 &&& fieldMask fields) u).rd (f.fld a) = bitsOf v f.lo f.w := by
  have h8 := hreg.within f hf
  rw [(mergeReg_takes hreg.places hf a (v % 256) 255 u).rd_eq hrw fun i hi => by
    rw [show 255 = 2 ^ 8 - 1 from rfl, Nat.testBit_two_pow_sub_one]; simp; omega]
  apply Nat.eq_of_testBit_eq
  intro i
  rw [testBit_bitsOf, testBit_bitsOf]
  by_cases hi : i < f.w
  · rw [show 256 = 2 ^ 8 from rfl, Nat.testBit_mod_two_pow]
    simp [hi, show f.lo + i < 8 by omega]
  · simp [hi]

end ByteReg

/-! ### The guarded registers of a burner (R82, R84, R85) -/

/-- The maps always close burner control to an open accessor (R84). -/
theorem accSecure_of_admits {u : State} {acc a n : Nat} (hpage : a / 0x1000 = 0x503) (hown : inAlias a = false)
    (hmay : u.admits acc a n true) : u.accSecure acc = true := by
  have halias : ¬(0x503700 ≤ a ∧ a < 0x503740) := by simpa [inAlias] using hown
  have hclosed := hmay.2.1
  rw [State.closedTo, State.mapSecure, region_regs (by omega) (by omega), hpage] at hclosed
  simpa [halias, State.blkSecure] using hclosed

theorem regStore_brn {base : Nat} (hpage : base / 0x1000 = 0x503) (hcmt : base % 0x1000 ≠ 0x7F0) (acc : Nat) (fields : List FldDesc)
    (val mask : Nat) (u : State) :
    regStore acc fields base val mask u = brnWrite acc fields base val (mask &&& fieldMask fields) u := by
  unfold regStore
  simp only [if_neg hcmt, hpage]

theorem regStore_brnSet {b o : Nat} (hb : b < 16) (ho : o < 64) (acc : Nat) (fields : List FldDesc) (val mask : Nat) (u : State) :
    regStore acc fields (0x503000 + 64 * b + o) val mask u =
      brnSetWrite acc b o fields (0x503000 + 64 * b + o) val (mask &&& fieldMask fields) u := by
  have hset : (0x503000 + 64 * b + o - 0x503000) / 64 = b ∧ (0x503000 + 64 * b + o - 0x503000) % 64 = o := by omega
  rw [regStore_brn (by omega) (by omega)]
  unfold brnWrite
  dsimp only
  rw [if_pos (by omega), hset.1, hset.2]

/-- A burner's bytes and flags take a write only while it does not run (R82). -/
theorem brnSetWrite_stopped {o : Nat} (ho : o = 6 ∨ (0x30 ≤ o ∧ o < 0x40)) (acc b : Nat) (fields : List FldDesc) (base val mask : Nat)
    (u : State) : brnSetWrite acc b o fields base val mask u =
      if u.bstate b = stOff ∨ u.bstate b = stParked ∨ u.bstate b = stFaulted then mergeReg fields base val mask u else brnErr acc u := by
  have hguarded : stoppedOnly o = true := by
    simp only [stoppedOnly, Bool.or_eq_true, beq_iff_eq, Bool.and_eq_true, decide_eq_true_eq]
    omega
  unfold brnSetWrite
  simp only [if_neg (show o ≠ 0 by omega), if_neg (show o ≠ 2 by omega), hguarded, if_neg (show ¬(o = 0x10 ∨ o = 0x14) by omega), if_true]

theorem byteReg_burner : ∀ (b : Fin 16) (k : Fin 17),
    (regAt (brnByteAddr b k)).map (fun x => (x.1.width, x.1.ll, x.1.fields, x.2)) =
      some (8, false, [⟨0, (brnByteReg b k).w, .rw, false, 0⟩], brnByteAddr b k) := by decide +kernel

theorem brnByteAddr_offset (b : Fin 16) (k : Fin 17) :
    ∃ o < 64, (o = 6 ∨ (0x30 ≤ o ∧ o < 0x40)) ∧ brnByteAddr b k = 0x503000 + 64 * b.val + o := by
  refine ⟨if k.val < 16 then 0x30 + k.val else 6, ?_, ?_, rfl⟩ <;> split <;> omega

theorem brnByteReg_fld (b : Fin 16) (k : Fin 17) :
    (⟨0, (brnByteReg b k).w, .rw, false, 0⟩ : FldDesc).fld (brnByteAddr b k) = brnByteReg b k := by
  unfold brnByteReg brnByteAddr
  split <;> simp only [FldDesc.fld, F.BRN_B, F.BRN_FLAGS_TVCNZ, Fld.at, Fld.mk.injEq, and_true] <;> omega

/-- The byte registers and the flags of a burner (R82). -/
theorem brnByte_byteReg (b : Fin 16) (k : Fin 17) : ByteReg (brnByteAddr b k) [⟨0, (brnByteReg b k).w, .rw, false, 0⟩] := by
  obtain ⟨o, ho, -, haddr⟩ := brnByteAddr_offset b k
  have hb := b.isLt
  refine ⟨by omega, by omega, by omega, ?_, byteReg_burner b k, rfl, by simp, ?_⟩
  · simp only [inAlias, Bool.and_eq_false_iff, decide_eq_false_iff_not]
    omega
  · simp only [List.mem_singleton, forall_eq, brnByteReg]
    split
    · exact Nat.le_refl 8
    · exact Nat.le_add_right 5 3

theorem brnCfg_byteReg : ∀ b : Fin 16, ByteReg (0x503002 + 64 * b.val)
    [⟨2, 1, .rw, false, if b.val = 0 then 1 else 0⟩, ⟨0, 2, .rw, false, 2⟩] := by
  intro b
  have hb := b.isLt
  have hat : ∀ b : Fin 16, (regAt (0x503002 + 64 * b.val)).map (fun x => (x.1.width, x.1.ll, x.1.fields, x.2)) =
      some (8, false, [⟨2, 1, .rw, false, if b.val = 0 then 1 else 0⟩, ⟨0, 2, .rw, false, 2⟩], 0x503002 + 64 * b.val) := by decide +kernel
  refine ⟨by omega, by omega, by omega, ?_, hat b, rfl, by simp, by simp⟩
  simp only [inAlias, Bool.and_eq_false_iff, decide_eq_false_iff_not]
  omega

/-- BRN_SECMEM. -/
def secMemFields : List FldDesc := [⟨6, 1, .rw, false, 1⟩, ⟨2, 4, .rw, false, 0xF⟩, ⟨1, 1, .rw, false, 1⟩, ⟨0, 1, .rw, false, 1⟩]
/-- BRN_SECLOCK. -/
def secLockFields : List FldDesc := [⟨0, 1, .rw, false, 0⟩]
/-- PWR_RST. -/
def pwrRstFields : List FldDesc := [⟨4, 4, .wo, false, 0⟩, ⟨1, 1, .wo, false, 0⟩, ⟨0, 1, .wo, false, 0⟩]

theorem secMem_byteReg : ByteReg 0x503506 secMemFields := by constructor <;> decide +kernel
theorem secLock_byteReg : ByteReg 0x503508 secLockFields := by constructor <;> decide +kernel
theorem pwrRst_byteReg : ByteReg 0x501016 pwrRstFields := by constructor <;> decide +kernel
theorem pwrNvi_byteReg : ByteReg 0x501002 [⟨0, 4, .rw, false, 4⟩] := by constructor <;> decide +kernel
theorem pwrRestCtl_byteReg : ByteReg 0x501008 [⟨1, 1, .rw, false, 1⟩, ⟨0, 1, .rw, false, 0⟩] := by constructor <;> decide +kernel

theorem bitsOf_one_bne_zero (v lo : Nat) : (bitsOf v lo 1 != 0) = bitOf v lo := by
  rw [bitOf, Nat.testBit_eq_decide_div_mod_eq, bitsOf, Nat.pow_one]
  rcases Nat.mod_two_eq_zero_or_one (v / 2 ^ lo) with h | h <;> rw [h] <;> rfl

theorem secureOnly_open {u : State} {acc : Nat} (h : u.accSecure acc = false) (f : State → State) : secureOnly acc f u = brnErr acc u :=
  if_neg (by simp [h])

theorem secureOnly_secure {u : State} {acc : Nat} (h : u.accSecure acc = true) (f : State → State) : secureOnly acc f u = f u := if_pos h

/-- Three registers of the power block take no write from an open accessor. -/
theorem regStore_pwr_open {u : State} {acc a : Nat} (ha : a ∈ [0x501002, 0x501008, 0x501016]) (h : u.accSecure acc = false)
    (fields : List FldDesc) (val mask : Nat) : regStore acc fields a val mask u = brnErr acc u := by
  simp only [List.mem_cons, List.not_mem_nil, or_false] at ha
  rcases ha with rfl | rfl | rfl <;> exact secureOnly_open h _

/-- PWR_RST does nothing without its key (R350). -/
theorem regStore_pwrRst_noKey {v : Nat} (hkey : v / 16 % 16 ≠ 0xA) (acc : Nat) (u : State) :
    regStore acc pwrRstFields 0x501016 (v % 256) 255 u = brnErr acc u := by
  change secureOnly acc (pwrRst acc (v % 256 &&& (255 &&& fieldMask pwrRstFields))) u = _
  cases hsec : u.accSecure acc
  case false => exact secureOnly_open hsec _
  case true =>
    have hbits : bitsOf (v % 256 &&& (255 &&& fieldMask pwrRstFields)) 4 4 = v / 16 % 16 :=
      pwrRst_byteReg.bitsOf_written (List.mem_cons_self) v
    rw [secureOnly_secure hsec, pwrRst, if_pos (by rw [hbits]; exact hkey)]

/-! ### The obligation -/

section Writes
variable {acc : Fin 18} {w : Width} {v : BitVec 32} {s : State} (hcore : (settle s).coreUp = true)
include hcore

/-- A burner's bytes and flags (R82). -/
theorem brnByte_write (b : Fin 16) (k : Fin 17) (hmay : (settle s).admits acc (brnByteAddr b k) (widthBytes w) true) :
    Completes (.regWrite acc (BitVec.ofNat 24 (brnByteAddr b k)) w v) s fun t =>
      if (settle s).bstate b = stOff ∨ (settle s).bstate b = stParked ∨ (settle s).bstate b = stFaulted then
        t.rd (brnByteReg b k) = v.toNat % 2 ^ (brnByteReg b k).w ∧ Frame [brnByteReg b k] [] [] (settle s) t
      else WriteErr acc (settle s) t := by
  refine (brnByte_byteReg b k).completes hcore hmay fun t ht => ?_
  have hfld := brnByteReg_fld b k
  have hread := (brnByte_byteReg b k).mergeReg_rd (List.mem_singleton_self _) rfl v.toNat (settle s)
  have hframe := mergeReg_frame_fields [⟨0, (brnByteReg b k).w, .rw, false, 0⟩] (brnByteAddr b k) (v.toNat % 256)
    (255 &&& fieldMask [⟨0, (brnByteReg b k).w, .rw, false, 0⟩]) (settle s)
  rw [hfld] at hread
  simp only [List.map_cons, List.map_nil, hfld] at hframe
  obtain ⟨o, ho, hguarded, haddr⟩ := brnByteAddr_offset b k
  rw [haddr, regStore_brnSet b.isLt ho, brnSetWrite_stopped hguarded, ← haddr] at ht
  split
  · next hstopped =>
    rw [if_pos hstopped] at ht
    refine ⟨?_, hframe.trans_nil ht⟩
    rw [ht.rd_eq, hread]
    simp [bitsOf]
  · next hruns =>
    rw [if_neg hruns] at ht
    exact brnErr_recorded acc.isLt ht

/-- A burner's world and level. -/
theorem brnCfg_write (b : Fin 16) (hmay : (settle s).admits acc (0x503002 + 64 * b.val) (widthBytes w) true) :
    Completes (.regWrite acc (BitVec.ofNat 24 (0x503002 + 64 * b.val)) w v) s fun t =>
      t.rd (F.BRN_CFG_PRIO b) = v.toNat % 4 ∧ t.on (F.BRN_CFG_WORLD b) = bitOf v.toNat 2 ∧
        Frame [F.BRN_CFG_PRIO b, F.BRN_CFG_WORLD b] [] [] (settle s) t := by
  have hreg := brnCfg_byteReg b
  have hb := b.isLt
  refine hreg.completes hcore hmay fun t ht => ?_
  have hsec := accSecure_of_admits (by omega) hreg.own hmay
  rw [show 0x503002 + 64 * b.val = 0x503000 + 64 * b.val + 2 by omega] at ht hreg
  rw [regStore_brnSet hb (by decide)] at ht
  change Frame [] [] [] (secureOnly _ _ _) t at ht
  rw [secureOnly_secure hsec] at ht
  have hworld : (⟨2, 1, .rw, false, if b.val = 0 then 1 else 0⟩ : FldDesc).fld (0x503000 + 64 * b.val + 2) = F.BRN_CFG_WORLD b := by
    simp only [FldDesc.fld, F.BRN_CFG_WORLD, Fld.at, Fld.mk.injEq, and_true]
    omega
  have hprio : (⟨0, 2, .rw, false, 2⟩ : FldDesc).fld (0x503000 + 64 * b.val + 2) = F.BRN_CFG_PRIO b := by
    simp only [FldDesc.fld, F.BRN_CFG_PRIO, Fld.at, Fld.mk.injEq, and_true]
    omega
  have hframe := (mergeReg_frame_fields _ _ _ _ _).trans_nil ht
  simp only [List.map_cons, List.map_nil, hworld, hprio] at hframe
  have hrdWorld := hreg.mergeReg_rd List.mem_cons_self rfl v.toNat (settle s)
  have hrdPrio := hreg.mergeReg_rd (List.mem_cons_of_mem _ List.mem_cons_self) rfl v.toNat (settle s)
  rw [hworld, ← ht.rd_eq] at hrdWorld
  rw [hprio, ← ht.rd_eq] at hrdPrio
  refine ⟨?_, ?_, hframe.of_bits (by simp)⟩
  · rw [hrdPrio]
    simp [bitsOf]
  · rw [State.on, hrdWorld]
    exact bitsOf_one_bne_zero v.toNat 2

/-- LOCK only sets (R85). -/
theorem secLock_write (hmay : (settle s).admits acc 0x503508 (widthBytes w) true) :
    Completes (.regWrite acc (BitVec.ofNat 24 0x503508) w v) s fun t =>
      t.on F.BRN_SECLOCK_LOCK = ((settle s).on F.BRN_SECLOCK_LOCK || bitOf v.toNat 0) ∧
        Frame [F.BRN_SECLOCK_LOCK] [] [] (settle s) t := by
  refine secLock_byteReg.completes hcore hmay fun t ht => ?_
  have hsec := accSecure_of_admits (by decide) secLock_byteReg.own hmay
  have hbit : bitOf (v.toNat % 256 &&& (255 &&& fieldMask secLockFields)) 0 = bitOf v.toNat 0 :=
    secLock_byteReg.testBit_written (List.mem_singleton_self _) v.toNat (i := 0) Nat.one_pos
  rw [regStore_brn (by decide) (by decide)] at ht
  change Frame [] [] [] (secMapWrite _ _ _ _ _ _) t at ht
  unfold secMapWrite at ht
  rw [if_neg (by simp [hsec]), if_pos rfl, hbit] at ht
  have hon : t.on F.BRN_SECLOCK_LOCK =
      (if bitOf v.toNat 0 then (settle s).set1 F.BRN_SECLOCK_LOCK else settle s).on F.BRN_SECLOCK_LOCK := by
    rw [State.on, ht.rd_eq, State.on]
  cases hset : bitOf v.toNat 0 <;> simp only [hset, Bool.false_eq_true, if_true, if_false] at ht hon
  · exact ⟨by simp [hon], ((Frame.refl _).weaken (by simp) (by simp) : Frame [_] [] [] _ _).trans_nil ht⟩
  · refine ⟨?_, (Frame.wr _ F.BRN_SECLOCK_LOCK 1).trans_nil ht⟩
    rw [hon, State.set1_eq, State.on, State.rd_wr_self, Bool.or_true]
    rfl

/-- A security map takes a write until LOCK is set (R85). -/
theorem secMem_write (hmay : (settle s).admits acc 0x503506 (widthBytes w) true) :
    Completes (.regWrite acc (BitVec.ofNat 24 0x503506) w v) s fun t =>
      if (settle s).on F.BRN_SECLOCK_LOCK then WriteErr acc (settle s) t
      else ∀ r ∈ (regAt 0x503506).toList, r.1.Written 0x503506 v.toNat 0xFF (settle s) t := by
  refine secMem_byteReg.completes hcore hmay fun t ht => ?_
  have hsec := accSecure_of_admits (by decide) secMem_byteReg.own hmay
  rw [regStore_brn (by decide) (by decide)] at ht
  change Frame [] [] [] (secMapWrite _ _ _ _ _ _) t at ht
  unfold secMapWrite at ht
  rw [if_neg (by simp [hsec]), if_neg (by decide)] at ht
  split
  · next hlock =>
    rw [if_pos hlock] at ht
    exact brnErr_recorded acc.isLt ht
  · next hlock =>
    rw [if_neg hlock] at ht
    intro r hr
    have hfields : r.1.fields = secMemFields := by
      obtain ⟨x, hx, hval⟩ := Option.map_eq_some_iff.1 secMem_byteReg.at_
      rw [Option.mem_toList, hx, Option.some.injEq] at hr
      simp only [Prod.mk.injEq] at hval
      rw [← hr, hval.2.2.1]
    have hplaces : (r.1.fields.map (·.lo)).Nodup := hfields ▸ secMem_byteReg.places
    rw [← hfields] at ht
    have hwritten := (mergeReg_written hplaces 0x503506 (v.toNat % 256) 255 (settle s)).trans ht
    exact ⟨fun f hf => (hwritten.1 f hf).of_lowByte, hwritten.2⟩

/-- A register of one byte whose write is refused to this accessor. -/
theorem ByteReg.refused {a : Nat} {fields : List FldDesc} (hreg : ByteReg a fields)
    (hmay : (settle s).admits acc a (widthBytes w) true)
    (h : regStore acc fields a (v.toNat % 256) 255 (settle s) = brnErr acc (settle s)) :
    Completes (.regWrite acc (BitVec.ofNat 24 a) w v) s (WriteErr acc (settle s)) :=
  hreg.completes hcore hmay fun t ht => brnErr_recorded acc.isLt (by rwa [h] at ht)

/-- Three registers of the power block take no write from an open accessor. -/
theorem pwr_write_open {a : Nat} (ha : a ∈ [0x501002, 0x501008, 0x501016]) (hmay : (settle s).admits acc a (widthBytes w) true)
    (hopen : (settle s).accSecure acc = false) : Completes (.regWrite acc (BitVec.ofNat 24 a) w v) s (WriteErr acc (settle s)) := by
  obtain ⟨fields, hreg⟩ : ∃ fields, ByteReg a fields := by
    simp only [List.mem_cons, List.not_mem_nil, or_false] at ha
    rcases ha with rfl | rfl | rfl
    · exact ⟨_, pwrNvi_byteReg⟩
    · exact ⟨_, pwrRestCtl_byteReg⟩
    · exact ⟨_, pwrRst_byteReg⟩
  exact hreg.refused hcore hmay (regStore_pwr_open ha hopen _ _ _)

end Writes

section Access
variable {acc : Fin 18} {addr : BitVec 24} {w : Width} {v : BitVec 32} {s : State} (hcore : (settle s).coreUp = true)
  (hlo : 0x500000 ≤ addr.toNat) (hhi : addr.toNat < 0x514000)
include hcore hlo hhi

/-- A killed debug port's write has no effect (R467). -/
theorem regWrite_killed (h17 : acc.val = 17) (hkilled : (settle s).on F.DBG_STAT_KILLED = true) :
    Completes (.regWrite acc addr w v) s (Frame [] [] [] (settle s)) := by
  refine completes_regWrite hcore hlo hhi fun t ht => ?_
  rwa [h17, accessWrite_killed hkilled] at ht

/-- An admitted write at an active copy has no effect (R17). -/
theorem regWrite_active (hmay : (settle s).admits acc addr.toNat (widthBytes w) true) (hself : inAlias addr.toNat = false)
    (hhigh : 0x800 ≤ addr.toNat % 0x1000) (hdef : undefinedAt addr.toNat (widthBytes w) = false) :
    Completes (.regWrite acc addr w v) s (Frame [] [] [] (settle s)) := by
  obtain ⟨hmakes, hfirst, hlast, hallow⟩ := hmay
  rw [undefinedAt_eq hlo hhi (widthBytes_pos w), Option.isNone_eq_false_iff, Option.isSome_iff_exists] at hdef
  obtain ⟨h, hhit⟩ := hdef
  refine completes_regWrite hcore hlo hhi fun t ht => ?_
  rwa [accessWrite_admits acc.isLt hmakes hlo hhi _ hself (by simp [State.shut, hfirst, hlast]) hhit hallow,
    hitWriteUnit_active (regHit_high hhigh hhit)] at ht

/-- An admitted write of a register that no block acts on reaches its fields, each by its access code (R14, R39). -/
theorem regWrite_plain (hmay : (settle s).admits acc addr.toNat (widthBytes w) true) (hself : inAlias addr.toNat = false)
    {x : RegDesc × Nat} (hat : regAt addr.toNat = some x) (hlow : addr.toNat % 0x1000 < 0x800) (hplain : plainReg x.2 = true)
    (hll : x.1.ll = false ∨ (addr.toNat = x.2 ∧ x.1.width ≤ 8 * widthBytes w)) :
    Completes (.regWrite acc addr w v) s (x.1.Written x.2
      (v.toNat % 2 ^ (8 * min (widthBytes w) (x.1.width / 8 - (addr.toNat - x.2))) * 2 ^ (8 * (addr.toNat - x.2)))
      ((2 ^ (8 * min (widthBytes w) (x.1.width / 8 - (addr.toNat - x.2))) - 1) * 2 ^ (8 * (addr.toNat - x.2))) (settle s)) := by
  obtain ⟨hmakes, hfirst, hlast, hallow⟩ := hmay
  refine completes_regWrite hcore hlo hhi fun t ht => ?_
  rw [accessWrite_admits acc.isLt hmakes hlo hhi _ hself (by simp [State.shut, hfirst, hlast])
    (by rw [regHit_low hlow, hat]; rfl) hallow] at ht
  exact (hitWriteUnit_written (regAt_stands hlo hhi hat) hlo hhi hplain hll acc v.toNat (settle s)).trans ht

section Makes
variable (hmakes : (settle s).makes acc addr.toNat (widthBytes w))
include hmakes

/-- A write that the maps close is denied (R84). -/
theorem regWrite_shut (hself : inAlias addr.toNat = true → 16 ≤ acc.val) (hshut : (settle s).shut acc addr.toNat (widthBytes w) = true) :
    Completes (.regWrite acc addr w v) s (Denied acc (settle s)) :=
  completes_regWrite hcore hlo hhi fun t ht =>
    hostDeny_recorded (by rwa [accessWrite_shut acc.isLt hmakes hlo hhi _ hself hshut] at ht)

/-- A write that the host's allow list refuses is denied (R420). -/
theorem regWrite_refused (hself : inAlias addr.toNat = false) (hshut : (settle s).shut acc addr.toNat (widthBytes w) = false)
    (hdef : undefinedAt addr.toNat (widthBytes w) = false) (h16 : acc.val = 16) (hallow : (settle s).hostAllow addr.toNat true = false) :
    Completes (.regWrite acc addr w v) s (Denied acc (settle s)) := by
  rw [undefinedAt_eq hlo hhi (widthBytes_pos w)] at hdef
  refine completes_regWrite hcore hlo hhi fun t ht => hostDeny_recorded ?_
  rwa [if_pos h16, ← accessWrite_refused acc.isLt hmakes hlo hhi v.toNat hself hshut hdef h16 hallow]

/-- A write at an undefined offset has no effect but UNMAPPED for the host and debug ports (R26). -/
theorem regWrite_unmapped (hself : inAlias addr.toNat = true → 16 ≤ acc.val)
    (hshut : (settle s).shut acc addr.toNat (widthBytes w) = false)
    (hnone : (inAlias addr.toNat || undefinedAt addr.toNat (widthBytes w)) = true) :
    Completes (.regWrite acc addr w v) s fun t =>
      if acc.val < 16 then Frame [] [] [] (settle s) t
      else t.rd F.SYS_ACCERR_UNMAPPED = 1 ∧ t.rd F.SYS_ACCERR_ACCESSOR = acc ∧
        Frame [F.SYS_ACCERR_UNMAPPED, F.SYS_ACCERR_ACCESSOR] [] [2] (settle s) t := by
  rw [undefinedAt_eq hlo hhi (widthBytes_pos w)] at hnone
  exact completes_regWrite hcore hlo hhi fun t ht => unmapped_recorded acc.isLt hcore
    (by rwa [accessWrite_unmapped acc.isLt hmakes hlo hhi _ hself hshut hnone] at ht)

end Makes
end Access

/-- Settles O5: an access is refused, or writes its unit of the register that stands there, whose fields take the bits by their access codes. -/
theorem regWriteByte : Obligations.RegWriteByte := by
  unfold Obligations.RegWriteByte
  refine ⟨fun acc addr w v s => ?_, fun acc b k w v s => ?_⟩
  · intro u a n closed selfSet done denied hcore hlo hhi
    refine ⟨regWrite_killed hcore hlo hhi, fun hmakes hself => ⟨?_, fun hopen => ?_, fun hopen hown hdef h16 hallow => ?_⟩,
      fun hmay hown => ⟨?_, ?_⟩⟩
    · exact regWrite_shut hcore hlo hhi hmakes hself
    · exact regWrite_unmapped hcore hlo hhi hmakes hself hopen
    · exact regWrite_refused hcore hlo hhi hmakes hown hopen hdef h16 hallow
    · exact regWrite_active hcore hlo hhi hmay hown
    · exact fun x hat hlow hplain hll => regWrite_plain hcore hlo hhi hmay hown hat hlow hplain hll
  · intro u may done hcore
    refine ⟨brnByte_write hcore b k, brnCfg_write hcore b, secLock_write hcore, fun hmay => ?_, fun a ha hmay hopen => ?_,
      fun hmay hkey => ?_⟩
    · exact secMem_write hcore hmay
    · exact pwr_write_open hcore ha hmay hopen
    · exact pwrRst_byteReg.refused hcore hmay (regStore_pwrRst_noKey hkey acc u)

end Sys2Proof.Machine
end
